-- ==== Sys2Proof/Word.lean ====
section
/-! DEFINITION. The word types of the model and nothing else: set-up registers and addresses are 64-bit words, memory is bytes. -/

namespace Sys2Proof

/-- A set-up register, an address, a fabric time (R7, R8, R13). -/
abbrev Word := BitVec 64

/-- One byte of memory or of a record. -/
abbrev Byte := BitVec 8

end Sys2Proof
end

