-- ==== Sys2Proof/Types.lean ====
section
/-! DEFINITION. The operand types of the commands: who sends a command, the cells, frames, flits and descriptors that
arrive, and the physical findings (upset bits, lane tests, sensor readings) an event brings with it. -/

namespace Sys2Proof

/-- Where a set-up access comes from (R13, R32): Travo Link, a Watermaster core, the management channel, or a
control core. -/
inductive Source where
  | travo
  | wm   (k : Nat)
  | mgmt
  | core (cluster k : Nat)
  deriving DecidableEq, Repr

/-- An engine that makes accesses. Cluster engines name their logical cluster; a Headgate engine names its part
(0 scoring array, 1 selector, 2 sorter, 3 combine unit, R27). An HBM3E controller names its stack and which of its two Reservoir
ports it uses (R29). -/
inductive Requester where
  | core    (cluster k : Nat)
  | dma     (cluster e : Nat)
  | array   (cluster : Nat)
  | flume   (cluster : Nat)
  | vector  (cluster : Nat)
  | engine  (e part : Nat)
  | wm      (k : Nat)
  | port    (die : Nat)
  | link
  | control
  | hbm     (stack half : Nat)
  deriving DecidableEq, Repr

/-- An upset found in storage: the word (SRAM) or sector (HBM) at a local address, and the positions that are wrong.
SRAM positions are codeword bits 0 to 79; HBM positions are symbols 0 to 34, then 35 to 42 for the bits of the poison byte
(R483, R485). -/
structure Upset where
  addr : Nat
  bits : List Nat
  deriving DecidableEq, Repr

/-- One access of a requester to the Reservoir: `age` is the cycle count at which it began to wait (R99, R100). -/
structure RsvRequest where
  age    : Nat
  who    : Requester
  addr   : Nat
  write  : Bool
  len    : Nat
  be     : Nat
  data   : List Byte
  poison : Bool
  deriving DecidableEq, Repr

/-- One direction of a package data-plane link (R28): the die at the far end from the Reservoir die, by class value of R19
and index, the Reservoir die it reaches, and whether the flit travels toward the Reservoir die. A forwarding link (`fwd`) joins
port die `idx` and port die `rsv`, and `toRsv` says that the flit travels toward the latter. -/
structure DieLink where
  cls    : Nat
  idx    : Nat
  rsv    : Nat
  toRsv  : Bool
  fwd    : Bool
  deriving DecidableEq, Repr

/-- The Sluice operations of R114. -/
inductive SluiceOp where
  | push | pop | peek | drop | count
  deriving DecidableEq, Repr

/-- An upset that has struck a channel's duplicated pointers since its last command (R121): patterns to exclusive-or into
each copy. -/
structure PointerUpset where
  head0 : Nat
  head1 : Nat
  tail0 : Nat
  tail1 : Nat
  deriving DecidableEq, Repr

/-- A Sluice command as a requester issues it (R114). -/
structure SluiceCmd where
  who     : Requester
  op      : SluiceOp
  channel : Nat
  pktEnd  : Bool
  fence   : Bool
  data    : List Byte
  deriving DecidableEq, Repr

/-- An upset of one copy of a voted critical word found at a re-vote (R489, R490): word index, copy 0 to 2, bits. -/
structure VoteUpset where
  index : Nat
  copy  : Nat
  mask  : Nat
  deriving DecidableEq, Repr

/-- What a patrol scrub read visits (R498). -/
inductive ScrubTarget where
  | rsvLine (die line : Nat)
  | spLine  (cluster line : Nat)
  | hbmSector (stack sector : Nat)
  | headgate (die line : Nat)
  | portBuf  (die line : Nat)
  deriving DecidableEq, Repr

/-- A Travo Link flit (R404) without its trailer: message type, poison, tag, status, size, address, byte enables and the
payload bytes when DATA is set. -/
structure TravoFlit where
  msg     : Nat
  poison  : Bool
  txn     : Nat
  status  : Nat
  size    : Nat
  addr    : Nat
  be      : Nat
  payload : List Byte
  deriving DecidableEq, Repr

/-- A cell: routing header (R310), operation header (R338) and payload. -/
structure Cell where
  dest    : Nat
  src     : Nat
  ptag    : Nat
  cls     : Nat
  hops    : Nat
  injTime : Nat
  injSeq  : Nat
  op      : Nat
  lenW    : Nat
  aop     : Nat
  aw      : Bool
  signed  : Bool
  seal_   : Bool
  poison  : Bool
  status  : Nat
  be      : Nat
  life    : Nat
  tag     : Nat
  offset  : Nat
  job     : Nat
  payload : List Byte
  deriving DecidableEq, Repr

/-- What a cell frame's check sequence shows (R312). -/
inductive Fcs where
  | good | stomped | bad
  deriving DecidableEq, Repr

/-- A cell frame as it arrives (R308): destination address, EtherType, link header, cell container, check. -/
structure CellFrame where
  dmac      : Nat
  etype     : Nat
  header    : Word
  container : List Byte
  fcs       : Fcs
  deriving DecidableEq, Repr

/-- The identity TLV and time-to-live of an LLDP frame (R304). -/
structure LldpFrame where
  oui     : Nat
  subtype : Nat
  info    : List Byte
  ttl     : Nat
  deriving DecidableEq, Repr

/-- A Jorper packet with its cells (R366). -/
structure SwPacket where
  srcGw    : Nat
  dstGw    : Nat
  ptag     : Nat
  psn      : Nat
  cum      : Nat
  sack     : Nat
  epoch    : Nat
  cells    : List Cell
  deriving DecidableEq, Repr

/-- The outer headers of an arriving packet that the receive checks of R327 look at: IPv6 source and destination, next header, UDP
ports, length and checksum. -/
structure SwOuter where
  src   : Nat
  dst   : Nat
  next  : Nat
  sport : Nat
  dport : Nat
  len   : Nat
  sum   : Nat
  deriving DecidableEq, Repr

/-- A packet as it arrives at a switched port (R326, R327): its outer headers, and what its Jorper header and cells say. -/
structure SwArrival where
  outer  : SwOuter
  packet : SwPacket
  deriving DecidableEq, Repr

/-- The result of the common-mode test or of training on one lane (R301). -/
inductive LaneTest where
  | pass | open_ | shorted
  deriving DecidableEq, Repr

/-- A PTP message at a port (R328, R329). Times are TAI in nanoseconds; corrections and turnaround times are in 2^-16 ns. A two-step Sync
brings its time in the Follow_Up. `turn` is how long the far end took to answer a Pdelay_Req. -/
inductive PtpMessage where
  | sync (tai : Nat) (correction : Int) (twoStep : Bool)
  | followUp (tai : Nat) (correction : Int)
  | delayReq (requester : Nat)
  | delayResp (tai : Nat) (correction : Int)
  | pdelayReq (requester : Nat)
  | pdelayResp (turn : Nat)
  | announce
  deriving DecidableEq, Repr

/-- A PTP message with its domain and whether it came by UDP over IPv6 or straight over Ethernet (R328). -/
structure PtpFrame where
  domain : Nat
  udp    : Bool
  body   : PtpMessage
  deriving DecidableEq, Repr

/-- Where the answer of an operation goes at its requester (R350, R357): nowhere, a core register (with the length in bytes of
the instruction that waits for it), a DMA destination address with the offset inside the descriptor, the atomic port, the management
firmware (R522, R532), or the collective program (R386, R392): a piece of SRC by its offset, a store of the chunk numbered `t` for the slot
`peer`, or the closing record of a slot. -/
inductive Sink where
  | none
  | reg (rd ilen : Nat)
  | dma (dst off : Nat)
  | atomPort
  | mgmt
  | colSrc (off : Nat)
  | colChunk (peer t : Nat)
  | colClosing (slot : Nat)
  deriving DecidableEq, Repr

/-- The RISC-V AMO instructions (R356). -/
inductive AmoOp where
  | add | swap | and | or | xor | min | max | minu | maxu
  deriving DecidableEq, Repr

/-- What the job's program reports of a sequence at the end of a step: its session, the last token appended to it, and the FP32
probability that SAMPLE gave (R250, R421). -/
structure StepResult where
  session : Nat
  token   : Nat
  prob    : Nat
  deriving DecidableEq, Repr

/-- A kept leaky bucket that boot re-applies (R497, R514): its class, unit and lane, level, lasting flag and events. -/
structure KeptUnit where
  cls     : Nat
  unit    : Nat
  lane    : Nat
  level   : Nat
  lasting : Bool
  events  : Nat
  deriving DecidableEq, Repr

/-- What the boot ROM finds as it runs (R512 to R516): the dies and stacks that came up as masks, the lanes Travo Link trained with and
whether the descriptor read completed, the descriptor, the regulator's identity, a PPS edge in time, the sense pairs open and shorted,
the soft-repair entries each with whether a spare is left, kept counters by set-up offset, kept units, the bytes at the image's address,
and the collective program that the image carries. -/
structure BootInput where
  compute   : Nat
  reservoir : Nat
  headgate  : Nat
  ports     : Nat
  control   : Bool
  link      : Bool
  hbm       : Nat
  lanes     : Nat
  descRead  : Bool
  desc      : List Byte
  regId     : List Byte
  pps       : Bool
  open_     : Nat
  shorted   : Nat
  repairs   : List (Nat × Bool)
  kept      : List (Nat × Nat)
  units     : List KeptUnit
  image     : List Byte
  program   : List Byte
  deriving DecidableEq, Repr

end Sys2Proof
end

