-- ==== Sys2Proof/Syntax.lean ====
section
/-! DEFINITION. The commands of the block: one constructor for every row of the operation table, in its order, with the row's operands. -/

namespace Sys2Proof

inductive Instr where
  -- Set-up accesses, the Reservoir and Sluice channels
  /-- SETUP_WRITE (R13). `addr` is a local address. -/
  | setupWrite (src : Source) (addr value : Word)
  /-- TOP_SETUP_LOCK_WRITE (R47). -/
  | topSetupLockWrite (src : Source) (value : Word)
  /-- RESERVOIR_ACCESS (R100). -/
  | reservoirAccess (requests : List RsvRequest) (upsets : List Upset)
  /-- FLIT_RECEIVE (R31). -/
  | flitReceive (link : DieLink) (crcOk : Bool) (carried : List (Requester × Nat))
  /-- REGION_SEAL (R109). -/
  | regionSeal (who : Requester) (region layer die : Nat)
  /-- SEAL_SIGNAL (R55). -/
  | sealSignal (region : Nat)
  /-- REGION_RELEASE (R109). -/
  | regionRelease (region : Nat)
  /-- VARVE_MARK (R128). -/
  | varveMark (who : Requester) (region layer die : Nat)
  /-- VARVE_RECORD_WRITE (R129). -/
  | varveRecordWrite
  /-- RSV_REGION_WRITE (R105). -/
  | rsvRegionWrite (src : Source) (region : Nat) (value : Word)
  /-- SLC_CHAN_WRITE (R112). -/
  | slcChanWrite (src : Source) (channel : Nat) (value : Word)
  /-- RESET_CHANNEL (R122). -/
  | resetChannel (src : Source) (channel : Nat) (value : Word)
  /-- PUSH (R116). `pointers` and `upsets` are what has struck the channel and its storage. -/
  | push (who : Requester) (channel : Nat) (pktEnd fence : Bool) (data : List Byte) (pointers : PointerUpset) (upsets : List Upset)
  /-- POP (R116). -/
  | pop (who : Requester) (channel : Nat) (pointers : PointerUpset) (upsets : List Upset)
  /-- PEEK (R116). -/
  | peek (who : Requester) (channel : Nat) (pointers : PointerUpset) (upsets : List Upset)
  /-- DROP_PACKET (R120). -/
  | dropPacket (who : Requester) (channel : Nat) (pointers : PointerUpset) (upsets : List Upset)
  /-- COUNT (R116). -/
  | count (who : Requester) (channel : Nat) (pointers : PointerUpset) (upsets : List Upset)
  /-- SLUICE_STORAGE_DONE (R119). -/
  | sluiceStorageDone (channel : Nat)
  /-- FENCE_MARKERS_ACKED (R118). -/
  | fenceMarkersAcked (who : Requester) (channel : Nat)
  -- Fabric time and turns
  /-- FT_TICK (R72). `n` ticks of the 1.25 GHz timebase. -/
  | ftTick (n : Nat)
  /-- PTP_SAMPLE (R80). -/
  | ptpSample (tai : Nat)
  /-- PPS_EDGE (R78). -/
  | ppsEdge
  /-- SAMPLE_TIMEOUT (R80). -/
  | sampleTimeout
  /-- HOLDOVER_LIMIT (R80). -/
  | holdoverLimit
  /-- FT_SRC_WRITE (R79). -/
  | ftSrcWrite (src : Source) (value : Word)
  /-- FT_TURN_ORIGIN_WRITE (R88). -/
  | ftTurnOriginWrite (src : Source) (value : Word)
  /-- FT_TURN_LEN_WRITE (R88). -/
  | ftTurnLenWrite (src : Source) (value : Word)
  /-- FT_EPOCH_TAI_WRITE (R88). -/
  | ftEpochTaiWrite (src : Source) (value : Word)
  /-- TURN_BOUNDARY (R90). `votes` are the upsets the re-vote meets; `slotBad` when the in-force plan slot reads uncorrectable. -/
  | turnBoundary (votes : List VoteUpset) (slotBad : Bool)
  /-- COUNTER_WINDOW_CLOSE (R92). -/
  | counterWindowClose
  /-- SCRUB_READ (R498). -/
  | scrubRead (target : ScrubTarget) (upsets : List Upset)
  -- The Headgate
  /-- LAYER_DESCRIPTOR_WRITE (R138). -/
  | layerDescriptorWrite (src : Source) (layer word : Nat) (value : Word)
  /-- ROUTE_DECISION (R166). -/
  | routeDecision
  /-- RANK_ROUND (R161). -/
  | rankRound
  /-- SORT_AND_DISPATCH (R187). -/
  | sortAndDispatch
  /-- SHAPE_RECORDS (R200). -/
  | shapeRecords
  /-- GATEWAY_RELAY (R197). -/
  | gatewayRelay
  /-- DONE_ITEM (R201). -/
  | doneItem
  /-- COMBINE (R204). -/
  | combine
  /-- EXCHANGE_DEADLINE (R70). -/
  | exchangeDeadline
  /-- HG_ZONE_WRITE (R189). -/
  | hgZoneWrite (src : Source) (zone word : Nat) (value : Word)
  /-- PLACE_LOAD (R178). -/
  | placeLoad (src : Source) (value : Word)
  /-- PLACE_LOAD_DONE (R178). -/
  | placeLoadDone
  /-- PLACE_COPY_DONE (R179). -/
  | placeCopyDone
  -- Clusters
  /-- CL_CORE_RUN_WRITE (R215). -/
  | clCoreRunWrite (src : Source) (cluster : Nat) (value : Word)
  /-- FENCE (R353). -/
  | fence (who : Requester)
  /-- AMO (R356). -/
  | amo (who : Requester) (op : AmoOp) (wide : Bool) (rd rs1 rs2 : Nat)
  /-- LR_SC (R356). -/
  | lrSc (who : Requester) (rs1 : Nat)
  /-- CL_ATOM_CTRL_WRITE (R357). -/
  | clAtomCtrlWrite (cluster k : Nat) (value : Word)
  /-- TILE_CMD_PUSH (R230). -/
  | tileCmdPush (cluster k off : Nat) (words : List Nat)
  /-- MATMUL (R231). `accBad` when an accumulator word is uncorrectable. -/
  | matmul (cluster : Nat) (accBad : Bool)
  /-- TILE_RETIRE (R234). -/
  | tileRetire (cluster : Nat)
  /-- TILE_BOUNDARY (R235). -/
  | tileBoundary (cluster : Nat)
  /-- FILL_BEGIN (R218). -/
  | fillBegin (cluster buffer : Nat)
  /-- FILL_END (R218). -/
  | fillEnd (cluster buffer : Nat)
  /-- FREE (R218). -/
  | free (cluster buffer : Nat)
  /-- CL_BUF_WRITE (R220). -/
  | clBufWrite (src : Source) (cluster buffer : Nat) (value : Word)
  /-- DMA_PUSH (R221). -/
  | dmaPush (cluster engine k off : Nat) (words : List Nat)
  /-- DMA_START (R221). -/
  | dmaStart (cluster engine : Nat)
  /-- DMA_COMPLETE (R221). -/
  | dmaComplete (cluster engine : Nat)
  -- The vector unit
  /-- VEC_PUSH (R246). -/
  | vecPush (cluster k off : Nat) (words : List Nat)
  /-- ADD (R247). -/
  | add (cluster : Nat)
  /-- MUL (R247). -/
  | mul (cluster : Nat)
  /-- AXPY (R247). -/
  | axpy (cluster : Nat)
  /-- SCALE_BIAS (R247). -/
  | scaleBias (cluster : Nat)
  /-- EXP (R247). -/
  | exp (cluster : Nat)
  /-- SILU_MUL (R247). -/
  | siluMul (cluster : Nat)
  /-- RMSNORM (R247). -/
  | rmsnorm (cluster : Nat)
  /-- SOFTMAX (R247). -/
  | softmax (cluster : Nat)
  /-- ROPE (R247). -/
  | rope (cluster : Nat)
  /-- CONVERT (R247). -/
  | convert (cluster : Nat)
  /-- QUANT_ROW (R247). -/
  | quantRow (cluster : Nat)
  /-- ROW_SUM (R247). -/
  | rowSum (cluster : Nat)
  /-- ROW_MAX (R247). -/
  | rowMax (cluster : Nat)
  /-- SAMPLE (R252). -/
  | sample (cluster : Nat)
  /-- VEC_RETIRE (R246). -/
  | vecRetire (cluster : Nat)
  -- The Flume
  /-- FLUME_CMD_PUSH (R273). -/
  | flumeCmdPush (cluster k off : Nat) (words : List Nat)
  /-- GATHER (R276). -/
  | gather (cluster : Nat)
  /-- COMPACT (R277). -/
  | compact (cluster : Nat)
  /-- MASK (R278). -/
  | mask (cluster : Nat)
  /-- CHECK (R278). -/
  | check (cluster : Nat)
  /-- MERGE (R278). -/
  | merge (cluster : Nat)
  /-- FLUME_COMPLETE (R273). -/
  | flumeComplete (cluster : Nat)
  -- Ports and forwarding
  /-- PORT_ENABLE_WRITE (R300). -/
  | portEnableWrite (src : Source) (port : Nat) (value : Word)
  /-- CM_TEST_DONE (R301). -/
  | cmTestDone (port : Nat) (found : List LaneTest)
  /-- TRAIN_DONE (R300). -/
  | trainDone (port : Nat) (failed : List Nat)
  /-- LANE_ID_DONE (R302). `far` is the mask of lanes that the far end receives well. -/
  | laneIdDone (port laneMap polarity far : Nat) (swap : Bool)
  /-- ALIGN_DONE (R300). -/
  | alignDone (port : Nat)
  /-- LLDP_SEND (R304). -/
  | lldpSend (port : Nat)
  /-- LLDP_RECEIVE (R305). -/
  | lldpReceive (port : Nat) (frame : LldpFrame)
  /-- IDENTITY_EXPIRE (R305). -/
  | identityExpire (port : Nat)
  /-- CDR_LOSS (R303). -/
  | cdrLoss (port lane : Nat)
  /-- RETRAIN_TIMEOUT (R303). -/
  | retrainTimeout (port : Nat)
  /-- LINK_MCU_RELOAD (R505). `ns` is how long the reload takes. -/
  | linkMcuReload (die ns : Nat)
  /-- CELL_FRAME_RECEIVE (R312). `corrected` symbols, and lanes whose codeword was uncorrectable. -/
  | cellFrameReceive (port : Nat) (frame : CellFrame) (corrected : Nat) (uncorrectable : List Nat)
  /-- PAUSE_RECEIVE (R295). -/
  | pauseReceive (port : Nat)
  /-- FORWARDING_SLOT (R318). -/
  | forwardingSlot
  /-- SW_PACKET_RECEIVE (R368). -/
  | swPacketReceive (port : Nat) (packet : SwArrival)
  /-- SW_ACK_RECEIVE (R369). -/
  | swAckReceive (port : Nat) (packet : SwArrival)
  /-- SW_PACKET_SEND (R367). -/
  | swPacketSend (port : Nat)
  /-- SW_ACK_SEND (R368). -/
  | swAckSend (source : Nat)
  /-- RTO_EXPIRE (R369). -/
  | rtoExpire (gateway psn : Nat)
  /-- NEIGHBOR_SOLICITATION (R327). `target` is the IPv6 address it asks for. -/
  | neighborSolicitation (port target : Nat)
  /-- PTP_EVENT_MESSAGE (R329). -/
  | ptpEventMessage (port : Nat) (message : PtpFrame)
  -- Fabric operations
  /-- LOAD_ISSUE (R343). -/
  | loadIssue (who : Requester) (mgmt : Bool) (addr : Word) (len : Nat) (sink : Sink)
  /-- STORE_ISSUE (R343). `ilen` is the length of a core's instruction. -/
  | storeIssue (who : Requester) (mgmt : Bool) (addr : Word) (be : Nat) (data : List Byte) (poison : Bool) (ilen : Nat)
  /-- ATOMIC_ISSUE (R343). -/
  | atomicIssue (who : Requester) (mgmt : Bool) (addr : Word) (aop : Nat) (wide signed : Bool) (operand swap : Word) (sink : Sink)
  /-- LOAD (R349). -/
  | load (die : Nat)
  /-- STORE (R349). -/
  | store (die : Nat)
  /-- ATOMIC_ADD (R354). -/
  | atomicAdd (die : Nat)
  /-- ATOMIC_MIN (R354). -/
  | atomicMin (die : Nat)
  /-- ATOMIC_MAX (R354). -/
  | atomicMax (die : Nat)
  /-- ATOMIC_AND (R354). -/
  | atomicAnd (die : Nat)
  /-- ATOMIC_OR (R354). -/
  | atomicOr (die : Nat)
  /-- ATOMIC_XOR (R354). -/
  | atomicXor (die : Nat)
  /-- ATOMIC_SWAP (R354). -/
  | atomicSwap (die : Nat)
  /-- ATOMIC_CAS (R354). -/
  | atomicCas (die : Nat)
  /-- ATOMIC_FADD (R354). -/
  | atomicFadd (die : Nat)
  /-- ATOMIC_BADD2 (R354). -/
  | atomicBadd2 (die : Nat)
  /-- LOAD_RSP (R350). -/
  | loadRsp (die : Nat)
  /-- ATOMIC_RSP (R350). -/
  | atomicRsp (die : Nat)
  /-- ACK (R339). -/
  | ack (die : Nat)
  /-- ACK_DELAY_EXPIRE (R349). -/
  | ackDelayExpire (die source : Nat)
  /-- T_DEAD_EXPIRE (R358). -/
  | tDeadExpire (tag : Nat)
  -- Collectives
  /-- ALL_REDUCE (R374). -/
  | allReduce (who : Requester) (off : Nat) (words : List Nat)
  /-- REDUCE_SCATTER (R374). -/
  | reduceScatter (who : Requester) (off : Nat) (words : List Nat)
  /-- ALL_GATHER (R374). -/
  | allGather (who : Requester) (off : Nat) (words : List Nat)
  /-- BROADCAST (R374). -/
  | broadcast (who : Requester) (off : Nat) (words : List Nat)
  /-- BARRIER (R374). -/
  | barrier (who : Requester) (off : Nat) (words : List Nat)
  /-- COLLECTIVE_INTERRUPT (R379). -/
  | collectiveInterrupt
  /-- COL_FINISH (R396). -/
  | colFinish (cluster : Nat) (value : Word)
  /-- COLLECTIVE_DEADLINE (R393). -/
  | collectiveDeadline
  -- Travo Link, rings and requests
  /-- TRAVO_FLIT_RECEIVE (R406). -/
  | travoFlitReceive (msg seq ackSeq : Nat) (nak crcOk : Bool)
  /-- SNP_SHARED (R405). -/
  | snpShared (txn line : Nat)
  /-- SNP_INV (R405). -/
  | snpInv (txn line : Nat)
  /-- LINE (R405). -/
  | line (txn : Nat) (poison : Bool) (data : List Byte)
  /-- GRANT (R405). -/
  | grant (txn : Nat)
  /-- UC_RD (R405). `size` 3 for 8 bytes, 4 for 16; `bad` when the device word is uncorrectable. -/
  | ucRd (txn : Nat) (addr : Word) (size : Nat) (bad : Bool)
  /-- UC_WR (R405). `image` and `program` are what the boot ROM finds if the write makes it read. -/
  | ucWr (txn : Nat) (addr : Word) (size be : Nat) (data image program : List Byte)
  /-- TL_RING_WRITE (R410). -/
  | tlRingWrite (src : Source) (ring word : Nat) (value : Word)
  /-- DB_TAIL (R413). -/
  | dbTail (ring value : Nat)
  /-- DB_HEAD (R413). -/
  | dbHead (ring value : Nat)
  /-- POLL (R422). -/
  | poll (txn ring : Nat)
  /-- PREFILL (R417). `desc` is the descriptor at HEAD; `bad` when its line arrives poisoned. -/
  | prefill (desc : List Byte) (bad : Bool)
  /-- GENERATE (R417). -/
  | generate (desc : List Byte) (bad : Bool)
  /-- SESSION_SET (R429). `image` is the session image at DATA_ADDR; `imageBad` when it arrives poisoned. -/
  | sessionSet (desc : List Byte) (bad : Bool) (image : List Byte) (imageBad : Bool)
  /-- SESSION_CLOSE (R429). -/
  | sessionClose (desc : List Byte) (bad : Bool)
  /-- ABORT (R427). -/
  | abort (desc : List Byte) (bad : Bool)
  /-- CALL (R417). -/
  | call (desc : List Byte) (bad : Bool)
  /-- CALL_RETURN (R417). -/
  | callReturn
  /-- STEP_BOUNDARY (R435). -/
  | stepBoundary (results : List StepResult)
  /-- COMMIT (R426). -/
  | commit
  /-- EVENT_RECORD_WRITE (R415). -/
  | eventRecordWrite
  -- Jobs and switching
  /-- JOB_BOUNDARY (R455). -/
  | jobBoundary
  /-- DRAIN_POINT (R457). -/
  | drainPoint
  /-- DRAIN_END (R457). -/
  | drainEnd
  /-- SWITCH_SAVE_DONE (R457). -/
  | switchSaveDone
  /-- SWITCH_READY (R457). -/
  | switchReady (upsets : List Upset)
  /-- RESUME_POINT (R457). -/
  | resumePoint
  /-- QUIESCE_OVERRUN (R460). -/
  | quiesceOverrun
  /-- SWAP_DONE (R446). -/
  | swapDone
  /-- CANON_WRITE (R468). -/
  | canonWrite (cluster : Nat) (canon : Bool)
  /-- WM_REPRO_WRITE (R481). -/
  | wmReproWrite (src : Source) (job : Nat) (value : Word)
  -- Stored-data protection
  /-- HEARTBEAT (R507). -/
  | heartbeat
  /-- WM_RECOVER (R508). -/
  | wmRecover (src : Source) (value : Word) (image : List Byte)
  /-- RETIRE_CLUSTER (R506). -/
  | retireCluster (src : Source) (value : Word)
  /-- ECC_RSV_RETIRE_WRITE (R503). -/
  | eccRsvRetireWrite (src : Source) (die word : Nat) (value : Word)
  -- Boot and management
  /-- RESET_RELEASE (R514). -/
  | resetRelease (found : BootInput)
  /-- RECOVERY_GO (R518). -/
  | recoveryGo (src : Source) (value : Word) (image program : List Byte)
  /-- SEC_SVN_BURN_WRITE (R519). -/
  | secSvnBurnWrite (src : Source) (value : Word)
  /-- HELLO (R525). `node` is the sending node. -/
  | hello (node : Nat)
  /-- ACCEPT (R525). -/
  | accept (node : Nat)
  /-- SET (R526). -/
  | set (node : Nat)
  /-- GET (R524). -/
  | get (node : Nat)
  /-- ATTEST (R521). -/
  | attest (node : Nat)
  /-- ATTEST_SIGNED (R521). -/
  | attestSigned
  /-- QUIESCE (R533). -/
  | quiesce (node : Nat)
  /-- TIME_ANNOUNCE (R79). -/
  | timeAnnounce (node : Nat)
  /-- START (R529). -/
  | start (node : Nat)
  /-- LAUNCH (R530). -/
  | launch (node : Nat)
  /-- LAUNCH_NOTICE (R531). `index` is 0xFFFFFFFF for the digest list. -/
  | launchNotice (index : Nat)
  /-- LAUNCH_ACK_TIMEOUT (R532). -/
  | launchAckTimeout (child index : Nat)
  /-- LAUNCH_CHILD (R532). -/
  | launchChild (node : Nat)
  /-- REPARENT (R532). -/
  | reparent (node : Nat)
  /-- LAUNCH_ABORT (R532). -/
  | launchAbort (node : Nat)
  -- Power and the sideband
  /-- GOVERNOR_INTERVAL (R543). The rail monitors in mV and A, and the device power in W. -/
  | governorInterval (mv0 amps0 mv1 amps1 watts : Nat)
  /-- VOLTAGE_WRITE_DONE (R542). -/
  | voltageWriteDone
  /-- RAIL_FAULT (R537). -/
  | railFault
  /-- SENSE_CHECK (R539). Each pair: the remote-sense reading and its rail monitor, in mV. -/
  | senseCheck (readings : List (Nat × Nat))
  /-- TEMP_REFRESH (R545). Each sensor: die and °C. -/
  | tempRefresh (readings : List (Nat × Nat))
  /-- POWER_RESET (R547). -/
  | powerReset (railsRemoved : Bool)
  /-- SMB_PART_READ (R549). -/
  | smbPartRead
  /-- SMB_BOOT_READ (R549). -/
  | smbBootRead
  /-- SMB_THERMAL_READ (R549). -/
  | smbThermalRead
  /-- SMB_POWER_READ (R549). -/
  | smbPowerRead
  /-- SMB_FAULT_READ (R549). -/
  | smbFaultRead
  /-- BMC_CAP_W_WRITE (R550). -/
  | bmcCapWWrite (watts : Nat) (pecOk : Bool)
  /-- ALERT_RESPONSE (R549). -/
  | alertResponse
  -- Events of several chapters
  /-- HBM_ACCESS (R485). `onDie` is the ON_DIE report count. -/
  | hbmAccess (request : RsvRequest) (upsets : List Upset) (onDie : Nat)
  /-- AVSBUS_ERROR (R537). -/
  | avsbusError (rail op : Nat)
  /-- TEARDOWN_DRAIN_END (R533). `ranges` are the job's HBM ranges, as base and length. -/
  | teardownDrainEnd (ranges : List (Nat × Nat))
  deriving DecidableEq, Repr

end Sys2Proof
end

