-- ==== Sys2Proof/Decode.lean ====
section
/-! DEFINITION. Commands as words: the operation table gives none of its rows any bits, so no word spells a command. -/

namespace Sys2Proof

/-- The command a word of the operation table's bits spells. The table gives bits to no row. -/
def decodeTableWord (_nbits _w : Nat) : Option Instr := none

end Sys2Proof
end

