-- ==== Sys2Proof/Config.lean ====
section
/-! DEFINITION. What the spec leaves open, as constants without a body: no proof can see a value of them. -/

namespace Sys2Proof

/-- The kinds of value the spec leaves open (log entry 7 and the entries named there). -/
inductive FreeKind where
  | syndrome        -- R488: non-zero diagnostic value
  | badPattern      -- R483, R485: which of detect, miscorrect or miss happens
  | badData         -- R483, R485: the data a miscorrected or missed pattern gives
  | servoRate       -- R72, R80: the rate word the servo chooses
  | faultedOutput   -- R234, R282: what a faulted command leaves in its outputs
  | partials        -- R237: what the partials of a canonical fold leave in P_BUF
  | portDetail      -- R300: DETAIL of a PORT_STATE record, which the spec does not lay out
  | logType         -- R517: the type of a measurement log entry, whose values the spec does not list
  | logAddress      -- R495: ADDRESS of an error log entry for storage outside the local map
  | kemPair         -- R525: which key pair the device generates
  | ackIndex        -- R531: which ACK bitmap of the parent belongs to this child
  | unreadSlot      -- R460, R462: the job a plan slot named that reads uncorrectable
  deriving DecidableEq, Repr

/-- A value the spec leaves open: the `n`-th free value of a kind. -/
opaque Config.free : FreeKind → Nat → Nat

/-- Does a byte string verify as the pure SLH-DSA-SHA2-192s (or 128f) signature of a message under a public key (R516, R525)? The
algorithms are FIPS 205's, which the spec names and does not state (log entry 25). -/
opaque Config.slhVerify192s : (pub msg sig : List Byte) → Bool
opaque Config.slhVerify128f : (pub msg sig : List Byte) → Bool

/-- The SLH-DSA-SHA2-128f public key and the signature of a message that the identity seeds give (R520, R521; log entry 25). -/
opaque Config.slhPublic : (seeds : List Byte) → List Byte
opaque Config.slhSign : (seeds msg : List Byte) → List Byte

/-- The encapsulation key of the `n`-th ML-KEM-768 key pair, and the shared secret it decapsulates from a ciphertext (R525; FIPS 203,
log entry 25). -/
opaque Config.kemKey : (n : Nat) → List Byte
opaque Config.kemSecret : (n : Nat) → (ct : List Byte) → List Byte

/-- Lines of a port die's buffers that a scrub pass covers: the spec gives no size (R498). -/
opaque Config.portBufferLines : Nat

/-- Which pseudo-channel of its stack serves an offset within the stack: the spec does not say (R27, R36, R494). -/
opaque Config.pseudoChannel : Nat → Nat

/-- Which die holds the turn at a shared Reservoir port in cycle 0: the spec does not say (R29). -/
opaque Config.portTurn : Nat

/-- The nominal rate word: 0.8 ns with 32 fractional bits, to the nearest unit (R72). -/
def Config.nominalRate : Nat := 3435973837

end Sys2Proof
end

