-- ==== Sys2Proof/Machine/RegMap.lean ====
section
/-! DEFINITION. The set-up register map of the spec: addresses, bit fields and the table of access codes, reset values and
limits, register by register (R12, R40 and each chapter's register section). Addresses are offsets inside set-up space
(local address minus 0x0003_0000_0000_0000). -/

namespace Sys2Proof.Machine

/-- A bit field of a register: lowest bit and width. -/
structure BitField where
  lo : Nat
  w  : Nat
  deriving DecidableEq, Repr

/-- The access codes of R12. -/
inductive Access where
  | ro | rw | wo | w1c | w1s | rwl
  deriving DecidableEq, Repr

/-- Which set-up sources may write a register: any, the Watermaster and the management channel, Travo Link, or the management
channel alone. -/
inductive WriteSource where
  | any | wmMgmt | travo | mgmt
  deriving DecidableEq, Repr

/-- A limit a written value is held to; `zeroOk` lets zero through unheld. -/
structure Hold where
  lo : Nat
  hi : Nat
  zeroOk : Bool
  deriving DecidableEq, Repr

/-- One field of a register table row. -/
structure FieldDesc where
  lo    : Nat
  w     : Nat
  acc   : Access
  reset : Nat
  hold  : Option Hold
  deriving DecidableEq, Repr

/-- One register of the map, with its instances: each dimension is a count and a stride. -/
structure RegDesc where
  base   : Nat
  dims   : List (Nat × Nat)
  src    : WriteSource
  width4 : Bool
  fields : List FieldDesc
  deriving DecidableEq, Repr

namespace Reg

/-- TOP_DEVICE_ID (R45). -/
def TOP_DEVICE_ID : Nat := 0x0
/-- TOP_CLUSTER_MAP (R46). -/
def TOP_CLUSTER_MAP : Nat := 0x8
/-- TOP_SETUP_LOCK (R47). -/
def TOP_SETUP_LOCK : Nat := 0x10
/-- TOP_DIE_STATUS (R48). -/
def TOP_DIE_STATUS : Nat := 0x18
/-- HG_EXCH_CTRL (R53). -/
def HG_EXCH_CTRL : Nat := 0x3000800
/-- FT_CTRL (R95). -/
def FT_CTRL : Nat := 0xc000000
/-- FT_STATUS (R95). -/
def FT_STATUS : Nat := 0xc000008
/-- FT_NOW (R95). -/
def FT_NOW : Nat := 0xc000010
/-- FT_EPOCH_TAI (R95). -/
def FT_EPOCH_TAI : Nat := 0xc000020
/-- FT_TURN_ORIGIN (R95). -/
def FT_TURN_ORIGIN : Nat := 0xc000030
/-- FT_TURN_CHANGE (R95). -/
def FT_TURN_CHANGE : Nat := 0xc000040
/-- FT_TURN_NOW (R95). -/
def FT_TURN_NOW : Nat := 0xc000048
/-- FT_OFFSET (R95). -/
def FT_OFFSET : Nat := 0xc000018
/-- FT_PPS_CFG (R95). -/
def FT_PPS_CFG : Nat := 0xc000028
/-- FT_TURN_LEN (R95). -/
def FT_TURN_LEN : Nat := 0xc000038
/-- FT_WINDOW (R95). -/
def FT_WINDOW : Nat := 0xc000050
/-- FT_SCRUB_SLOT (R95). -/
def FT_SCRUB_SLOT : Nat := 0xc000058
/-- FT_COUNT (R95). -/
def FT_COUNT : Nat := 0xc000060
/-- RSV_BANK_STAT (R101). -/
def RSV_BANK_STAT (i : Nat) : Nat := 0x1000200 + i * 0x100000
/-- RSV_REGION (R103). -/
def RSV_REGION (i : Nat) : Nat := 0x1001000 + i * 0x8
/-- RSV_SEALED (R110). -/
def RSV_SEALED (i : Nat) : Nat := 0x1002000 + i * 0x8
/-- SLC_CHAN0 (R112). -/
def SLC_CHAN0 (i : Nat) : Nat := 0x2100000 + i * 0x20
/-- SLC_CHAN1 (R112). -/
def SLC_CHAN1 (i : Nat) : Nat := 0x2100008 + i * 0x20
/-- SLC_CHAN2 (R112). -/
def SLC_CHAN2 (i : Nat) : Nat := 0x2100010 + i * 0x20
/-- SLC_CHAN3 (R112). -/
def SLC_CHAN3 (i : Nat) : Nat := 0x2100018 + i * 0x20
/-- RSV_VARVE_CTRL (R133). -/
def RSV_VARVE_CTRL : Nat := 0x1000100
/-- RSV_VARVE_LOST (R133). -/
def RSV_VARVE_LOST : Nat := 0x1000108
/-- HG_LAYER0 (R136). -/
def HG_LAYER0 (i : Nat) : Nat := 0x3040000 + i * 0x40
/-- HG_LAYER1 (R137). -/
def HG_LAYER1 (i : Nat) : Nat := 0x3040008 + i * 0x40
/-- HG_LAYER2 (R137). -/
def HG_LAYER2 (i : Nat) : Nat := 0x3040010 + i * 0x40
/-- HG_LAYER3 (R137). -/
def HG_LAYER3 (i : Nat) : Nat := 0x3040018 + i * 0x40
/-- HG_LAYER4 (R137). -/
def HG_LAYER4 (i : Nat) : Nat := 0x3040020 + i * 0x40
/-- HG_LAYER5 (R137). -/
def HG_LAYER5 (i : Nat) : Nat := 0x3040028 + i * 0x40
/-- HG_LAYER6 (R137). -/
def HG_LAYER6 (i : Nat) : Nat := 0x3040030 + i * 0x40
/-- HG_LAYER7 (R137). -/
def HG_LAYER7 (i : Nat) : Nat := 0x3040038 + i * 0x40
/-- HG_SEL_CTRL (R172). -/
def HG_SEL_CTRL : Nat := 0x3000000
/-- HG_CNT_TOKENS (R173). -/
def HG_CNT_TOKENS (i : Nat) : Nat := 0x3000100 + i * 0x100000
/-- HG_CNT_CLAIMS (R173). -/
def HG_CNT_CLAIMS (i : Nat) : Nat := 0x3000108 + i * 0x100000
/-- HG_CNT_REFUSED (R173). -/
def HG_CNT_REFUSED (i : Nat) : Nat := 0x3000110 + i * 0x100000
/-- HG_CNT_DROPPED (R173). -/
def HG_CNT_DROPPED (i : Nat) : Nat := 0x3000118 + i * 0x100000
/-- HG_CNT_SPILLED (R173). -/
def HG_CNT_SPILLED (i : Nat) : Nat := 0x3000120 + i * 0x100000
/-- HG_CNT_NEXT (R173). -/
def HG_CNT_NEXT (i : Nat) : Nat := 0x3000128 + i * 0x100000
/-- HG_CNT_TIES (R173). -/
def HG_CNT_TIES (i : Nat) : Nat := 0x3000130 + i * 0x100000
/-- HG_CNT_MISC (R173). -/
def HG_CNT_MISC (i : Nat) : Nat := 0x3000138 + i * 0x100000
/-- HG_PLACE_BASE (R176). -/
def HG_PLACE_BASE (i : Nat) : Nat := 0x3024000 + i * 0x4
/-- HG_PLACE_SRC (R178). -/
def HG_PLACE_SRC : Nat := 0x3000900
/-- HG_PLACE_CTRL (R178). -/
def HG_PLACE_CTRL : Nat := 0x3000908
/-- HG_PLACE_FLIP (R178). -/
def HG_PLACE_FLIP : Nat := 0x3000910
/-- HG_GATEWAY (R196). -/
def HG_GATEWAY (i : Nat) : Nat := 0x3020000 + i * 0x8
/-- HG_SLOT0 (R198). -/
def HG_SLOT0 (i : Nat) : Nat := 0x3030000 + i * 0x10
/-- HG_SLOT1 (R198). -/
def HG_SLOT1 (i : Nat) : Nat := 0x3030008 + i * 0x10
/-- HG_XCH_REGIONS (R203). -/
def HG_XCH_REGIONS : Nat := 0x3000810
/-- HG_XCH_CFG (R203). -/
def HG_XCH_CFG : Nat := 0x3000818
/-- HG_XCH_OUT (R203). -/
def HG_XCH_OUT : Nat := 0x3000820
/-- HG_XCH_WORK (R203). -/
def HG_XCH_WORK : Nat := 0x3000828
/-- WM_CALVE_CTRL (R206). -/
def WM_CALVE_CTRL : Nat := 0xb002000
/-- HG_CNT_SENT (R210). -/
def HG_CNT_SENT : Nat := 0x3000140
/-- HG_CNT_LOCAL (R210). -/
def HG_CNT_LOCAL : Nat := 0x3000148
/-- HG_CNT_RELAYED (R210). -/
def HG_CNT_RELAYED : Nat := 0x3000150
/-- HG_CNT_LANDED (R210). -/
def HG_CNT_LANDED : Nat := 0x3000158
/-- HG_CNT_RETURNED (R210). -/
def HG_CNT_RETURNED : Nat := 0x3000160
/-- HG_CNT_COMBINE (R210). -/
def HG_CNT_COMBINE : Nat := 0x3000168
/-- HG_CNT_FAULTS (R210). -/
def HG_CNT_FAULTS : Nat := 0x3000170
/-- CL_CTRL (R253). -/
def CL_CTRL (i : Nat) : Nat := 0x4000000 + i * 0x10000
/-- CL_CORE_RUN (R253). -/
def CL_CORE_RUN (i : Nat) : Nat := 0x4000008 + i * 0x10000
/-- CL_CMD_STATUS (R253). -/
def CL_CMD_STATUS (i : Nat) : Nat := 0x4000010 + i * 0x10000
/-- CL_VEC_STATUS (R253). -/
def CL_VEC_STATUS (i : Nat) : Nat := 0x4000018 + i * 0x10000
/-- CL_DMA_STATUS (R253). -/
def CL_DMA_STATUS (i : Nat) : Nat := 0x4000020 + i * 0x10000
/-- CL_DMA_CRC (R253). -/
def CL_DMA_CRC (i : Nat) : Nat := 0x4000028 + i * 0x10000
/-- CL_BUF_CMD (R253). -/
def CL_BUF_CMD (i : Nat) : Nat := 0x4001800 + i * 0x10000
/-- CL_STAT_BUSY (R253). -/
def CL_STAT_BUSY (i : Nat) : Nat := 0x4002000 + i * 0x10000
/-- CL_STAT_MISC (R253). -/
def CL_STAT_MISC (i : Nat) : Nat := 0x4002008 + i * 0x10000
/-- CL_BUF (R254). -/
def CL_BUF (i : Nat) (j : Nat) : Nat := 0x4001000 + i * 0x10000 + j * 0x8
/-- FLM_CTRL (R291). -/
def FLM_CTRL (i : Nat) : Nat := 0x5000000 + i * 0x10000
/-- FLM_STATUS (R291). -/
def FLM_STATUS (i : Nat) : Nat := 0x5000008 + i * 0x10000
/-- FLM_PRED_MASK (R291). -/
def FLM_PRED_MASK (i : Nat) : Nat := 0x5000100 + i * 0x10000
/-- FLM_PRED_CHECK (R291). -/
def FLM_PRED_CHECK (i : Nat) : Nat := 0x5000108 + i * 0x10000
/-- FLM_PRED_PAIRS (R291). -/
def FLM_PRED_PAIRS (i : Nat) : Nat := 0x5000110 + i * 0x10000
/-- FLM_PRED_RATE (R291). -/
def FLM_PRED_RATE (i : Nat) : Nat := 0x5000118 + i * 0x10000
/-- FLM_CNT_FAULTS (R291). -/
def FLM_CNT_FAULTS (i : Nat) : Nat := 0x5000120 + i * 0x10000
/-- FLM_CNT_BUSY (R291). -/
def FLM_CNT_BUSY (i : Nat) : Nat := 0x5000128 + i * 0x10000
/-- FWD_POS (R314). -/
def FWD_POS (i : Nat) : Nat := 0x7010000 + i * 0x8
/-- FWD_RACK (R314). -/
def FWD_RACK (i : Nat) : Nat := 0x7020000 + i * 0x8
/-- FP_CFG (R332). -/
def FP_CFG (i : Nat) : Nat := 0x6000000 + i * 0x10000
/-- FP_STATUS (R332). -/
def FP_STATUS (i : Nat) : Nat := 0x6000008 + i * 0x10000
/-- FP_EXPECT (R332). -/
def FP_EXPECT (i : Nat) : Nat := 0x6000010 + i * 0x10000
/-- FP_HEARD (R332). -/
def FP_HEARD (i : Nat) : Nat := 0x6000018 + i * 0x10000
/-- FP_PTP (R332). -/
def FP_PTP (i : Nat) : Nat := 0x6000020 + i * 0x10000
/-- FP_CNT_FEC (R332). -/
def FP_CNT_FEC (i : Nat) : Nat := 0x6000040 + i * 0x10000
/-- FP_CNT_UNCORR (R332). -/
def FP_CNT_UNCORR (i : Nat) : Nat := 0x6000048 + i * 0x10000
/-- FP_CNT_FRAME (R332). -/
def FP_CNT_FRAME (i : Nat) : Nat := 0x6000050 + i * 0x10000
/-- FWD_IDENT (R333). -/
def FWD_IDENT : Nat := 0x7000000
/-- FWD_CTRL (R333). -/
def FWD_CTRL : Nat := 0x7000008
/-- FWD_FLIP (R333). -/
def FWD_FLIP : Nat := 0x7000010
/-- FWD_DRIFT (R333). -/
def FWD_DRIFT : Nat := 0x7000018
/-- FWD_DRIFT_BASE (R333). -/
def FWD_DRIFT_BASE : Nat := 0x7000020
/-- FWD_SW (R333). -/
def FWD_SW : Nat := 0x7000028
/-- FWD_SW_DSCP (R333). -/
def FWD_SW_DSCP : Nat := 0x7000030
/-- FWD_SW_PREFIX (R333). -/
def FWD_SW_PREFIX : Nat := 0x7000038
/-- FWD_OUI (R333). -/
def FWD_OUI : Nat := 0x7000040
/-- FWD_NEXTHOP (R333). -/
def FWD_NEXTHOP (i : Nat) : Nat := 0x7000048 + i * 0x8
/-- FWD_CNT_DEFL (R333). -/
def FWD_CNT_DEFL (i : Nat) : Nat := 0x7000100 + i * 0x100000
/-- FWD_CNT_EJ (R333). -/
def FWD_CNT_EJ (i : Nat) : Nat := 0x7000108 + i * 0x100000
/-- FWD_CNT_DROP (R333). -/
def FWD_CNT_DROP (i : Nat) : Nat := 0x7000110 + i * 0x100000
/-- FWD_CNT_SW (R333). -/
def FWD_CNT_SW (i : Nat) : Nat := 0x7000118 + i * 0x100000
/-- FWD_PREFIX0 (R333). -/
def FWD_PREFIX0 (i : Nat) : Nat := 0x7040000 + i * 0x10
/-- FWD_PREFIX1 (R333). -/
def FWD_PREFIX1 (i : Nat) : Nat := 0x7040008 + i * 0x10
/-- CL_ATOM_ADDR (R357). -/
def CL_ATOM_ADDR (i : Nat) (j : Nat) : Nat := 0x4000600 + i * 0x10000 + j * 0x40
/-- CL_ATOM_OPND (R357). -/
def CL_ATOM_OPND (i : Nat) (j : Nat) : Nat := 0x4000608 + i * 0x10000 + j * 0x40
/-- CL_ATOM_SWAP (R357). -/
def CL_ATOM_SWAP (i : Nat) (j : Nat) : Nat := 0x4000610 + i * 0x10000 + j * 0x40
/-- CL_ATOM_CTRL (R357). -/
def CL_ATOM_CTRL (i : Nat) (j : Nat) : Nat := 0x4000618 + i * 0x10000 + j * 0x40
/-- CL_ATOM_RESULT (R357). -/
def CL_ATOM_RESULT (i : Nat) (j : Nat) : Nat := 0x4000620 + i * 0x10000 + j * 0x40
/-- CL_ATOM_STATUS (R357). -/
def CL_ATOM_STATUS (i : Nat) (j : Nat) : Nat := 0x4000628 + i * 0x10000 + j * 0x40
/-- FP_CNT_REPLAY (R365). -/
def FP_CNT_REPLAY (i : Nat) : Nat := 0x6000058 + i * 0x10000
/-- JT_CTRL (R371). -/
def JT_CTRL : Nat := 0x8000000
/-- JT_RACKWIN (R371). -/
def JT_RACKWIN : Nat := 0x8000008
/-- JT_EXPORT (R371). -/
def JT_EXPORT : Nat := 0x8000010
/-- JT_EXPORT_SIZE (R371). -/
def JT_EXPORT_SIZE : Nat := 0x8000018
/-- JT_MGMT_WIN (R371). -/
def JT_MGMT_WIN : Nat := 0x8000020
/-- JT_SW (R371). -/
def JT_SW : Nat := 0x8000028
/-- JT_CNT_ISSUED (R371). -/
def JT_CNT_ISSUED : Nat := 0x8000100
/-- JT_CNT_LOST (R371). -/
def JT_CNT_LOST : Nat := 0x8000108
/-- JT_CNT_TARGET (R371). -/
def JT_CNT_TARGET : Nat := 0x8000110
/-- JT_CNT_MISC (R371). -/
def JT_CNT_MISC : Nat := 0x8000118
/-- JT_CNT_SW (R371). -/
def JT_CNT_SW : Nat := 0x8000120
/-- JT_MEMBER (R371). -/
def JT_MEMBER (i : Nat) : Nat := 0x8000400 + i * 0x8
/-- COL_CTRL (R400). -/
def COL_CTRL : Nat := 0x9000000
/-- COL_STATUS (R400). -/
def COL_STATUS : Nat := 0x9000008
/-- COL_SKEW (R400). -/
def COL_SKEW : Nat := 0x9000010
/-- COL_EPOCH (R400). -/
def COL_EPOCH : Nat := 0x9000018
/-- COL_CNT (R400). -/
def COL_CNT : Nat := 0x9000020
/-- COL_CNT_CHUNK (R400). -/
def COL_CNT_CHUNK : Nat := 0x9000028
/-- COL_GROUP (R400). -/
def COL_GROUP (i : Nat) : Nat := 0x9001000 + i * 0x8
/-- COL_FINISH (R401). -/
def COL_FINISH (i : Nat) : Nat := 0x9000080 + i * 0x10000
/-- COL_FINISH_RES (R401). -/
def COL_FINISH_RES (i : Nat) : Nat := 0x9000088 + i * 0x10000
/-- COL_CL_STAT (R401). -/
def COL_CL_STAT (i : Nat) : Nat := 0x9000100 + i * 0x10000
/-- TL_RING0 (R410). -/
def TL_RING0 (i : Nat) : Nat := 0xa100000 + i * 0x20
/-- TL_RING1 (R410). -/
def TL_RING1 (i : Nat) : Nat := 0xa100008 + i * 0x20
/-- TL_RING2 (R410). -/
def TL_RING2 (i : Nat) : Nat := 0xa100010 + i * 0x20
/-- TL_RING3 (R410). -/
def TL_RING3 (i : Nat) : Nat := 0xa100018 + i * 0x20
/-- TL_CTRL (R440). -/
def TL_CTRL : Nat := 0xa000000
/-- TL_STATUS (R440). -/
def TL_STATUS : Nat := 0xa000008
/-- TL_CNT_LINK (R440). -/
def TL_CNT_LINK : Nat := 0xa000010
/-- TL_EVENT (R440). -/
def TL_EVENT : Nat := 0xa000018
/-- TL_SESS (R440). -/
def TL_SESS : Nat := 0xa000020
/-- TL_ADM (R440). -/
def TL_ADM : Nat := 0xa000028
/-- TL_ADM_EST (R440). -/
def TL_ADM_EST : Nat := 0xa000030
/-- TL_CNT_REQ (R440). -/
def TL_CNT_REQ : Nat := 0xa000100
/-- TL_CNT_OUT (R440). -/
def TL_CNT_OUT : Nat := 0xa000108
/-- TL_CNT_FLOW (R440). -/
def TL_CNT_FLOW : Nat := 0xa000110
/-- TL_CNT_POLL (R440). -/
def TL_CNT_POLL : Nat := 0xa000118
/-- TL_JOB (R440). -/
def TL_JOB (i : Nat) : Nat := 0xa000400 + i * 0x8
/-- TL_KV_POOL0 (R440). -/
def TL_KV_POOL0 (i : Nat) (j : Nat) : Nat := 0xa010000 + i * 0x40 + j * 0x10
/-- TL_KV_POOL1 (R440). -/
def TL_KV_POOL1 (i : Nat) (j : Nat) : Nat := 0xa010008 + i * 0x40 + j * 0x10
/-- WM_SWITCH (R462). -/
def WM_SWITCH : Nat := 0xb000000
/-- WM_SCHED (R462). -/
def WM_SCHED : Nat := 0xb000008
/-- WM_PLAN_CTRL (R462). -/
def WM_PLAN_CTRL : Nat := 0xb000010
/-- WM_PLAN_ORIGIN (R462). -/
def WM_PLAN_ORIGIN : Nat := 0xb000018
/-- WM_PLAN_FLIP (R462). -/
def WM_PLAN_FLIP : Nat := 0xb000020
/-- WM_PLAN_CTRL_IF (R462). -/
def WM_PLAN_CTRL_IF : Nat := 0xb000030
/-- WM_PLAN_ORIGIN_IF (R462). -/
def WM_PLAN_ORIGIN_IF : Nat := 0xb000038
/-- WM_IDLE (R462). -/
def WM_IDLE : Nat := 0xb000040
/-- WM_CNT (R462). -/
def WM_CNT : Nat := 0xb000048
/-- WM_SAVE (R462). -/
def WM_SAVE (i : Nat) : Nat := 0xb000100 + i * 0x8
/-- WM_JOB0 (R463). -/
def WM_JOB0 (i : Nat) : Nat := 0xb010000 + i * 0x10
/-- WM_JOB1 (R463). -/
def WM_JOB1 (i : Nat) : Nat := 0xb010008 + i * 0x10
/-- WM_ACCT0 (R464). -/
def WM_ACCT0 (i : Nat) : Nat := 0xb020000 + i * 0x40
/-- WM_ACCT1 (R464). -/
def WM_ACCT1 (i : Nat) : Nat := 0xb020008 + i * 0x40
/-- WM_ACCT2 (R464). -/
def WM_ACCT2 (i : Nat) : Nat := 0xb020010 + i * 0x40
/-- WM_ACCT3 (R464). -/
def WM_ACCT3 (i : Nat) : Nat := 0xb020018 + i * 0x40
/-- WM_ACCT4 (R464). -/
def WM_ACCT4 (i : Nat) : Nat := 0xb020020 + i * 0x40
/-- WM_ACCT5 (R464). -/
def WM_ACCT5 (i : Nat) : Nat := 0xb020028 + i * 0x40
/-- WM_PLAN (R465). -/
def WM_PLAN (i : Nat) : Nat := 0xb040000 + i * 0x8
/-- WM_REPRO (R481). -/
def WM_REPRO (i : Nat) : Nat := 0xb030000 + i * 0x8
/-- ECC_CTRL (R509). -/
def ECC_CTRL : Nat := 0xd000000
/-- ECC_SCRUB (R509). -/
def ECC_SCRUB : Nat := 0xd000008
/-- ECC_SCRUB_PASS (R509). -/
def ECC_SCRUB_PASS : Nat := 0xd000010
/-- ECC_LOG_BASE (R509). -/
def ECC_LOG_BASE : Nat := 0xd000018
/-- ECC_LOG_CTRL (R509). -/
def ECC_LOG_CTRL : Nat := 0xd000020
/-- ECC_LOG_WB (R509). -/
def ECC_LOG_WB : Nat := 0xd000028
/-- ECC_LOG_PTR (R509). -/
def ECC_LOG_PTR : Nat := 0xd000030
/-- ECC_VOTE (R509). -/
def ECC_VOTE : Nat := 0xd000040
/-- ECC_HB_CTRL (R509). -/
def ECC_HB_CTRL : Nat := 0xd000048
/-- ECC_HB_ADDR (R509). -/
def ECC_HB_ADDR : Nat := 0xd000050
/-- ECC_HB_COUNT (R509). -/
def ECC_HB_COUNT : Nat := 0xd000058
/-- ECC_WM_RECOVER (R509). -/
def ECC_WM_RECOVER : Nat := 0xd000060
/-- ECC_RETIRE_CL (R509). -/
def ECC_RETIRE_CL : Nat := 0xd000068
/-- ECC_UNIT_SEL (R509). -/
def ECC_UNIT_SEL : Nat := 0xd000070
/-- ECC_UNIT_STATE (R509). -/
def ECC_UNIT_STATE : Nat := 0xd000078
/-- ECC_CNT_SRAM (R509). -/
def ECC_CNT_SRAM : Nat := 0xd000080
/-- ECC_CNT_HBM (R509). -/
def ECC_CNT_HBM : Nat := 0xd000088
/-- ECC_CNT_ODE (R509). -/
def ECC_CNT_ODE : Nat := 0xd000090
/-- ECC_CNT_MISC (R509). -/
def ECC_CNT_MISC : Nat := 0xd000098
/-- ECC_CLASS (R509). -/
def ECC_CLASS (i : Nat) : Nat := 0xd000100 + i * 0x8
/-- ECC_RSV_RETIRE (R509). -/
def ECC_RSV_RETIRE (i : Nat) (j : Nat) : Nat := 0xd010000 + i * 0x2000 + j * 0x8
/-- SEC_LIFECYCLE (R534). -/
def SEC_LIFECYCLE : Nat := 0xe000000
/-- SEC_BOOT_STATUS (R534). -/
def SEC_BOOT_STATUS : Nat := 0xe000008
/-- SEC_SVN (R534). -/
def SEC_SVN : Nat := 0xe000010
/-- SEC_SVN_BURN (R534). -/
def SEC_SVN_BURN : Nat := 0xe000018
/-- SEC_MGMT_CTRL (R534). -/
def SEC_MGMT_CTRL : Nat := 0xe000020
/-- SEC_MGMT_BOX (R534). -/
def SEC_MGMT_BOX : Nat := 0xe000028
/-- SEC_FP_CTRL (R534). -/
def SEC_FP_CTRL : Nat := 0xe000030
/-- SEC_ATTEST_CTRL (R534). -/
def SEC_ATTEST_CTRL : Nat := 0xe000038
/-- SEC_RECOVERY_ADDR (R534). -/
def SEC_RECOVERY_ADDR : Nat := 0xe000040
/-- SEC_RECOVERY_CTRL (R534). -/
def SEC_RECOVERY_CTRL : Nat := 0xe000048
/-- SEC_CNT_MGMT (R534). -/
def SEC_CNT_MGMT : Nat := 0xe000050
/-- SEC_LAUNCH_STATUS (R534). -/
def SEC_LAUNCH_STATUS : Nat := 0xe000058
/-- SEC_MEAS (R534). -/
def SEC_MEAS (i : Nat) (j : Nat) : Nat := 0xe000100 + i * 0x20 + j * 0x8
/-- SEC_ID_PUB (R534). -/
def SEC_ID_PUB (i : Nat) : Nat := 0xe000200 + i * 0x8
/-- SEC_FP (R534). -/
def SEC_FP (i : Nat) : Nat := 0xe000220 + i * 0x8
/-- SEC_MGR_HASH (R534). -/
def SEC_MGR_HASH (i : Nat) : Nat := 0xe000240 + i * 0x8
/-- PWR_CTRL (R551). -/
def PWR_CTRL : Nat := 0xf000000
/-- PWR_STATUS (R551). -/
def PWR_STATUS : Nat := 0xf000008
/-- PWR_RAIL (R551). -/
def PWR_RAIL (i : Nat) : Nat := 0xf000010 + i * 0x8
/-- PWR_SENSE (R551). -/
def PWR_SENSE : Nat := 0xf000020
/-- PWR_POWER (R551). -/
def PWR_POWER : Nat := 0xf000028
/-- PWR_CNT (R551). -/
def PWR_CNT : Nat := 0xf000030
/-- HG_ZONE0 (R189). -/
def HG_ZONE0 (i : Nat) : Nat := 0x3010000 + i * 0x20
/-- HG_ZONE1 (R189). -/
def HG_ZONE1 (i : Nat) : Nat := 0x3010008 + i * 0x20
/-- HG_ZONE2 (R189). -/
def HG_ZONE2 (i : Nat) : Nat := 0x3010010 + i * 0x20
/-- FLM_DESC0 (R258). -/
def FLM_DESC0 (i : Nat) (j : Nat) : Nat := 0x5001000 + i * 0x10000 + j * 0x20
/-- FLM_DESC1 (R258). -/
def FLM_DESC1 (i : Nat) (j : Nat) : Nat := 0x5001008 + i * 0x10000 + j * 0x20
/-- JT_WIN0 (R342). -/
def JT_WIN0 (i : Nat) : Nat := 0x8010000 + i * 0x20
/-- JT_WIN1 (R342). -/
def JT_WIN1 (i : Nat) : Nat := 0x8010008 + i * 0x20
/-- JT_WIN2 (R342). -/
def JT_WIN2 (i : Nat) : Nat := 0x8010010 + i * 0x20
/-- HG_LAYER0_IF (R136). -/
def HG_LAYER0_IF (i : Nat) : Nat := 0x3080000 + i * 0x40
/-- HG_LAYER1_IF (R137). -/
def HG_LAYER1_IF (i : Nat) : Nat := 0x3080008 + i * 0x40
/-- HG_LAYER2_IF (R137). -/
def HG_LAYER2_IF (i : Nat) : Nat := 0x3080010 + i * 0x40
/-- HG_LAYER3_IF (R137). -/
def HG_LAYER3_IF (i : Nat) : Nat := 0x3080018 + i * 0x40
/-- HG_LAYER4_IF (R137). -/
def HG_LAYER4_IF (i : Nat) : Nat := 0x3080020 + i * 0x40
/-- HG_LAYER5_IF (R137). -/
def HG_LAYER5_IF (i : Nat) : Nat := 0x3080028 + i * 0x40
/-- HG_LAYER6_IF (R137). -/
def HG_LAYER6_IF (i : Nat) : Nat := 0x3080030 + i * 0x40
/-- HG_LAYER7_IF (R137). -/
def HG_LAYER7_IF (i : Nat) : Nat := 0x3080038 + i * 0x40
/-- HG_PLACE_BASE_IF (R176). -/
def HG_PLACE_BASE_IF (i : Nat) : Nat := 0x3028000 + i * 0x4
/-- FWD_POS_IF (R314). -/
def FWD_POS_IF (i : Nat) : Nat := 0x7011000 + i * 0x8
/-- FWD_RACK_IF (R314). -/
def FWD_RACK_IF (i : Nat) : Nat := 0x7021000 + i * 0x8
/-- WM_PLAN_IF (R465). -/
def WM_PLAN_IF (i : Nat) : Nat := 0xb048000 + i * 0x8

end Reg

namespace Fld

def TOP_DEVICE_ID_ENABLED_CLUSTERS : BitField := ⟨0, 8⟩
def TOP_DEVICE_ID_STEPPING_LETTER : BitField := ⟨8, 4⟩
def TOP_DEVICE_ID_STEPPING_DIGIT : BitField := ⟨12, 4⟩
def TOP_DEVICE_ID_PART_CODE : BitField := ⟨16, 16⟩
def TOP_CLUSTER_MAP_PRESENT : BitField := ⟨0, 32⟩
def TOP_SETUP_LOCK_LOCK : BitField := ⟨0, 1⟩
def TOP_DIE_STATUS_COMPUTE_UP : BitField := ⟨0, 8⟩
def TOP_DIE_STATUS_RESERVOIR_UP : BitField := ⟨8, 4⟩
def TOP_DIE_STATUS_HEADGATE_UP : BitField := ⟨12, 2⟩
def TOP_DIE_STATUS_PORT_UP : BitField := ⟨14, 4⟩
def TOP_DIE_STATUS_CONTROL_UP : BitField := ⟨18, 1⟩
def TOP_DIE_STATUS_LINK_UP : BitField := ⟨19, 1⟩
def TOP_DIE_STATUS_STACK_UP : BitField := ⟨20, 8⟩
def TOP_DIE_STATUS_LINK_LASTING : BitField := ⟨28, 4⟩
def HG_EXCH_CTRL_TWO_MICRO : BitField := ⟨0, 1⟩
def HG_EXCH_CTRL_T_EXCH : BitField := ⟨8, 20⟩
def FT_CTRL_SRC : BitField := ⟨0, 2⟩
def FT_CTRL_PPS_CHECK : BitField := ⟨2, 1⟩
def FT_CTRL_LOCK_NS : BitField := ⟨8, 8⟩
def FT_CTRL_SLEW_MAX : BitField := ⟨16, 16⟩
def FT_CTRL_HOLD_DRIFT : BitField := ⟨32, 16⟩
def FT_CTRL_HOLD_LIMIT : BitField := ⟨48, 16⟩
def FT_STATUS_STATE : BitField := ⟨0, 3⟩
def FT_STATUS_VALID : BitField := ⟨3, 1⟩
def FT_STATUS_OUTLIER_RUN : BitField := ⟨8, 8⟩
def FT_NOW_NOW : BitField := ⟨0, 64⟩
def FT_EPOCH_TAI_EPOCH : BitField := ⟨0, 64⟩
def FT_TURN_ORIGIN_ORIGIN : BitField := ⟨0, 64⟩
def FT_TURN_CHANGE_CHANGE_TURN : BitField := ⟨0, 64⟩
def FT_TURN_NOW_TURN : BitField := ⟨0, 64⟩
def FT_OFFSET_OFFSET : BitField := ⟨0, 32⟩
def FT_OFFSET_SAMPLES : BitField := ⟨32, 32⟩
def FT_PPS_CFG_PPS_PHASE : BitField := ⟨0, 30⟩
def FT_PPS_CFG_PPS_WINDOW : BitField := ⟨32, 16⟩
def FT_TURN_LEN_LEN : BitField := ⟨0, 20⟩
def FT_TURN_LEN_NEXT_LEN : BitField := ⟨20, 20⟩
def FT_WINDOW_WIN_LOG2 : BitField := ⟨0, 5⟩
def FT_SCRUB_SLOT_SCRUB_OFFSET : BitField := ⟨0, 20⟩
def FT_SCRUB_SLOT_SCRUB_LEN : BitField := ⟨20, 20⟩
def FT_COUNT_PPS_REJECTED : BitField := ⟨0, 16⟩
def FT_COUNT_SAMPLES_REJECTED : BitField := ⟨16, 16⟩
def FT_COUNT_HOLDOVER_ENTRIES : BitField := ⟨32, 16⟩
def FT_COUNT_LOST_ENTRIES : BitField := ⟨48, 16⟩
def RSV_BANK_STAT_WAIT_CYCLES : BitField := ⟨0, 32⟩
def RSV_BANK_STAT_RMW_WRITES : BitField := ⟨32, 32⟩
def RSV_REGION_TYPE : BitField := ⟨0, 3⟩
def RSV_REGION_PINNED : BitField := ⟨3, 1⟩
def RSV_REGION_PIN_DIE : BitField := ⟨4, 2⟩
def RSV_REGION_VARVE : BitField := ⟨6, 1⟩
def RSV_REGION_SEAL_COUNT : BitField := ⟨8, 8⟩
def RSV_REGION_BASE : BitField := ⟨16, 16⟩
def RSV_REGION_SIZE_M1 : BitField := ⟨32, 18⟩
def RSV_SEALED_SEALED : BitField := ⟨0, 64⟩
def SLC_CHAN0_ENABLE : BitField := ⟨0, 1⟩
def SLC_CHAN0_REGION : BitField := ⟨8, 8⟩
def SLC_CHAN0_DEPTH_LOG2 : BitField := ⟨16, 5⟩
def SLC_CHAN0_BASE : BitField := ⟨24, 18⟩
def SLC_CHAN1_HEAD : BitField := ⟨0, 17⟩
def SLC_CHAN1_TAIL : BitField := ⟨17, 17⟩
def SLC_CHAN1_IN_PACKET : BitField := ⟨34, 1⟩
def SLC_CHAN1_DROPPING : BitField := ⟨35, 1⟩
def SLC_CHAN1_RESET_PROD : BitField := ⟨36, 1⟩
def SLC_CHAN1_RESET_CONS : BitField := ⟨37, 1⟩
def SLC_CHAN1_RESETS : BitField := ⟨48, 8⟩
def SLC_CHAN2_EMPTY_READS : BitField := ⟨0, 32⟩
def SLC_CHAN2_FULL_REFUSALS : BitField := ⟨32, 32⟩
def SLC_CHAN3_RESET_CHANNEL : BitField := ⟨0, 1⟩
def RSV_VARVE_CTRL_RING_ENABLE : BitField := ⟨0, 1⟩
def RSV_VARVE_LOST_LOST : BitField := ⟨0, 32⟩
def RSV_VARVE_LOST_PENDING : BitField := ⟨32, 9⟩
def HG_LAYER0_VALID : BitField := ⟨0, 1⟩
def HG_LAYER0_MODE : BitField := ⟨1, 2⟩
def HG_LAYER0_NORM : BitField := ⟨3, 1⟩
def HG_LAYER0_IN_FMT : BitField := ⟨4, 2⟩
def HG_LAYER0_KEY_SEL : BitField := ⟨6, 1⟩
def HG_LAYER0_COMPETE : BitField := ⟨7, 1⟩
def HG_LAYER0_OVERFLOW : BitField := ⟨8, 2⟩
def HG_LAYER0_K : BitField := ⟨10, 5⟩
def HG_LAYER0_SHARED : BitField := ⟨15, 2⟩
def HG_LAYER0_NEXT_MAX : BitField := ⟨17, 3⟩
def HG_LAYER0_RENORM : BitField := ⟨20, 1⟩
def HG_LAYER0_CAP_TABLE : BitField := ⟨21, 1⟩
def HG_LAYER0_GROUPS_LOG2 : BitField := ⟨22, 3⟩
def HG_LAYER0_GROUP_SEL : BitField := ⟨25, 7⟩
def HG_LAYER0_GROUP_RULE : BitField := ⟨32, 1⟩
def HG_LAYER0_E_M1 : BitField := ⟨40, 16⟩
def HG_LAYER1_CF : BitField := ⟨0, 16⟩
def HG_LAYER1_SPILL_C : BitField := ⟨16, 16⟩
def HG_LAYER1_H_BLKS : BitField := ⟨32, 8⟩
def HG_LAYER1_PRED_R : BitField := ⟨40, 8⟩
def HG_LAYER2_GATE_W_ADDR : BitField := ⟨0, 64⟩
def HG_LAYER3_VEC_ADDR : BitField := ⟨0, 64⟩
def HG_LAYER4_LOAD_ADDR : BitField := ⟨0, 64⟩
def HG_LAYER5_SALT : BitField := ⟨0, 64⟩
def HG_LAYER6_WEIGHT_SCALE : BitField := ⟨0, 32⟩
def HG_LAYER6_SHARED_SCALE : BitField := ⟨32, 32⟩
def HG_SEL_CTRL_STAT_CHANNEL : BitField := ⟨0, 12⟩
def HG_SEL_CTRL_STAT_ENABLE : BitField := ⟨12, 1⟩
def HG_CNT_TOKENS_TOKENS : BitField := ⟨0, 64⟩
def HG_CNT_CLAIMS_CLAIMS : BitField := ⟨0, 64⟩
def HG_CNT_REFUSED_REFUSED : BitField := ⟨0, 64⟩
def HG_CNT_DROPPED_DROPPED : BitField := ⟨0, 64⟩
def HG_CNT_SPILLED_SPILLED : BitField := ⟨0, 64⟩
def HG_CNT_NEXT_NEXT_TAKEN : BitField := ⟨0, 64⟩
def HG_CNT_TIES_TIES_TH64 : BitField := ⟨0, 32⟩
def HG_CNT_TIES_TIES_EXPERT : BitField := ⟨32, 32⟩
def HG_CNT_MISC_NAN_TOKENS : BitField := ⟨0, 32⟩
def HG_CNT_MISC_SUMMARY_LOST : BitField := ⟨32, 16⟩
def HG_PLACE_BASE_BASE : BitField := ⟨0, 18⟩
def HG_PLACE_SRC_SRC : BitField := ⟨0, 64⟩
def HG_PLACE_CTRL_FIRST : BitField := ⟨0, 18⟩
def HG_PLACE_CTRL_COUNT_M1 : BitField := ⟨18, 18⟩
def HG_PLACE_CTRL_GO : BitField := ⟨36, 1⟩
def HG_PLACE_CTRL_BUSY : BitField := ⟨37, 1⟩
def HG_PLACE_FLIP_FLIP_TURN : BitField := ⟨0, 63⟩
def HG_PLACE_FLIP_ARMED : BitField := ⟨63, 1⟩
def HG_GATEWAY_NODE : BitField := ⟨0, 16⟩
def HG_GATEWAY_VALID : BitField := ⟨16, 1⟩
def HG_SLOT0_VALID : BitField := ⟨0, 1⟩
def HG_SLOT0_SPILL : BitField := ⟨1, 1⟩
def HG_SLOT0_LAYER : BitField := ⟨2, 12⟩
def HG_SLOT0_CHANNEL : BitField := ⟨14, 12⟩
def HG_SLOT0_ENTRY : BitField := ⟨26, 18⟩
def HG_SLOT0_REPLICA : BitField := ⟨44, 3⟩
def HG_SLOT1_WEIGHT_ADDR : BitField := ⟨0, 64⟩
def HG_XCH_REGIONS_LAND0 : BitField := ⟨0, 8⟩
def HG_XCH_REGIONS_LAND1 : BitField := ⟨8, 8⟩
def HG_XCH_REGIONS_GATE0 : BitField := ⟨16, 8⟩
def HG_XCH_REGIONS_GATE1 : BitField := ⟨24, 8⟩
def HG_XCH_REGIONS_OUT0 : BitField := ⟨32, 8⟩
def HG_XCH_REGIONS_OUT1 : BitField := ⟨40, 8⟩
def HG_XCH_REGIONS_LOAD_REGION : BitField := ⟨48, 8⟩
def HG_XCH_CFG_RET_FMT : BitField := ⟨0, 2⟩
def HG_XCH_CFG_ACC_FMT : BitField := ⟨2, 1⟩
def HG_XCH_CFG_OUT_FMT : BitField := ⟨3, 1⟩
def HG_XCH_CFG_BASE : BitField := ⟨4, 1⟩
def HG_XCH_OUT_OUT_OFFSET : BitField := ⟨0, 32⟩
def HG_XCH_OUT_OUT_STRIDE : BitField := ⟨32, 32⟩
def HG_XCH_WORK_WORK_GRAN : BitField := ⟨0, 18⟩
def HG_XCH_WORK_WORK_GRANS : BitField := ⟨18, 18⟩
def HG_XCH_WORK_DONE_CHANNEL : BitField := ⟨36, 12⟩
def WM_CALVE_CTRL_ENABLE : BitField := ⟨0, 1⟩
def WM_CALVE_CTRL_HOT_FILL : BitField := ⟨8, 8⟩
def WM_CALVE_CTRL_HOT_STEPS : BitField := ⟨16, 8⟩
def WM_CALVE_CTRL_HOT_TURNS : BitField := ⟨24, 8⟩
def WM_CALVE_CTRL_COOL_TURNS : BitField := ⟨32, 8⟩
def WM_CALVE_CTRL_MAX_REPL_M1 : BitField := ⟨40, 3⟩
def WM_CALVE_CTRL_PER_TURN : BitField := ⟨48, 8⟩
def HG_CNT_SENT_SENT : BitField := ⟨0, 64⟩
def HG_CNT_LOCAL_LOCAL : BitField := ⟨0, 64⟩
def HG_CNT_RELAYED_RELAYED : BitField := ⟨0, 64⟩
def HG_CNT_LANDED_LANDED : BitField := ⟨0, 64⟩
def HG_CNT_RETURNED_RETURNED : BitField := ⟨0, 64⟩
def HG_CNT_COMBINE_COMBINED : BitField := ⟨0, 32⟩
def HG_CNT_COMBINE_POISON_ROWS : BitField := ⟨32, 32⟩
def HG_CNT_FAULTS_ZONE_OVERFLOWS : BitField := ⟨0, 16⟩
def HG_CNT_FAULTS_SLOT_UNKNOWNS : BitField := ⟨16, 16⟩
def HG_CNT_FAULTS_DEADLINES : BitField := ⟨32, 16⟩
def HG_CNT_FAULTS_LATE_DISCARDS : BitField := ⟨48, 16⟩
def CL_CTRL_CANON : BitField := ⟨0, 1⟩
def CL_CTRL_IRQ_EN : BitField := ⟨1, 1⟩
def CL_CTRL_CMD_MAX_KC : BitField := ⟨8, 24⟩
def CL_CORE_RUN_RUN : BitField := ⟨0, 4⟩
def CL_CMD_STATUS_QUEUED : BitField := ⟨0, 7⟩
def CL_CMD_STATUS_FORM : BitField := ⟨8, 2⟩
def CL_CMD_STATUS_DONE : BitField := ⟨16, 32⟩
def CL_CMD_STATUS_LAST_TAG : BitField := ⟨48, 16⟩
def CL_VEC_STATUS_QUEUED : BitField := ⟨0, 6⟩
def CL_VEC_STATUS_DONE : BitField := ⟨16, 32⟩
def CL_VEC_STATUS_LAST_TAG : BitField := ⟨48, 16⟩
def CL_DMA_STATUS_DONE0 : BitField := ⟨0, 32⟩
def CL_DMA_STATUS_DONE1 : BitField := ⟨32, 32⟩
def CL_DMA_CRC_CRC0 : BitField := ⟨0, 32⟩
def CL_DMA_CRC_CRC1 : BitField := ⟨32, 32⟩
def CL_BUF_CMD_BUF : BitField := ⟨0, 8⟩
def CL_BUF_CMD_ACTION : BitField := ⟨8, 2⟩
def CL_STAT_BUSY_BUSY : BitField := ⟨0, 64⟩
def CL_STAT_MISC_INT_SAT : BitField := ⟨0, 32⟩
def CL_STAT_MISC_SAMPLE_INVALID : BitField := ⟨32, 16⟩
def CL_BUF_BASE : BitField := ⟨0, 16⟩
def CL_BUF_LEN_M1 : BitField := ⟨16, 16⟩
def CL_BUF_DEF : BitField := ⟨32, 1⟩
def CL_BUF_STATE : BitField := ⟨33, 2⟩
def CL_BUF_POISON : BitField := ⟨35, 1⟩
def CL_BUF_READERS : BitField := ⟨36, 8⟩
def FLM_CTRL_PRED_MODE : BitField := ⟨0, 2⟩
def FLM_CTRL_AUDIT_N : BitField := ⟨8, 16⟩
def FLM_STATUS_QUEUED : BitField := ⟨0, 5⟩
def FLM_STATUS_DONE : BitField := ⟨16, 32⟩
def FLM_STATUS_LAST_TAG : BitField := ⟨48, 16⟩
def FLM_PRED_MASK_ROWS_ON : BitField := ⟨0, 32⟩
def FLM_PRED_MASK_ROWS_OFF : BitField := ⟨32, 32⟩
def FLM_PRED_CHECK_CHECKED_ROWS : BitField := ⟨0, 32⟩
def FLM_PRED_CHECK_MISSED_ROWS : BitField := ⟨32, 32⟩
def FLM_PRED_PAIRS_MISSED_PAIRS : BitField := ⟨0, 32⟩
def FLM_PRED_PAIRS_REPAIRED_ROWS : BitField := ⟨32, 32⟩
def FLM_PRED_RATE_RATE : BitField := ⟨0, 16⟩
def FLM_PRED_RATE_AUDITS : BitField := ⟨16, 16⟩
def FLM_PRED_RATE_AUDIT_STEP : BitField := ⟨32, 32⟩
def FLM_CNT_FAULTS_METADATA : BitField := ⟨0, 16⟩
def FLM_CNT_FAULTS_INDEX_RANGE : BitField := ⟨16, 16⟩
def FLM_CNT_BUSY_BUSY : BitField := ⟨0, 64⟩
def FWD_POS_PREF_MASK : BitField := ⟨0, 16⟩
def FWD_POS_ALT_MASK : BitField := ⟨16, 16⟩
def FWD_POS_VALID : BitField := ⟨32, 1⟩
def FWD_POS_LOCAL : BitField := ⟨33, 1⟩
def FWD_RACK_MODE : BitField := ⟨0, 2⟩
def FWD_RACK_GW_POS : BitField := ⟨8, 8⟩
def FWD_RACK_PREF_MASK : BitField := ⟨16, 16⟩
def FWD_RACK_ALT_MASK : BitField := ⟨32, 16⟩
def FP_CFG_ENABLE : BitField := ⟨0, 1⟩
def FP_CFG_MODE : BitField := ⟨1, 2⟩
def FP_CFG_MEDIA : BitField := ⟨3, 2⟩
def FP_CFG_ROLE : BitField := ⟨5, 3⟩
def FP_CFG_DIR : BitField := ⟨8, 3⟩
def FP_CFG_TIME_ROLE : BitField := ⟨11, 2⟩
def FP_CFG_TWO_STEP : BitField := ⟨13, 1⟩
def FP_CFG_AN : BitField := ⟨14, 1⟩
def FP_CFG_DEGRADE : BitField := ⟨15, 1⟩
def FP_STATUS_STATE : BitField := ⟨0, 4⟩
def FP_STATUS_WIDTH : BitField := ⟨4, 2⟩
def FP_STATUS_LANE_MAP : BitField := ⟨6, 8⟩
def FP_STATUS_POLARITY : BitField := ⟨14, 4⟩
def FP_STATUS_OPEN : BitField := ⟨18, 4⟩
def FP_STATUS_SHORTED : BitField := ⟨22, 4⟩
def FP_STATUS_ID_STATE : BitField := ⟨26, 3⟩
def FP_STATUS_LANES : BitField := ⟨29, 4⟩
def FP_STATUS_HALF_SWAP : BitField := ⟨33, 1⟩
def FP_EXPECT_NODE : BitField := ⟨0, 16⟩
def FP_EXPECT_PORT : BitField := ⟨16, 4⟩
def FP_EXPECT_VALID : BitField := ⟨20, 1⟩
def FP_HEARD_HEARD : BitField := ⟨0, 48⟩
def FP_HEARD_PTAG : BitField := ⟨48, 16⟩
def FP_PTP_ASYM : BitField := ⟨0, 16⟩
def FP_PTP_PDELAY : BitField := ⟨16, 32⟩
def FP_CNT_FEC_FEC_CORR : BitField := ⟨0, 64⟩
def FP_CNT_UNCORR_FEC_UNCORR : BitField := ⟨0, 64⟩
def FP_CNT_FRAME_FCS_BAD : BitField := ⟨0, 16⟩
def FP_CNT_FRAME_STOMPED : BitField := ⟨16, 16⟩
def FP_CNT_FRAME_DMAC_BAD : BitField := ⟨32, 16⟩
def FP_CNT_FRAME_PAUSE_RX : BitField := ⟨48, 16⟩
def FWD_IDENT_NODE : BitField := ⟨0, 16⟩
def FWD_IDENT_PTAG : BitField := ⟨16, 16⟩
def FWD_CTRL_HOP_MAX : BitField := ⟨0, 8⟩
def FWD_CTRL_ETYPE : BitField := ⟨8, 16⟩
def FWD_CTRL_PTP_DOMAIN : BitField := ⟨24, 8⟩
def FWD_CTRL_T_RETRAIN : BitField := ⟨32, 16⟩
def FWD_CTRL_LLDP_MS : BitField := ⟨48, 16⟩
def FWD_FLIP_FLIP_TURN : BitField := ⟨0, 63⟩
def FWD_FLIP_ARMED : BitField := ⟨63, 1⟩
def FWD_DRIFT_FM_NODE : BitField := ⟨0, 16⟩
def FWD_DRIFT_ENABLE : BitField := ⟨16, 1⟩
def FWD_DRIFT_SLOTS_LOG2 : BitField := ⟨17, 4⟩
def FWD_DRIFT_DRIFT_LOST : BitField := ⟨32, 32⟩
def FWD_DRIFT_BASE_BASE : BitField := ⟨0, 40⟩
def FWD_SW_UDP_PORT : BitField := ⟨0, 16⟩
def FWD_SW_HOP_LIMIT : BitField := ⟨16, 8⟩
def FWD_SW_DSCP_DSCP : BitField := ⟨0, 24⟩
def FWD_SW_PREFIX_PREFIX : BitField := ⟨0, 64⟩
def FWD_OUI_OUI : BitField := ⟨0, 24⟩
def FWD_NEXTHOP_MAC : BitField := ⟨0, 48⟩
def FWD_CNT_DEFL_DEFLECTIONS : BitField := ⟨0, 64⟩
def FWD_CNT_EJ_EJ_REFUSE : BitField := ⟨0, 32⟩
def FWD_CNT_EJ_INJ_WAIT : BitField := ⟨32, 32⟩
def FWD_CNT_DROP_DROP_PTAG : BitField := ⟨0, 16⟩
def FWD_CNT_DROP_DROP_ROUTE : BitField := ⟨16, 16⟩
def FWD_CNT_DROP_DROP_SIDE : BitField := ⟨32, 16⟩
def FWD_CNT_DROP_DROP_HELD : BitField := ⟨48, 16⟩
def FWD_CNT_SW_SW_DISCARD : BitField := ⟨0, 32⟩
def FWD_CNT_SW_SIDE_HELD : BitField := ⟨32, 32⟩
def FWD_PREFIX0_PREFIX : BitField := ⟨0, 64⟩
def FWD_PREFIX1_GW_NODE : BitField := ⟨0, 16⟩
def FWD_PREFIX1_VALID : BitField := ⟨16, 1⟩
def CL_ATOM_ADDR_ADDR : BitField := ⟨0, 64⟩
def CL_ATOM_OPND_OPERAND : BitField := ⟨0, 64⟩
def CL_ATOM_SWAP_SWAP : BitField := ⟨0, 64⟩
def CL_ATOM_CTRL_AOP : BitField := ⟨0, 4⟩
def CL_ATOM_CTRL_AW : BitField := ⟨4, 1⟩
def CL_ATOM_CTRL_SIGNED : BitField := ⟨5, 1⟩
def CL_ATOM_RESULT_RESULT : BitField := ⟨0, 64⟩
def CL_ATOM_STATUS_STATUS : BitField := ⟨0, 8⟩
def FP_CNT_REPLAY_REPLAYED : BitField := ⟨0, 32⟩
def FP_CNT_REPLAY_DUP : BitField := ⟨32, 32⟩
def JT_CTRL_T_DEAD : BitField := ⟨0, 8⟩
def JT_CTRL_RET_GUARD : BitField := ⟨8, 8⟩
def JT_CTRL_ACK_DELAY : BitField := ⟨16, 12⟩
def JT_RACKWIN_G : BitField := ⟨0, 5⟩
def JT_RACKWIN_M_M1 : BitField := ⟨8, 7⟩
def JT_EXPORT_BASE : BitField := ⟨0, 39⟩
def JT_EXPORT_SIZE_SIZE : BitField := ⟨0, 39⟩
def JT_MGMT_WIN_NODE_LO : BitField := ⟨0, 16⟩
def JT_MGMT_WIN_NODE_HI : BitField := ⟨16, 16⟩
def JT_MGMT_WIN_RIGHTS : BitField := ⟨32, 3⟩
def JT_SW_RTO : BitField := ⟨0, 16⟩
def JT_SW_RETRIES : BitField := ⟨16, 4⟩
def JT_CNT_ISSUED_ISSUED : BitField := ⟨0, 64⟩
def JT_CNT_LOST_LOST : BitField := ⟨0, 32⟩
def JT_CNT_LOST_LATE_RSP : BitField := ⟨32, 32⟩
def JT_CNT_TARGET_EXPIRED : BitField := ⟨0, 32⟩
def JT_CNT_TARGET_REFUSED : BitField := ⟨32, 32⟩
def JT_CNT_MISC_WINDOW : BitField := ⟨0, 32⟩
def JT_CNT_MISC_MALFORMED : BitField := ⟨32, 32⟩
def JT_CNT_SW_SW_RETX : BitField := ⟨0, 32⟩
def JT_CNT_SW_SW_DUP : BitField := ⟨32, 32⟩
def JT_MEMBER_NODE : BitField := ⟨0, 16⟩
def COL_CTRL_CHUNK_LOG2 : BitField := ⟨0, 5⟩
def COL_CTRL_RESEND_MAX : BitField := ⟨5, 3⟩
def COL_CTRL_T_COL : BitField := ⟨8, 24⟩
def COL_CTRL_DONE_CHANNEL : BitField := ⟨32, 12⟩
def COL_CTRL_DONE_EN : BitField := ⟨44, 1⟩
def COL_STATUS_BUSY : BitField := ⟨0, 1⟩
def COL_STATUS_STATUS : BitField := ⟨8, 8⟩
def COL_STATUS_LAGGARD : BitField := ⟨16, 8⟩
def COL_STATUS_SEQ : BitField := ⟨32, 32⟩
def COL_SKEW_MAX_SKEW : BitField := ⟨0, 32⟩
def COL_SKEW_RESENDS : BitField := ⟨32, 32⟩
def COL_EPOCH_EPOCH : BitField := ⟨0, 64⟩
def COL_CNT_LAUNCHED : BitField := ⟨0, 32⟩
def COL_CNT_FAILED : BitField := ⟨32, 16⟩
def COL_CNT_DONE_LOST : BitField := ⟨48, 16⟩
def COL_CNT_CHUNK_SENT : BitField := ⟨0, 32⟩
def COL_CNT_CHUNK_RESENT : BitField := ⟨32, 32⟩
def COL_GROUP_NODE : BitField := ⟨0, 16⟩
def COL_GROUP_VALID : BitField := ⟨16, 1⟩
def COL_FINISH_STATUS : BitField := ⟨0, 8⟩
def COL_FINISH_LAGGARD : BitField := ⟨8, 8⟩
def COL_FINISH_MAX_SKEW : BitField := ⟨16, 32⟩
def COL_FINISH_RES_RESENDS : BitField := ⟨0, 32⟩
def COL_CL_STAT_CHUNKS : BitField := ⟨0, 32⟩
def COL_CL_STAT_HANDLER_US : BitField := ⟨32, 32⟩
def TL_RING0_ENABLE : BitField := ⟨0, 1⟩
def TL_RING0_KIND : BitField := ⟨1, 3⟩
def TL_RING0_SIZE_LOG2 : BitField := ⟨4, 5⟩
def TL_RING0_JOB : BitField := ⟨16, 8⟩
def TL_RING0_POLICY : BitField := ⟨24, 1⟩
def TL_RING0_CQ : BitField := ⟨32, 14⟩
def TL_RING0_CALL_CHANNEL : BitField := ⟨46, 12⟩
def TL_RING1_BASE : BitField := ⟨0, 64⟩
def TL_RING2_WB_ADDR : BitField := ⟨0, 64⟩
def TL_RING3_HEAD : BitField := ⟨0, 32⟩
def TL_RING3_TAIL : BitField := ⟨32, 32⟩
def TL_CTRL_WIN_GIB : BitField := ⟨0, 13⟩
def TL_STATUS_UP : BitField := ⟨0, 1⟩
def TL_STATUS_LANES : BitField := ⟨1, 5⟩
def TL_STATUS_LASTING : BitField := ⟨6, 1⟩
def TL_CNT_LINK_REPLAYS : BitField := ⟨0, 32⟩
def TL_CNT_LINK_MALFORMED : BitField := ⟨32, 32⟩
def TL_EVENT_EVENT_RING : BitField := ⟨0, 14⟩
def TL_EVENT_VARVE_RING : BitField := ⟨16, 14⟩
def TL_SESS_BASE : BitField := ⟨0, 39⟩
def TL_ADM_SLOTS : BitField := ⟨0, 14⟩
def TL_ADM_PREFILL_CHUNK : BitField := ⟨16, 16⟩
def TL_ADM_EST_S : BitField := ⟨0, 32⟩
def TL_ADM_EST_P : BitField := ⟨32, 32⟩
def TL_CNT_REQ_CONSUMED : BitField := ⟨0, 32⟩
def TL_CNT_REQ_COMMITTED : BitField := ⟨32, 32⟩
def TL_CNT_OUT_LATE_ADM : BitField := ⟨0, 16⟩
def TL_CNT_OUT_MISSED : BitField := ⟨16, 16⟩
def TL_CNT_OUT_ABORTED : BitField := ⟨32, 16⟩
def TL_CNT_OUT_KV_EXH : BitField := ⟨48, 16⟩
def TL_CNT_FLOW_PAUSED_STEPS : BitField := ⟨0, 32⟩
def TL_CNT_FLOW_WINDOW_STOPS : BitField := ⟨32, 32⟩
def TL_CNT_POLL_POLL_EMPTY : BitField := ⟨0, 32⟩
def TL_CNT_POLL_POLL_BEHIND : BitField := ⟨32, 32⟩
def TL_JOB_STEP_CHANNEL : BitField := ⟨0, 12⟩
def TL_JOB_RET_CHANNEL : BitField := ⟨12, 12⟩
def TL_JOB_PAGE_GRANS : BitField := ⟨24, 15⟩
def TL_KV_POOL0_BASE : BitField := ⟨0, 64⟩
def TL_KV_POOL1_COUNT : BitField := ⟨0, 32⟩
def TL_KV_POOL1_CAPACITY : BitField := ⟨32, 32⟩
def WM_SWITCH_QUIESCE_US : BitField := ⟨0, 8⟩
def WM_SWITCH_DRAIN_US : BitField := ⟨8, 8⟩
def WM_SWITCH_RESUME_US : BitField := ⟨16, 10⟩
def WM_SCHED_RUNNING : BitField := ⟨0, 8⟩
def WM_SCHED_RUN_VALID : BitField := ⟨8, 1⟩
def WM_SCHED_SWITCHING : BitField := ⟨9, 1⟩
def WM_SCHED_LAST_SWITCH_NS : BitField := ⟨32, 32⟩
def WM_PLAN_CTRL_LEN_M1 : BitField := ⟨0, 12⟩
def WM_PLAN_ORIGIN_ORIGIN : BitField := ⟨0, 63⟩
def WM_PLAN_FLIP_FLIP_TURN : BitField := ⟨0, 63⟩
def WM_PLAN_FLIP_ARMED : BitField := ⟨63, 1⟩
def WM_IDLE_IDLE_US : BitField := ⟨0, 32⟩
def WM_IDLE_SWAPS : BitField := ⟨32, 32⟩
def WM_CNT_SWITCHES : BitField := ⟨0, 32⟩
def WM_CNT_LATE : BitField := ⟨32, 16⟩
def WM_CNT_EVICTIONS : BitField := ⟨48, 16⟩
def WM_SAVE_BASE : BitField := ⟨0, 39⟩
def WM_SAVE_JOB : BitField := ⟨39, 8⟩
def WM_SAVE_VALID : BitField := ⟨47, 1⟩
def WM_JOB0_VALID : BitField := ⟨0, 1⟩
def WM_JOB0_GANG : BitField := ⟨1, 1⟩
def WM_JOB0_ALWAYS : BitField := ⟨2, 1⟩
def WM_JOB0_STATE : BitField := ⟨3, 3⟩
def WM_JOB0_SAVE_SLOT : BitField := ⟨6, 4⟩
def WM_JOB0_RUNNABLE : BitField := ⟨10, 1⟩
def WM_JOB0_SHARE : BitField := ⟨16, 16⟩
def WM_JOB1_SWAP_ADDR : BitField := ⟨0, 64⟩
def WM_ACCT0_CLUSTER_CYCLES : BitField := ⟨0, 64⟩
def WM_ACCT1_HG_CYCLES : BitField := ⟨0, 64⟩
def WM_ACCT2_FABRIC_BYTES : BitField := ⟨0, 64⟩
def WM_ACCT3_HBM_BYTES : BitField := ⟨0, 64⟩
def WM_ACCT4_DEFICIT : BitField := ⟨0, 32⟩
def WM_ACCT4_TURNS_RUN : BitField := ⟨32, 32⟩
def WM_PLAN_JOB : BitField := ⟨0, 8⟩
def WM_PLAN_GANG : BitField := ⟨8, 1⟩
def WM_REPRO_CANON : BitField := ⟨0, 1⟩
def WM_REPRO_FREEZE : BitField := ⟨1, 1⟩
def WM_REPRO_MIXED : BitField := ⟨2, 1⟩
def WM_REPRO_REFOLDED : BitField := ⟨3, 1⟩
def WM_REPRO_CLUSTERS_AT_START : BitField := ⟨8, 8⟩
def ECC_CTRL_ACT_EN : BitField := ⟨0, 10⟩
def ECC_SCRUB_ENABLE : BitField := ⟨0, 1⟩
def ECC_SCRUB_LINE_INTERVAL : BitField := ⟨8, 8⟩
def ECC_SCRUB_HBM_GBPS : BitField := ⟨16, 8⟩
def ECC_SCRUB_PASS_RSV_PASSES : BitField := ⟨0, 16⟩
def ECC_SCRUB_PASS_SP_PASSES : BitField := ⟨16, 16⟩
def ECC_SCRUB_PASS_HBM_PASSES : BitField := ⟨32, 16⟩
def ECC_SCRUB_PASS_OTHER_PASSES : BitField := ⟨48, 16⟩
def ECC_LOG_BASE_BASE : BitField := ⟨0, 64⟩
def ECC_LOG_CTRL_ENABLE : BitField := ⟨0, 1⟩
def ECC_LOG_CTRL_SIZE_LOG2 : BitField := ⟨8, 5⟩
def ECC_LOG_CTRL_LOG_MAX : BitField := ⟨16, 8⟩
def ECC_LOG_WB_WB_ADDR : BitField := ⟨0, 64⟩
def ECC_LOG_PTR_HEAD : BitField := ⟨0, 32⟩
def ECC_LOG_PTR_TAIL : BitField := ⟨32, 32⟩
def ECC_VOTE_CORRECTED : BitField := ⟨0, 32⟩
def ECC_VOTE_LAST_INDEX : BitField := ⟨32, 8⟩
def ECC_HB_CTRL_PERIOD_US : BitField := ⟨0, 16⟩
def ECC_HB_CTRL_ENABLE : BitField := ⟨16, 1⟩
def ECC_HB_ADDR_ADDR : BitField := ⟨0, 64⟩
def ECC_HB_COUNT_COUNT : BitField := ⟨0, 64⟩
def ECC_WM_RECOVER_GO : BitField := ⟨0, 1⟩
def ECC_RETIRE_CL_RETIRE : BitField := ⟨0, 32⟩
def ECC_UNIT_SEL_UNIT : BitField := ⟨0, 16⟩
def ECC_UNIT_SEL_LANE : BitField := ⟨16, 2⟩
def ECC_UNIT_STATE_LEVEL : BitField := ⟨0, 24⟩
def ECC_UNIT_STATE_LASTING : BitField := ⟨24, 1⟩
def ECC_UNIT_STATE_EVENTS : BitField := ⟨32, 32⟩
def ECC_CNT_SRAM_CORRECTED : BitField := ⟨0, 32⟩
def ECC_CNT_SRAM_UNCORR : BitField := ⟨32, 32⟩
def ECC_CNT_HBM_SECTOR_CORR : BitField := ⟨0, 32⟩
def ECC_CNT_HBM_UNCORR : BitField := ⟨32, 32⟩
def ECC_CNT_ODE_ON_DIE : BitField := ⟨0, 64⟩
def ECC_CNT_MISC_LASTING_UNITS : BitField := ⟨0, 16⟩
def ECC_CNT_MISC_LOG_DROPPED : BitField := ⟨16, 16⟩
def ECC_CNT_MISC_LOG_LOST : BitField := ⟨32, 16⟩
def ECC_CNT_MISC_REPAIR_SKIPPED : BitField := ⟨48, 16⟩
def ECC_CLASS_N : BitField := ⟨0, 8⟩
def ECC_CLASS_W : BitField := ⟨8, 16⟩
def ECC_CLASS_UE : BitField := ⟨24, 8⟩
def ECC_RSV_RETIRE_RETIRED : BitField := ⟨0, 64⟩
def SEC_LIFECYCLE_STATE : BitField := ⟨0, 2⟩
def SEC_BOOT_STATUS_CODE : BitField := ⟨0, 8⟩
def SEC_BOOT_STATUS_PHASE : BitField := ⟨8, 3⟩
def SEC_SVN_MIN : BitField := ⟨0, 32⟩
def SEC_SVN_IMAGE : BitField := ⟨32, 32⟩
def SEC_SVN_BURN_NEW_MIN : BitField := ⟨0, 32⟩
def SEC_MGMT_CTRL_ENABLE : BitField := ⟨0, 1⟩
def SEC_MGMT_CTRL_OPEN : BitField := ⟨1, 1⟩
def SEC_MGMT_BOX_BASE : BitField := ⟨0, 39⟩
def SEC_FP_CTRL_VALID : BitField := ⟨0, 1⟩
def SEC_FP_CTRL_MATCHED : BitField := ⟨1, 1⟩
def SEC_ATTEST_CTRL_BUSY : BitField := ⟨0, 1⟩
def SEC_ATTEST_CTRL_REPORTS : BitField := ⟨32, 32⟩
def SEC_RECOVERY_ADDR_ADDR : BitField := ⟨0, 64⟩
def SEC_RECOVERY_CTRL_LEN : BitField := ⟨0, 32⟩
def SEC_RECOVERY_CTRL_GO : BitField := ⟨32, 1⟩
def SEC_CNT_MGMT_FRAMES : BitField := ⟨0, 32⟩
def SEC_CNT_MGMT_REJECTED : BitField := ⟨32, 32⟩
def SEC_LAUNCH_STATUS_COMMITTED : BitField := ⟨0, 1⟩
def SEC_LAUNCH_STATUS_HAVE_COUNT : BitField := ⟨1, 16⟩
def SEC_MEAS_MEAS : BitField := ⟨0, 64⟩
def SEC_ID_PUB_PUB : BitField := ⟨0, 64⟩
def SEC_FP_FP : BitField := ⟨0, 64⟩
def SEC_MGR_HASH_HASH : BitField := ⟨0, 64⟩
def PWR_CTRL_STEP_C : BitField := ⟨0, 8⟩
def PWR_CTRL_HYST_C : BitField := ⟨8, 4⟩
def PWR_CTRL_CAP_W : BitField := ⟨16, 16⟩
def PWR_CTRL_BMC_CAP_W : BitField := ⟨32, 16⟩
def PWR_STATUS_STEP : BitField := ⟨0, 3⟩
def PWR_STATUS_SAFE_HOLD : BitField := ⟨3, 1⟩
def PWR_STATUS_CAUSE : BitField := ⟨4, 4⟩
def PWR_STATUS_TJ_MAX : BitField := ⟨8, 8⟩
def PWR_STATUS_TJ_DIE : BitField := ⟨16, 8⟩
def PWR_RAIL_SET_MV : BitField := ⟨0, 16⟩
def PWR_RAIL_READ_MV : BitField := ⟨16, 16⟩
def PWR_RAIL_AMPS : BitField := ⟨32, 16⟩
def PWR_SENSE_OPEN : BitField := ⟨0, 11⟩
def PWR_SENSE_SHORTED : BitField := ⟨11, 11⟩
def PWR_POWER_WATTS : BitField := ⟨0, 16⟩
def PWR_CNT_THERMAL : BitField := ⟨0, 16⟩
def PWR_CNT_CAP : BitField := ⟨16, 16⟩
def PWR_CNT_AVS_ERR : BitField := ⟨32, 16⟩
def HG_ZONE0_NODE : BitField := ⟨0, 16⟩
def HG_ZONE0_IN_TOKENS : BitField := ⟨16, 16⟩
def HG_ZONE0_OUT_TOKENS : BitField := ⟨32, 16⟩
def HG_ZONE0_VALID : BitField := ⟨48, 1⟩
def HG_ZONE0_GATEWAY : BitField := ⟨49, 1⟩
def HG_ZONE0_RELAY_SRC : BitField := ⟨50, 1⟩
def HG_ZONE1_DZ_GRAN : BitField := ⟨0, 18⟩
def HG_ZONE1_RZ_GRAN : BitField := ⟨18, 18⟩
def HG_ZONE1_LIST_GRAN : BitField := ⟨36, 18⟩
def HG_ZONE2_PEER_DZ_GRAN : BitField := ⟨0, 18⟩
def HG_ZONE2_PEER_RZ_GRAN : BitField := ⟨18, 18⟩
def FLM_DESC0_KIND : BitField := ⟨0, 4⟩
def FLM_DESC0_VAR : BitField := ⟨4, 1⟩
def FLM_DESC0_INVERT : BitField := ⟨5, 1⟩
def FLM_DESC0_RELEASE : BitField := ⟨6, 1⟩
def FLM_DESC0_M_LOG2 : BitField := ⟨8, 3⟩
def FLM_DESC0_NDECL : BitField := ⟨12, 4⟩
def FLM_DESC0_META_BUF : BitField := ⟨16, 8⟩
def FLM_DESC0_MASK_BUF : BitField := ⟨24, 8⟩
def FLM_DESC0_IDX_BUF : BitField := ⟨32, 8⟩
def FLM_DESC0_LIMIT : BitField := ⟨48, 16⟩
def FLM_DESC1_META_STRIDE : BitField := ⟨0, 32⟩
def JT_WIN0_BASE : BitField := ⟨0, 48⟩
def JT_WIN1_LIMIT : BitField := ⟨0, 48⟩
def JT_WIN2_NODE_LO : BitField := ⟨0, 16⟩
def JT_WIN2_NODE_HI : BitField := ⟨16, 16⟩
def JT_WIN2_R : BitField := ⟨32, 1⟩
def JT_WIN2_W : BitField := ⟨33, 1⟩
def JT_WIN2_A : BitField := ⟨34, 1⟩
def JT_WIN2_FORM : BitField := ⟨35, 1⟩
def JT_WIN2_VALID : BitField := ⟨36, 1⟩

end Fld

/-- The registers of set-up block 0. -/
def regRows0 : List RegDesc := [
  ⟨0x0, [], .any, false, [⟨0, 8, .ro, 0, none⟩, ⟨8, 4, .ro, 0, none⟩, ⟨12, 4, .ro, 0, none⟩, ⟨16, 16, .ro, 0, none⟩]⟩,
  ⟨0x8, [], .any, false, [⟨0, 32, .ro, 0, none⟩]⟩,
  ⟨0x10, [], .any, false, [⟨0, 1, .w1s, 0, none⟩]⟩,
  ⟨0x18, [], .any, false, [⟨0, 8, .ro, 0, none⟩, ⟨8, 4, .ro, 0, none⟩, ⟨12, 2, .ro, 0, none⟩, ⟨14, 4, .ro, 0, none⟩, ⟨18, 1, .ro, 0, none⟩, ⟨19, 1, .ro, 0, none⟩, ⟨20, 8, .ro, 0, none⟩, ⟨28, 4, .ro, 0, none⟩]⟩]

/-- The registers of set-up block 1. -/
def regRows1 : List RegDesc := [
  ⟨0x1000200, [(4, 1048576)], .any, false, [⟨0, 32, .ro, 0, none⟩, ⟨32, 32, .ro, 0, none⟩]⟩,
  ⟨0x1001000, [(256, 8)], .any, false, [⟨0, 3, .rw, 0, none⟩, ⟨3, 1, .rw, 0, none⟩, ⟨4, 2, .rw, 0, none⟩, ⟨6, 1, .rw, 0, none⟩, ⟨8, 8, .rw, 0, none⟩, ⟨16, 16, .rw, 0, none⟩, ⟨32, 18, .rw, 0, none⟩]⟩,
  ⟨0x1002000, [(4, 8)], .any, false, [⟨0, 64, .ro, 0, none⟩]⟩,
  ⟨0x1000100, [], .any, false, [⟨0, 1, .rw, 0, none⟩]⟩,
  ⟨0x1000108, [], .any, false, [⟨0, 32, .ro, 0, none⟩, ⟨32, 9, .ro, 0, none⟩]⟩]

/-- The registers of set-up block 2. -/
def regRows2 : List RegDesc := [
  ⟨0x2100000, [(4096, 32)], .any, false, [⟨0, 1, .rw, 0, none⟩, ⟨8, 8, .rw, 0, none⟩, ⟨16, 5, .rw, 4, (some ⟨4, 16, false⟩)⟩, ⟨24, 18, .rw, 0, none⟩]⟩,
  ⟨0x2100008, [(4096, 32)], .any, false, [⟨0, 17, .ro, 0, none⟩, ⟨17, 17, .ro, 0, none⟩, ⟨34, 1, .ro, 0, none⟩, ⟨35, 1, .ro, 0, none⟩, ⟨36, 1, .ro, 0, none⟩, ⟨37, 1, .ro, 0, none⟩, ⟨48, 8, .ro, 0, none⟩]⟩,
  ⟨0x2100010, [(4096, 32)], .any, false, [⟨0, 32, .ro, 0, none⟩, ⟨32, 32, .ro, 0, none⟩]⟩,
  ⟨0x2100018, [(4096, 32)], .any, false, [⟨0, 1, .wo, 0, none⟩]⟩]

/-- The registers of set-up block 3. -/
def regRows3 : List RegDesc := [
  ⟨0x3000800, [], .any, false, [⟨0, 1, .rw, 0, none⟩, ⟨8, 20, .rw, 2000, (some ⟨10, 1000000, false⟩)⟩]⟩,
  ⟨0x3040000, [(4096, 64)], .any, false, [⟨0, 1, .rw, 0, none⟩, ⟨1, 2, .rw, 0, none⟩, ⟨3, 1, .rw, 0, none⟩, ⟨4, 2, .rw, 0, none⟩, ⟨6, 1, .rw, 0, none⟩, ⟨7, 1, .rw, 0, none⟩, ⟨8, 2, .rw, 0, none⟩, ⟨10, 5, .rw, 1, none⟩, ⟨15, 2, .rw, 0, none⟩, ⟨17, 3, .rw, 0, none⟩, ⟨20, 1, .rw, 0, none⟩, ⟨21, 1, .rw, 0, none⟩, ⟨22, 3, .rw, 0, none⟩, ⟨25, 7, .rw, 1, none⟩, ⟨32, 1, .rw, 0, none⟩, ⟨40, 16, .rw, 0, none⟩]⟩,
  ⟨0x3040008, [(4096, 64)], .any, false, [⟨0, 16, .rw, 320, none⟩, ⟨16, 16, .rw, 0, none⟩, ⟨32, 8, .rw, 1, none⟩, ⟨40, 8, .rw, 0, none⟩]⟩,
  ⟨0x3040010, [(4096, 64)], .any, false, [⟨0, 64, .rw, 0, none⟩]⟩,
  ⟨0x3040018, [(4096, 64)], .any, false, [⟨0, 64, .rw, 0, none⟩]⟩,
  ⟨0x3040020, [(4096, 64)], .any, false, [⟨0, 64, .rw, 0, none⟩]⟩,
  ⟨0x3040028, [(4096, 64)], .any, false, [⟨0, 64, .rw, 0, none⟩]⟩,
  ⟨0x3040030, [(4096, 64)], .any, false, [⟨0, 32, .rw, 1065353216, none⟩, ⟨32, 32, .rw, 1065353216, none⟩]⟩,
  ⟨0x3040038, [(4096, 64)], .any, false, []⟩,
  ⟨0x3000000, [], .any, false, [⟨0, 12, .rw, 0, none⟩, ⟨12, 1, .rw, 0, none⟩]⟩,
  ⟨0x3000100, [(4, 1048576)], .any, false, [⟨0, 64, .ro, 0, none⟩]⟩,
  ⟨0x3000108, [(4, 1048576)], .any, false, [⟨0, 64, .ro, 0, none⟩]⟩,
  ⟨0x3000110, [(4, 1048576)], .any, false, [⟨0, 64, .ro, 0, none⟩]⟩,
  ⟨0x3000118, [(4, 1048576)], .any, false, [⟨0, 64, .ro, 0, none⟩]⟩,
  ⟨0x3000120, [(4, 1048576)], .any, false, [⟨0, 64, .ro, 0, none⟩]⟩,
  ⟨0x3000128, [(4, 1048576)], .any, false, [⟨0, 64, .ro, 0, none⟩]⟩,
  ⟨0x3000130, [(4, 1048576)], .any, false, [⟨0, 32, .ro, 0, none⟩, ⟨32, 32, .ro, 0, none⟩]⟩,
  ⟨0x3000138, [(4, 1048576)], .any, false, [⟨0, 32, .ro, 0, none⟩, ⟨32, 16, .ro, 0, none⟩]⟩,
  ⟨0x3024000, [(4096, 4)], .wmMgmt, true, [⟨0, 18, .rw, 0, none⟩]⟩,
  ⟨0x3000900, [], .wmMgmt, false, [⟨0, 64, .rw, 0, none⟩]⟩,
  ⟨0x3000908, [], .wmMgmt, false, [⟨0, 18, .rw, 0, none⟩, ⟨18, 18, .rw, 0, none⟩, ⟨36, 1, .wo, 0, none⟩, ⟨37, 1, .ro, 0, none⟩]⟩,
  ⟨0x3000910, [], .wmMgmt, false, [⟨0, 63, .rw, 0, none⟩, ⟨63, 1, .rw, 0, none⟩]⟩,
  ⟨0x3020000, [(256, 8)], .any, false, [⟨0, 16, .rw, 0, none⟩, ⟨16, 1, .rw, 0, none⟩]⟩,
  ⟨0x3030000, [(4096, 16)], .any, false, [⟨0, 1, .rw, 0, none⟩, ⟨1, 1, .rw, 0, none⟩, ⟨2, 12, .rw, 0, none⟩, ⟨14, 12, .rw, 0, none⟩, ⟨26, 18, .rw, 0, none⟩, ⟨44, 3, .rw, 0, none⟩]⟩,
  ⟨0x3030008, [(4096, 16)], .any, false, [⟨0, 64, .rw, 0, none⟩]⟩,
  ⟨0x3000810, [], .any, false, [⟨0, 8, .rw, 0, none⟩, ⟨8, 8, .rw, 0, none⟩, ⟨16, 8, .rw, 0, none⟩, ⟨24, 8, .rw, 0, none⟩, ⟨32, 8, .rw, 0, none⟩, ⟨40, 8, .rw, 0, none⟩, ⟨48, 8, .rw, 0, none⟩]⟩,
  ⟨0x3000818, [], .any, false, [⟨0, 2, .rw, 0, none⟩, ⟨2, 1, .rw, 0, none⟩, ⟨3, 1, .rw, 0, none⟩, ⟨4, 1, .rw, 0, none⟩]⟩,
  ⟨0x3000820, [], .any, false, [⟨0, 32, .rw, 0, none⟩, ⟨32, 32, .rw, 0, none⟩]⟩,
  ⟨0x3000828, [], .any, false, [⟨0, 18, .rw, 0, none⟩, ⟨18, 18, .rw, 0, none⟩, ⟨36, 12, .rw, 0, none⟩]⟩,
  ⟨0x3000140, [], .any, false, [⟨0, 64, .ro, 0, none⟩]⟩,
  ⟨0x3000148, [], .any, false, [⟨0, 64, .ro, 0, none⟩]⟩,
  ⟨0x3000150, [], .any, false, [⟨0, 64, .ro, 0, none⟩]⟩,
  ⟨0x3000158, [], .any, false, [⟨0, 64, .ro, 0, none⟩]⟩,
  ⟨0x3000160, [], .any, false, [⟨0, 64, .ro, 0, none⟩]⟩,
  ⟨0x3000168, [], .any, false, [⟨0, 32, .ro, 0, none⟩, ⟨32, 32, .ro, 0, none⟩]⟩,
  ⟨0x3000170, [], .any, false, [⟨0, 16, .ro, 0, none⟩, ⟨16, 16, .ro, 0, none⟩, ⟨32, 16, .ro, 0, none⟩, ⟨48, 16, .ro, 0, none⟩]⟩,
  ⟨0x3010000, [(1024, 32)], .any, false, [⟨0, 16, .rw, 0, none⟩, ⟨16, 16, .rw, 0, none⟩, ⟨32, 16, .rw, 0, none⟩, ⟨48, 1, .rw, 0, none⟩, ⟨49, 1, .rw, 0, none⟩, ⟨50, 1, .rw, 0, none⟩]⟩,
  ⟨0x3010008, [(1024, 32)], .any, false, [⟨0, 18, .rw, 0, none⟩, ⟨18, 18, .rw, 0, none⟩, ⟨36, 18, .rw, 0, none⟩]⟩,
  ⟨0x3010010, [(1024, 32)], .any, false, [⟨0, 18, .rw, 0, none⟩, ⟨18, 18, .rw, 0, none⟩]⟩,
  ⟨0x3080000, [(4096, 64)], .any, false, [⟨0, 1, .ro, 0, none⟩, ⟨1, 2, .ro, 0, none⟩, ⟨3, 1, .ro, 0, none⟩, ⟨4, 2, .ro, 0, none⟩, ⟨6, 1, .ro, 0, none⟩, ⟨7, 1, .ro, 0, none⟩, ⟨8, 2, .ro, 0, none⟩, ⟨10, 5, .ro, 1, none⟩, ⟨15, 2, .ro, 0, none⟩, ⟨17, 3, .ro, 0, none⟩, ⟨20, 1, .ro, 0, none⟩, ⟨21, 1, .ro, 0, none⟩, ⟨22, 3, .ro, 0, none⟩, ⟨25, 7, .ro, 1, none⟩, ⟨32, 1, .ro, 0, none⟩, ⟨40, 16, .ro, 0, none⟩]⟩,
  ⟨0x3080008, [(4096, 64)], .any, false, [⟨0, 16, .ro, 320, none⟩, ⟨16, 16, .ro, 0, none⟩, ⟨32, 8, .ro, 1, none⟩, ⟨40, 8, .ro, 0, none⟩]⟩,
  ⟨0x3080010, [(4096, 64)], .any, false, [⟨0, 64, .ro, 0, none⟩]⟩,
  ⟨0x3080018, [(4096, 64)], .any, false, [⟨0, 64, .ro, 0, none⟩]⟩,
  ⟨0x3080020, [(4096, 64)], .any, false, [⟨0, 64, .ro, 0, none⟩]⟩,
  ⟨0x3080028, [(4096, 64)], .any, false, [⟨0, 64, .ro, 0, none⟩]⟩,
  ⟨0x3080030, [(4096, 64)], .any, false, [⟨0, 32, .ro, 1065353216, none⟩, ⟨32, 32, .ro, 1065353216, none⟩]⟩,
  ⟨0x3080038, [(4096, 64)], .any, false, []⟩,
  ⟨0x3028000, [(4096, 4)], .any, true, [⟨0, 18, .ro, 0, none⟩]⟩]

/-- The registers of set-up block 4. -/
def regRows4 : List RegDesc := [
  ⟨0x4000000, [(32, 65536)], .any, false, [⟨0, 1, .rw, 0, none⟩, ⟨1, 1, .rw, 0, none⟩, ⟨8, 24, .rw, 264, none⟩]⟩,
  ⟨0x4000008, [(32, 65536)], .wmMgmt, false, [⟨0, 4, .rw, 0, none⟩]⟩,
  ⟨0x4000010, [(32, 65536)], .any, false, [⟨0, 7, .ro, 0, none⟩, ⟨8, 2, .ro, 0, none⟩, ⟨16, 32, .ro, 0, none⟩, ⟨48, 16, .ro, 0, none⟩]⟩,
  ⟨0x4000018, [(32, 65536)], .any, false, [⟨0, 6, .ro, 0, none⟩, ⟨16, 32, .ro, 0, none⟩, ⟨48, 16, .ro, 0, none⟩]⟩,
  ⟨0x4000020, [(32, 65536)], .any, false, [⟨0, 32, .ro, 0, none⟩, ⟨32, 32, .ro, 0, none⟩]⟩,
  ⟨0x4000028, [(32, 65536)], .any, false, [⟨0, 32, .ro, 0, none⟩, ⟨32, 32, .ro, 0, none⟩]⟩,
  ⟨0x4001800, [(32, 65536)], .any, false, [⟨0, 8, .wo, 0, none⟩, ⟨8, 2, .wo, 0, none⟩]⟩,
  ⟨0x4002000, [(32, 65536)], .any, false, [⟨0, 64, .ro, 0, none⟩]⟩,
  ⟨0x4002008, [(32, 65536)], .any, false, [⟨0, 32, .ro, 0, none⟩, ⟨32, 16, .ro, 0, none⟩]⟩,
  ⟨0x4001000, [(32, 65536), (255, 8)], .any, false, [⟨0, 16, .rw, 0, none⟩, ⟨16, 16, .rw, 0, none⟩, ⟨32, 1, .rw, 0, none⟩, ⟨33, 2, .ro, 0, none⟩, ⟨35, 1, .ro, 0, none⟩, ⟨36, 8, .ro, 0, none⟩]⟩,
  ⟨0x4000600, [(32, 65536), (4, 64)], .any, false, [⟨0, 64, .rw, 0, none⟩]⟩,
  ⟨0x4000608, [(32, 65536), (4, 64)], .any, false, [⟨0, 64, .rw, 0, none⟩]⟩,
  ⟨0x4000610, [(32, 65536), (4, 64)], .any, false, [⟨0, 64, .rw, 0, none⟩]⟩,
  ⟨0x4000618, [(32, 65536), (4, 64)], .any, false, [⟨0, 4, .wo, 0, none⟩, ⟨4, 1, .wo, 0, none⟩, ⟨5, 1, .wo, 0, none⟩]⟩,
  ⟨0x4000620, [(32, 65536), (4, 64)], .any, false, [⟨0, 64, .ro, 0, none⟩]⟩,
  ⟨0x4000628, [(32, 65536), (4, 64)], .any, false, [⟨0, 8, .ro, 0, none⟩]⟩]

/-- The registers of set-up block 5. -/
def regRows5 : List RegDesc := [
  ⟨0x5000000, [(32, 65536)], .any, false, [⟨0, 2, .rw, 0, none⟩, ⟨8, 16, .rw, 64, (some ⟨1, 65535, false⟩)⟩]⟩,
  ⟨0x5000008, [(32, 65536)], .any, false, [⟨0, 5, .ro, 0, none⟩, ⟨16, 32, .ro, 0, none⟩, ⟨48, 16, .ro, 0, none⟩]⟩,
  ⟨0x5000100, [(32, 65536)], .any, false, [⟨0, 32, .ro, 0, none⟩, ⟨32, 32, .ro, 0, none⟩]⟩,
  ⟨0x5000108, [(32, 65536)], .any, false, [⟨0, 32, .ro, 0, none⟩, ⟨32, 32, .ro, 0, none⟩]⟩,
  ⟨0x5000110, [(32, 65536)], .any, false, [⟨0, 32, .ro, 0, none⟩, ⟨32, 32, .ro, 0, none⟩]⟩,
  ⟨0x5000118, [(32, 65536)], .any, false, [⟨0, 16, .ro, 0, none⟩, ⟨16, 16, .ro, 0, none⟩, ⟨32, 32, .ro, 0, none⟩]⟩,
  ⟨0x5000120, [(32, 65536)], .any, false, [⟨0, 16, .ro, 0, none⟩, ⟨16, 16, .ro, 0, none⟩]⟩,
  ⟨0x5000128, [(32, 65536)], .any, false, [⟨0, 64, .ro, 0, none⟩]⟩,
  ⟨0x5001000, [(32, 65536), (64, 32)], .any, false, [⟨0, 4, .rw, 0, none⟩, ⟨4, 1, .rw, 0, none⟩, ⟨5, 1, .rw, 0, none⟩, ⟨6, 1, .rw, 0, none⟩, ⟨8, 3, .rw, 0, none⟩, ⟨12, 4, .rw, 0, none⟩, ⟨16, 8, .rw, 0, none⟩, ⟨24, 8, .rw, 0, none⟩, ⟨32, 8, .rw, 0, none⟩, ⟨48, 16, .rw, 0, none⟩]⟩,
  ⟨0x5001008, [(32, 65536), (64, 32)], .any, false, [⟨0, 32, .rw, 0, none⟩]⟩]

/-- The registers of set-up block 6. -/
def regRows6 : List RegDesc := [
  ⟨0x6000000, [(16, 65536)], .any, false, [⟨0, 1, .rw, 0, none⟩, ⟨1, 2, .rwl, 0, none⟩, ⟨3, 2, .rwl, 0, none⟩, ⟨5, 3, .rwl, 0, none⟩, ⟨8, 3, .rwl, 0, none⟩, ⟨11, 2, .rw, 0, none⟩, ⟨13, 1, .rw, 0, none⟩, ⟨14, 1, .rwl, 0, none⟩, ⟨15, 1, .rwl, 1, none⟩]⟩,
  ⟨0x6000008, [(16, 65536)], .any, false, [⟨0, 4, .ro, 0, none⟩, ⟨4, 2, .ro, 0, none⟩, ⟨6, 8, .ro, 0, none⟩, ⟨14, 4, .ro, 0, none⟩, ⟨18, 4, .ro, 0, none⟩, ⟨22, 4, .ro, 0, none⟩, ⟨26, 3, .ro, 0, none⟩, ⟨29, 4, .ro, 0, none⟩, ⟨33, 1, .ro, 0, none⟩]⟩,
  ⟨0x6000010, [(16, 65536)], .wmMgmt, false, [⟨0, 16, .rw, 0, none⟩, ⟨16, 4, .rw, 0, none⟩, ⟨20, 1, .rw, 0, none⟩]⟩,
  ⟨0x6000018, [(16, 65536)], .any, false, [⟨0, 48, .ro, 0, none⟩, ⟨48, 16, .ro, 0, none⟩]⟩,
  ⟨0x6000020, [(16, 65536)], .any, false, [⟨0, 16, .rw, 0, none⟩, ⟨16, 32, .ro, 0, none⟩]⟩,
  ⟨0x6000040, [(16, 65536)], .any, false, [⟨0, 64, .ro, 0, none⟩]⟩,
  ⟨0x6000048, [(16, 65536)], .any, false, [⟨0, 64, .ro, 0, none⟩]⟩,
  ⟨0x6000050, [(16, 65536)], .any, false, [⟨0, 16, .ro, 0, none⟩, ⟨16, 16, .ro, 0, none⟩, ⟨32, 16, .ro, 0, none⟩, ⟨48, 16, .ro, 0, none⟩]⟩,
  ⟨0x6000058, [(16, 65536)], .any, false, [⟨0, 32, .ro, 0, none⟩, ⟨32, 32, .ro, 0, none⟩]⟩]

/-- The registers of set-up block 7. -/
def regRows7 : List RegDesc := [
  ⟨0x7010000, [(256, 8)], .wmMgmt, false, [⟨0, 16, .rw, 0, none⟩, ⟨16, 16, .rw, 0, none⟩, ⟨32, 1, .rw, 0, none⟩, ⟨33, 1, .rw, 0, none⟩]⟩,
  ⟨0x7020000, [(256, 8)], .wmMgmt, false, [⟨0, 2, .rw, 0, none⟩, ⟨8, 8, .rw, 0, none⟩, ⟨16, 16, .rw, 0, none⟩, ⟨32, 16, .rw, 0, none⟩]⟩,
  ⟨0x7000000, [], .wmMgmt, false, [⟨0, 16, .rw, 0, none⟩, ⟨16, 16, .rw, 0, none⟩]⟩,
  ⟨0x7000008, [], .any, false, [⟨0, 8, .rw, 255, none⟩, ⟨8, 16, .rwl, 34997, none⟩, ⟨24, 8, .rw, 0, none⟩, ⟨32, 16, .rw, 10000, none⟩, ⟨48, 16, .rw, 1000, (some ⟨1, 30000, false⟩)⟩]⟩,
  ⟨0x7000010, [], .wmMgmt, false, [⟨0, 63, .rw, 0, none⟩, ⟨63, 1, .rw, 0, none⟩]⟩,
  ⟨0x7000018, [], .any, false, [⟨0, 16, .rw, 0, none⟩, ⟨16, 1, .rw, 0, none⟩, ⟨17, 4, .rw, 8, none⟩, ⟨32, 32, .ro, 0, none⟩]⟩,
  ⟨0x7000020, [], .any, false, [⟨0, 40, .rw, 0, none⟩]⟩,
  ⟨0x7000028, [], .any, false, [⟨0, 16, .rwl, 51380, none⟩, ⟨16, 8, .rw, 64, none⟩]⟩,
  ⟨0x7000030, [], .any, false, [⟨0, 24, .rw, 0, none⟩]⟩,
  ⟨0x7000038, [], .any, false, [⟨0, 64, .rw, 0, none⟩]⟩,
  ⟨0x7000040, [], .any, false, [⟨0, 24, .ro, 0, none⟩]⟩,
  ⟨0x7000048, [(4, 8)], .any, false, [⟨0, 48, .rw, 0, none⟩]⟩,
  ⟨0x7000100, [(4, 1048576)], .any, false, [⟨0, 64, .ro, 0, none⟩]⟩,
  ⟨0x7000108, [(4, 1048576)], .any, false, [⟨0, 32, .ro, 0, none⟩, ⟨32, 32, .ro, 0, none⟩]⟩,
  ⟨0x7000110, [(4, 1048576)], .any, false, [⟨0, 16, .ro, 0, none⟩, ⟨16, 16, .ro, 0, none⟩, ⟨32, 16, .ro, 0, none⟩, ⟨48, 16, .ro, 0, none⟩]⟩,
  ⟨0x7000118, [(4, 1048576)], .any, false, [⟨0, 32, .ro, 0, none⟩, ⟨32, 32, .ro, 0, none⟩]⟩,
  ⟨0x7040000, [(256, 16)], .any, false, [⟨0, 64, .rw, 0, none⟩]⟩,
  ⟨0x7040008, [(256, 16)], .any, false, [⟨0, 16, .rw, 0, none⟩, ⟨16, 1, .rw, 0, none⟩]⟩,
  ⟨0x7011000, [(256, 8)], .any, false, [⟨0, 16, .ro, 0, none⟩, ⟨16, 16, .ro, 0, none⟩, ⟨32, 1, .ro, 0, none⟩, ⟨33, 1, .ro, 0, none⟩]⟩,
  ⟨0x7021000, [(256, 8)], .any, false, [⟨0, 2, .ro, 0, none⟩, ⟨8, 8, .ro, 0, none⟩, ⟨16, 16, .ro, 0, none⟩, ⟨32, 16, .ro, 0, none⟩]⟩]

/-- The registers of set-up block 8. -/
def regRows8 : List RegDesc := [
  ⟨0x8000000, [], .wmMgmt, false, [⟨0, 8, .rw, 16, (some ⟨2, 250, false⟩)⟩, ⟨8, 8, .rw, 2, none⟩, ⟨16, 12, .rw, 256, (some ⟨16, 4095, false⟩)⟩]⟩,
  ⟨0x8000008, [], .wmMgmt, false, [⟨0, 5, .rw, 12, (some ⟨12, 30, false⟩)⟩, ⟨8, 7, .rw, 0, none⟩]⟩,
  ⟨0x8000010, [], .wmMgmt, false, [⟨0, 39, .rw, 0, none⟩]⟩,
  ⟨0x8000018, [], .wmMgmt, false, [⟨0, 39, .rw, 0, none⟩]⟩,
  ⟨0x8000020, [], .wmMgmt, false, [⟨0, 16, .rw, 0, none⟩, ⟨16, 16, .rw, 0, none⟩, ⟨32, 3, .rw, 0, none⟩]⟩,
  ⟨0x8000028, [], .wmMgmt, false, [⟨0, 16, .rw, 8, none⟩, ⟨16, 4, .rw, 8, none⟩]⟩,
  ⟨0x8000100, [], .any, false, [⟨0, 64, .ro, 0, none⟩]⟩,
  ⟨0x8000108, [], .any, false, [⟨0, 32, .ro, 0, none⟩, ⟨32, 32, .ro, 0, none⟩]⟩,
  ⟨0x8000110, [], .any, false, [⟨0, 32, .ro, 0, none⟩, ⟨32, 32, .ro, 0, none⟩]⟩,
  ⟨0x8000118, [], .any, false, [⟨0, 32, .ro, 0, none⟩, ⟨32, 32, .ro, 0, none⟩]⟩,
  ⟨0x8000120, [], .any, false, [⟨0, 32, .ro, 0, none⟩, ⟨32, 32, .ro, 0, none⟩]⟩,
  ⟨0x8000400, [(128, 8)], .wmMgmt, false, [⟨0, 16, .rw, 0, none⟩]⟩,
  ⟨0x8010000, [(256, 32)], .wmMgmt, false, [⟨0, 48, .rw, 0, none⟩]⟩,
  ⟨0x8010008, [(256, 32)], .wmMgmt, false, [⟨0, 48, .rw, 0, none⟩]⟩,
  ⟨0x8010010, [(256, 32)], .wmMgmt, false, [⟨0, 16, .rw, 0, none⟩, ⟨16, 16, .rw, 0, none⟩, ⟨32, 1, .rw, 0, none⟩, ⟨33, 1, .rw, 0, none⟩, ⟨34, 1, .rw, 0, none⟩, ⟨35, 1, .rw, 0, none⟩, ⟨36, 1, .rw, 0, none⟩]⟩]

/-- The registers of set-up block 9. -/
def regRows9 : List RegDesc := [
  ⟨0x9000000, [], .any, false, [⟨0, 5, .rw, 16, (some ⟨12, 20, false⟩)⟩, ⟨5, 3, .rw, 3, (some ⟨1, 7, false⟩)⟩, ⟨8, 24, .rw, 10000, none⟩, ⟨32, 12, .rw, 0, none⟩, ⟨44, 1, .rw, 0, none⟩]⟩,
  ⟨0x9000008, [], .any, false, [⟨0, 1, .ro, 0, none⟩, ⟨8, 8, .ro, 0, none⟩, ⟨16, 8, .ro, 0, none⟩, ⟨32, 32, .ro, 0, none⟩]⟩,
  ⟨0x9000010, [], .any, false, [⟨0, 32, .ro, 0, none⟩, ⟨32, 32, .ro, 0, none⟩]⟩,
  ⟨0x9000018, [], .any, false, [⟨0, 64, .ro, 0, none⟩]⟩,
  ⟨0x9000020, [], .any, false, [⟨0, 32, .ro, 0, none⟩, ⟨32, 16, .ro, 0, none⟩, ⟨48, 16, .ro, 0, none⟩]⟩,
  ⟨0x9000028, [], .any, false, [⟨0, 32, .ro, 0, none⟩, ⟨32, 32, .ro, 0, none⟩]⟩,
  ⟨0x9001000, [(256, 8)], .wmMgmt, false, [⟨0, 16, .rw, 0, none⟩, ⟨16, 1, .rw, 0, none⟩]⟩,
  ⟨0x9000080, [(32, 65536)], .any, false, [⟨0, 8, .wo, 0, none⟩, ⟨8, 8, .wo, 0, none⟩, ⟨16, 32, .wo, 0, none⟩]⟩,
  ⟨0x9000088, [(32, 65536)], .any, false, [⟨0, 32, .wo, 0, none⟩]⟩,
  ⟨0x9000100, [(32, 65536)], .any, false, [⟨0, 32, .ro, 0, none⟩, ⟨32, 32, .ro, 0, none⟩]⟩]

/-- The registers of set-up block 10. -/
def regRows10 : List RegDesc := [
  ⟨0xa100000, [(16384, 32)], .any, false, [⟨0, 1, .rw, 0, none⟩, ⟨1, 3, .rw, 0, none⟩, ⟨4, 5, .rw, 4, (some ⟨4, 20, false⟩)⟩, ⟨16, 8, .rw, 0, none⟩, ⟨24, 1, .rw, 0, none⟩, ⟨32, 14, .rw, 0, none⟩, ⟨46, 12, .rw, 0, none⟩]⟩,
  ⟨0xa100008, [(16384, 32)], .any, false, [⟨0, 64, .rw, 0, none⟩]⟩,
  ⟨0xa100010, [(16384, 32)], .any, false, [⟨0, 64, .rw, 0, none⟩]⟩,
  ⟨0xa100018, [(16384, 32)], .any, false, [⟨0, 32, .ro, 0, none⟩, ⟨32, 32, .ro, 0, none⟩]⟩,
  ⟨0xa000000, [], .any, false, [⟨0, 13, .rwl, 0, (some ⟨0, 4096, false⟩)⟩]⟩,
  ⟨0xa000008, [], .any, false, [⟨0, 1, .ro, 0, none⟩, ⟨1, 5, .ro, 0, none⟩, ⟨6, 1, .ro, 0, none⟩]⟩,
  ⟨0xa000010, [], .any, false, [⟨0, 32, .ro, 0, none⟩, ⟨32, 32, .ro, 0, none⟩]⟩,
  ⟨0xa000018, [], .any, false, [⟨0, 14, .rw, 0, none⟩, ⟨16, 14, .rw, 0, none⟩]⟩,
  ⟨0xa000020, [], .any, false, [⟨0, 39, .rwl, 0, none⟩]⟩,
  ⟨0xa000028, [], .any, false, [⟨0, 14, .rw, 512, (some ⟨1, 8192, false⟩)⟩, ⟨16, 16, .rw, 256, (some ⟨1, 65535, false⟩)⟩]⟩,
  ⟨0xa000030, [], .any, false, [⟨0, 32, .rw, 20000000, none⟩, ⟨32, 32, .rw, 100000, none⟩]⟩,
  ⟨0xa000100, [], .any, false, [⟨0, 32, .ro, 0, none⟩, ⟨32, 32, .ro, 0, none⟩]⟩,
  ⟨0xa000108, [], .any, false, [⟨0, 16, .ro, 0, none⟩, ⟨16, 16, .ro, 0, none⟩, ⟨32, 16, .ro, 0, none⟩, ⟨48, 16, .ro, 0, none⟩]⟩,
  ⟨0xa000110, [], .any, false, [⟨0, 32, .ro, 0, none⟩, ⟨32, 32, .ro, 0, none⟩]⟩,
  ⟨0xa000118, [], .any, false, [⟨0, 32, .ro, 0, none⟩, ⟨32, 32, .ro, 0, none⟩]⟩,
  ⟨0xa000400, [(256, 8)], .any, false, [⟨0, 12, .rw, 0, none⟩, ⟨12, 12, .rw, 0, none⟩, ⟨24, 15, .rw, 0, none⟩]⟩,
  ⟨0xa010000, [(256, 64), (3, 16)], .any, false, [⟨0, 64, .rw, 0, none⟩]⟩,
  ⟨0xa010008, [(256, 64), (3, 16)], .any, false, [⟨0, 32, .rw, 0, none⟩, ⟨32, 32, .rw, 0, none⟩]⟩]

/-- The registers of set-up block 11. -/
def regRows11 : List RegDesc := [
  ⟨0xb002000, [], .any, false, [⟨0, 1, .rw, 0, none⟩, ⟨8, 8, .rw, 192, none⟩, ⟨16, 8, .rw, 4, none⟩, ⟨24, 8, .rw, 3, none⟩, ⟨32, 8, .rw, 50, none⟩, ⟨40, 3, .rw, 7, none⟩, ⟨48, 8, .rw, 4, none⟩]⟩,
  ⟨0xb000000, [], .wmMgmt, false, [⟨0, 8, .rw, 100, (some ⟨10, 255, false⟩)⟩, ⟨8, 8, .rw, 40, (some ⟨1, 255, false⟩)⟩, ⟨16, 10, .rw, 500, (some ⟨100, 1000, false⟩)⟩]⟩,
  ⟨0xb000008, [], .wmMgmt, false, [⟨0, 8, .ro, 0, none⟩, ⟨8, 1, .ro, 0, none⟩, ⟨9, 1, .ro, 0, none⟩, ⟨32, 32, .ro, 0, none⟩]⟩,
  ⟨0xb000010, [], .wmMgmt, false, [⟨0, 12, .rw, 0, none⟩]⟩,
  ⟨0xb000018, [], .wmMgmt, false, [⟨0, 63, .rw, 0, none⟩]⟩,
  ⟨0xb000020, [], .wmMgmt, false, [⟨0, 63, .rw, 0, none⟩, ⟨63, 1, .rw, 0, none⟩]⟩,
  ⟨0xb000030, [], .wmMgmt, false, [⟨0, 12, .ro, 0, none⟩]⟩,
  ⟨0xb000038, [], .wmMgmt, false, [⟨0, 63, .ro, 0, none⟩]⟩,
  ⟨0xb000040, [], .wmMgmt, false, [⟨0, 32, .ro, 0, none⟩, ⟨32, 32, .ro, 0, none⟩]⟩,
  ⟨0xb000048, [], .wmMgmt, false, [⟨0, 32, .ro, 0, none⟩, ⟨32, 16, .ro, 0, none⟩, ⟨48, 16, .ro, 0, none⟩]⟩,
  ⟨0xb000100, [(16, 8)], .wmMgmt, false, [⟨0, 39, .rw, 0, none⟩, ⟨39, 8, .rw, 0, none⟩, ⟨47, 1, .rw, 0, none⟩]⟩,
  ⟨0xb010000, [(256, 16)], .wmMgmt, false, [⟨0, 1, .rw, 0, none⟩, ⟨1, 1, .rw, 0, none⟩, ⟨2, 1, .rw, 0, none⟩, ⟨3, 3, .ro, 0, none⟩, ⟨6, 4, .ro, 0, none⟩, ⟨10, 1, .ro, 0, none⟩, ⟨16, 16, .rw, 256, (some ⟨1, 65535, false⟩)⟩]⟩,
  ⟨0xb010008, [(256, 16)], .wmMgmt, false, [⟨0, 64, .rw, 0, none⟩]⟩,
  ⟨0xb020000, [(256, 64)], .wmMgmt, false, [⟨0, 64, .ro, 0, none⟩]⟩,
  ⟨0xb020008, [(256, 64)], .wmMgmt, false, [⟨0, 64, .ro, 0, none⟩]⟩,
  ⟨0xb020010, [(256, 64)], .wmMgmt, false, [⟨0, 64, .ro, 0, none⟩]⟩,
  ⟨0xb020018, [(256, 64)], .wmMgmt, false, [⟨0, 64, .ro, 0, none⟩]⟩,
  ⟨0xb020020, [(256, 64)], .wmMgmt, false, [⟨0, 32, .ro, 0, none⟩, ⟨32, 32, .ro, 0, none⟩]⟩,
  ⟨0xb020028, [(256, 64)], .wmMgmt, false, []⟩,
  ⟨0xb040000, [(4096, 8)], .wmMgmt, false, [⟨0, 8, .rw, 0, none⟩, ⟨8, 1, .rw, 0, none⟩]⟩,
  ⟨0xb030000, [(256, 8)], .wmMgmt, false, [⟨0, 1, .rw, 0, none⟩, ⟨1, 1, .rw, 0, none⟩, ⟨2, 1, .ro, 0, none⟩, ⟨3, 1, .ro, 0, none⟩, ⟨8, 8, .ro, 0, none⟩]⟩,
  ⟨0xb048000, [(4096, 8)], .wmMgmt, false, [⟨0, 8, .ro, 0, none⟩, ⟨8, 1, .ro, 0, none⟩]⟩]

/-- The registers of set-up block 12. -/
def regRows12 : List RegDesc := [
  ⟨0xc000000, [], .any, false, [⟨0, 2, .rwl, 0, none⟩, ⟨2, 1, .rw, 1, none⟩, ⟨8, 8, .rw, 50, (some ⟨10, 255, false⟩)⟩, ⟨16, 16, .rw, 200, (some ⟨1, 500, false⟩)⟩, ⟨32, 16, .rw, 20, none⟩, ⟨48, 16, .rw, 500, none⟩]⟩,
  ⟨0xc000008, [], .any, false, [⟨0, 3, .ro, 0, none⟩, ⟨3, 1, .ro, 0, none⟩, ⟨8, 8, .ro, 0, none⟩]⟩,
  ⟨0xc000010, [], .any, false, [⟨0, 64, .ro, 0, none⟩]⟩,
  ⟨0xc000020, [], .wmMgmt, false, [⟨0, 64, .rw, 0, none⟩]⟩,
  ⟨0xc000030, [], .wmMgmt, false, [⟨0, 64, .rw, 0, none⟩]⟩,
  ⟨0xc000040, [], .wmMgmt, false, [⟨0, 64, .rw, 0, none⟩]⟩,
  ⟨0xc000048, [], .any, false, [⟨0, 64, .ro, 0, none⟩]⟩,
  ⟨0xc000018, [], .any, false, [⟨0, 32, .ro, 0, none⟩, ⟨32, 32, .ro, 0, none⟩]⟩,
  ⟨0xc000028, [], .any, false, [⟨0, 30, .rw, 0, none⟩, ⟨32, 16, .rw, 1000, none⟩]⟩,
  ⟨0xc000038, [], .wmMgmt, false, [⟨0, 20, .rw, 20000, (some ⟨1000, 1000000, false⟩)⟩, ⟨20, 20, .rw, 0, (some ⟨1000, 1000000, true⟩)⟩]⟩,
  ⟨0xc000050, [], .any, false, [⟨0, 5, .rwl, 20, (some ⟨10, 30, false⟩)⟩]⟩,
  ⟨0xc000058, [], .any, false, [⟨0, 20, .rw, 10000, none⟩, ⟨20, 20, .rw, 100, none⟩]⟩,
  ⟨0xc000060, [], .any, false, [⟨0, 16, .ro, 0, none⟩, ⟨16, 16, .ro, 0, none⟩, ⟨32, 16, .ro, 0, none⟩, ⟨48, 16, .ro, 0, none⟩]⟩]

/-- The registers of set-up block 13. The classes' own rows carry the defaults of R494; UE, which R494 leaves out for classes 6 to 9,
is 1 there (DESIGN CHOICE: 0 is held at 1). -/
def regRows13 : List RegDesc := [
  ⟨0xd000000, [], .wmMgmt, false, [⟨0, 10, .rw, 1023, none⟩]⟩,
  ⟨0xd000008, [], .wmMgmt, false, [⟨0, 1, .rw, 1, none⟩, ⟨8, 8, .rw, 8, (some ⟨4, 255, false⟩)⟩, ⟨16, 8, .rw, 64, none⟩]⟩,
  ⟨0xd000010, [], .any, false, [⟨0, 16, .ro, 0, none⟩, ⟨16, 16, .ro, 0, none⟩, ⟨32, 16, .ro, 0, none⟩, ⟨48, 16, .ro, 0, none⟩]⟩,
  ⟨0xd000018, [], .any, false, [⟨0, 64, .rw, 0, none⟩]⟩,
  ⟨0xd000020, [], .any, false, [⟨0, 1, .rw, 0, none⟩, ⟨8, 5, .rw, 12, (some ⟨8, 20, false⟩)⟩, ⟨16, 8, .rw, 4, (some ⟨1, 255, false⟩)⟩]⟩,
  ⟨0xd000028, [], .any, false, [⟨0, 64, .rw, 0, none⟩]⟩,
  ⟨0xd000030, [], .any, false, [⟨0, 32, .rw, 0, none⟩, ⟨32, 32, .ro, 0, none⟩]⟩,
  ⟨0xd000040, [], .any, false, [⟨0, 32, .ro, 0, none⟩, ⟨32, 8, .ro, 0, none⟩]⟩,
  ⟨0xd000048, [], .wmMgmt, false, [⟨0, 16, .rw, 1000, (some ⟨100, 65535, false⟩)⟩, ⟨16, 1, .rw, 0, none⟩]⟩,
  ⟨0xd000050, [], .any, false, [⟨0, 64, .rw, 0, none⟩]⟩,
  ⟨0xd000058, [], .wmMgmt, false, [⟨0, 64, .rw, 0, none⟩]⟩,
  ⟨0xd000060, [], .travo, false, [⟨0, 1, .wo, 0, none⟩]⟩,
  ⟨0xd000068, [], .any, false, [⟨0, 32, .w1s, 0, none⟩]⟩,
  ⟨0xd000070, [], .any, false, [⟨0, 16, .rw, 0, none⟩, ⟨16, 2, .rw, 0, none⟩]⟩,
  ⟨0xd000078, [], .any, false, [⟨0, 24, .ro, 0, none⟩, ⟨24, 1, .ro, 0, none⟩, ⟨32, 32, .ro, 0, none⟩]⟩,
  ⟨0xd000080, [], .any, false, [⟨0, 32, .ro, 0, none⟩, ⟨32, 32, .ro, 0, none⟩]⟩,
  ⟨0xd000088, [], .any, false, [⟨0, 32, .ro, 0, none⟩, ⟨32, 32, .ro, 0, none⟩]⟩,
  ⟨0xd000090, [], .any, false, [⟨0, 64, .ro, 0, none⟩]⟩,
  ⟨0xd000098, [], .any, false, [⟨0, 16, .ro, 0, none⟩, ⟨16, 16, .ro, 0, none⟩, ⟨32, 16, .ro, 0, none⟩, ⟨48, 16, .ro, 0, none⟩]⟩,
  ⟨0xd000100, [], .wmMgmt, false, [⟨0, 8, .rw, 16, (some ⟨1, 255, false⟩)⟩, ⟨8, 16, .rw, 1024, (some ⟨1, 65535, false⟩)⟩, ⟨24, 8, .rw, 4, (some ⟨1, 255, false⟩)⟩]⟩,
  ⟨0xd000108, [], .wmMgmt, false, [⟨0, 8, .rw, 16, (some ⟨1, 255, false⟩)⟩, ⟨8, 16, .rw, 1024, (some ⟨1, 65535, false⟩)⟩, ⟨24, 8, .rw, 4, (some ⟨1, 255, false⟩)⟩]⟩,
  ⟨0xd000110, [], .wmMgmt, false, [⟨0, 8, .rw, 8, (some ⟨1, 255, false⟩)⟩, ⟨8, 16, .rw, 1024, (some ⟨1, 65535, false⟩)⟩, ⟨24, 8, .rw, 4, (some ⟨1, 255, false⟩)⟩]⟩,
  ⟨0xd000118, [], .wmMgmt, false, [⟨0, 8, .rw, 8, (some ⟨1, 255, false⟩)⟩, ⟨8, 16, .rw, 1024, (some ⟨1, 65535, false⟩)⟩, ⟨24, 8, .rw, 4, (some ⟨1, 255, false⟩)⟩]⟩,
  ⟨0xd000120, [], .wmMgmt, false, [⟨0, 8, .rw, 8, (some ⟨1, 255, false⟩)⟩, ⟨8, 16, .rw, 1024, (some ⟨1, 65535, false⟩)⟩, ⟨24, 8, .rw, 4, (some ⟨1, 255, false⟩)⟩]⟩,
  ⟨0xd000128, [], .wmMgmt, false, [⟨0, 8, .rw, 64, (some ⟨1, 255, false⟩)⟩, ⟨8, 16, .rw, 1024, (some ⟨1, 65535, false⟩)⟩, ⟨24, 8, .rw, 8, (some ⟨1, 255, false⟩)⟩]⟩,
  ⟨0xd000130, [], .wmMgmt, false, [⟨0, 8, .rw, 255, (some ⟨1, 255, false⟩)⟩, ⟨8, 16, .rw, 1024, (some ⟨1, 65535, false⟩)⟩, ⟨24, 8, .rw, 1, (some ⟨1, 255, false⟩)⟩]⟩,
  ⟨0xd000138, [], .wmMgmt, false, [⟨0, 8, .rw, 32, (some ⟨1, 255, false⟩)⟩, ⟨8, 16, .rw, 16, (some ⟨1, 65535, false⟩)⟩, ⟨24, 8, .rw, 1, (some ⟨1, 255, false⟩)⟩]⟩,
  ⟨0xd000140, [], .wmMgmt, false, [⟨0, 8, .rw, 255, (some ⟨1, 255, false⟩)⟩, ⟨8, 16, .rw, 1024, (some ⟨1, 65535, false⟩)⟩, ⟨24, 8, .rw, 1, (some ⟨1, 255, false⟩)⟩]⟩,
  ⟨0xd000148, [], .wmMgmt, false, [⟨0, 8, .rw, 4, (some ⟨1, 255, false⟩)⟩, ⟨8, 16, .rw, 1024, (some ⟨1, 65535, false⟩)⟩, ⟨24, 8, .rw, 1, (some ⟨1, 255, false⟩)⟩]⟩,
  ⟨0xd010000, [(4, 8192), (1024, 8)], .wmMgmt, false, [⟨0, 64, .w1s, 0, none⟩]⟩]

/-- The registers of set-up block 14. -/
def regRows14 : List RegDesc := [
  ⟨0xe000000, [], .any, false, [⟨0, 2, .ro, 0, none⟩]⟩,
  ⟨0xe000008, [], .any, false, [⟨0, 8, .ro, 0, none⟩, ⟨8, 3, .ro, 0, none⟩]⟩,
  ⟨0xe000010, [], .any, false, [⟨0, 32, .ro, 0, none⟩, ⟨32, 32, .ro, 0, none⟩]⟩,
  ⟨0xe000018, [], .mgmt, false, [⟨0, 32, .wo, 0, none⟩]⟩,
  ⟨0xe000020, [], .wmMgmt, false, [⟨0, 1, .rw, 1, none⟩, ⟨1, 1, .ro, 0, none⟩]⟩,
  ⟨0xe000028, [], .any, false, [⟨0, 39, .ro, 0, none⟩]⟩,
  ⟨0xe000030, [], .any, false, [⟨0, 1, .ro, 0, none⟩, ⟨1, 1, .ro, 0, none⟩]⟩,
  ⟨0xe000038, [], .any, false, [⟨0, 1, .ro, 0, none⟩, ⟨32, 32, .ro, 0, none⟩]⟩,
  ⟨0xe000040, [], .travo, false, [⟨0, 64, .rw, 0, none⟩]⟩,
  ⟨0xe000048, [], .travo, false, [⟨0, 32, .rw, 0, none⟩, ⟨32, 1, .wo, 0, none⟩]⟩,
  ⟨0xe000050, [], .any, false, [⟨0, 32, .ro, 0, none⟩, ⟨32, 32, .ro, 0, none⟩]⟩,
  ⟨0xe000058, [], .any, false, [⟨0, 1, .ro, 0, none⟩, ⟨1, 16, .ro, 0, none⟩]⟩,
  ⟨0xe000100, [(4, 32), (4, 8)], .any, false, [⟨0, 64, .ro, 0, none⟩]⟩,
  ⟨0xe000200, [(4, 8)], .any, false, [⟨0, 64, .ro, 0, none⟩]⟩,
  ⟨0xe000220, [(4, 8)], .any, false, [⟨0, 64, .ro, 0, none⟩]⟩,
  ⟨0xe000240, [(4, 8)], .any, false, [⟨0, 64, .ro, 0, none⟩]⟩]

/-- The registers of set-up block 15. -/
def regRows15 : List RegDesc := [
  ⟨0xf000000, [], .wmMgmt, false, [⟨0, 8, .rw, 100, (some ⟨70, 104, false⟩)⟩, ⟨8, 4, .rw, 5, (some ⟨1, 15, false⟩)⟩, ⟨16, 16, .rw, 1400, (some ⟨200, 1700, false⟩)⟩, ⟨32, 16, .ro, 65535, none⟩]⟩,
  ⟨0xf000008, [], .any, false, [⟨0, 3, .ro, 5, none⟩, ⟨3, 1, .ro, 0, none⟩, ⟨4, 4, .ro, 0, none⟩, ⟨8, 8, .ro, 0, none⟩, ⟨16, 8, .ro, 0, none⟩]⟩,
  ⟨0xf000010, [(2, 8)], .any, false, [⟨0, 16, .ro, 0, none⟩, ⟨16, 16, .ro, 0, none⟩, ⟨32, 16, .ro, 0, none⟩]⟩,
  ⟨0xf000020, [], .any, false, [⟨0, 11, .ro, 0, none⟩, ⟨11, 11, .ro, 0, none⟩]⟩,
  ⟨0xf000028, [], .any, false, [⟨0, 16, .ro, 0, none⟩]⟩,
  ⟨0xf000030, [], .any, false, [⟨0, 16, .ro, 0, none⟩, ⟨16, 16, .ro, 0, none⟩, ⟨32, 16, .ro, 0, none⟩]⟩]

/-- The rows of one 16 MiB block (R40). -/
def regRows (block : Nat) : List RegDesc :=
  match block with
  | 0 => regRows0
  | 1 => regRows1
  | 2 => regRows2
  | 3 => regRows3
  | 4 => regRows4
  | 5 => regRows5
  | 6 => regRows6
  | 7 => regRows7
  | 8 => regRows8
  | 9 => regRows9
  | 10 => regRows10
  | 11 => regRows11
  | 12 => regRows12
  | 13 => regRows13
  | 14 => regRows14
  | 15 => regRows15
  | _ => []

/-- Does offset `o` (from the row's base) lie on an instance of these dimensions? -/
def onInstance : List (Nat × Nat) → Nat → Bool
  | [], o => o == 0
  | (count, stride) :: ds, o => if o / stride < count then onInstance ds (o % stride) else false

/-- The row of the register at set-up offset `a`; none at an unassigned address (R14). -/
def regDescAt (a : Nat) : Option RegDesc :=
  (regRows (a / 0x1000000)).find? fun d => decide (d.base ≤ a) && onInstance d.dims (a - d.base)

/-- The word a row's reset values make. -/
def RegDesc.resetNat (d : RegDesc) : Nat :=
  d.fields.foldl (fun v f => v + f.reset * 2 ^ f.lo) 0

/-- The reset word of the register at `a` (zero at an unassigned address). -/
def regResetNat (a : Nat) : Nat :=
  match regDescAt a with
  | some d => d.resetNat % 2 ^ 64
  | none => 0

end Sys2Proof.Machine
end

