-- ==== Sys2Proof/Machine/Bits.lean ====
section
/-! DEFINITION. Bit-field, byte-order and list helpers, and the sparse tables (lists of key and value in rising key order)
that hold memory and registers. -/

namespace Sys2Proof.Machine

/-- Bits [lo + w - 1 : lo] of a number. -/
def bitsOf (v lo w : Nat) : Nat := (v >>> lo) % 2 ^ w

/-- The number `v` with bits [lo + w - 1 : lo] replaced by the low bits of `x`. -/
def putBits (v lo w x : Nat) : Nat :=
  v % 2 ^ lo + (x % 2 ^ w) * 2 ^ lo + (v >>> (lo + w)) * 2 ^ (lo + w)

/-- Bit `i` as a truth value. -/
def bitAt (v i : Nat) : Bool := v.testBit i

/-- A truth value as 0 or 1. -/
def b2n (b : Bool) : Nat := if b then 1 else 0

/-- The signed reading of a `w`-bit number. -/
def signedOf (w v : Nat) : Int :=
  if v % 2 ^ w < 2 ^ (w - 1) then ((v % 2 ^ w : Nat) : Int) else ((v % 2 ^ w : Nat) : Int) - (2 ^ w : Nat)

/-- The `w`-bit two's-complement pattern of an integer. -/
def unsignedOf (w : Nat) (x : Int) : Nat := (x % ((2 ^ w : Nat) : Int)).toNat

/-- Add to a counter that saturates at `w` bits. -/
def satAdd (w a b : Nat) : Nat := min (a + b) (2 ^ w - 1)

/-- Division rounding up. -/
def ceilDiv (a b : Nat) : Nat := (a + b - 1) / b

/-- The little-endian bytes of a number (R8). -/
def leBytes : Nat → Nat → List Byte
  | 0, _ => []
  | n + 1, v => BitVec.ofNat 8 v :: leBytes n (v / 256)

/-- The number a little-endian byte list spells. -/
def leNat : List Byte → Nat
  | [] => 0
  | b :: bs => b.toNat + 256 * leNat bs

/-- The big-endian bytes of a number (network byte order, R8). -/
def beBytes (n v : Nat) : List Byte := (leBytes n v).reverse

/-- The number a big-endian byte list spells. -/
def beNat (bs : List Byte) : Nat := leNat bs.reverse

/-- The `w`-bit pieces of a number, lowest first. -/
def chunksOf (w : Nat) : Nat → Nat → List Nat
  | 0, _ => []
  | n + 1, v => v % 2 ^ w :: chunksOf w n (v / 2 ^ w)

/-- The number whose `w`-bit pieces, lowest first, are the list. -/
def joinChunks (w : Nat) : List Nat → Nat
  | [] => 0
  | x :: xs => x % 2 ^ w + 2 ^ w * joinChunks w xs

/-- The list element at `i`, or `d` past the end. -/
def nthD {α : Type} : List α → Nat → α → α
  | [], _, d => d
  | x :: _, 0, _ => x
  | _ :: xs, n + 1, d => nthD xs n d

/-- Replace the element at `i` (nothing past the end). -/
def setNth {α : Type} : List α → Nat → α → List α
  | [], _, _ => []
  | _ :: xs, 0, y => y :: xs
  | x :: xs, n + 1, y => x :: setNth xs n y

/-- Take elements `from`, `from + 1`, … `from + n - 1`. -/
def sliceOf {α : Type} (xs : List α) (start n : Nat) : List α := (xs.drop start).take n

/-- Insert into a list kept in rising order of `key`; equal keys keep their order of arrival. -/
def insertBy {α : Type} (le : α → α → Bool) (x : α) : List α → List α
  | [] => [x]
  | y :: ys => if le y x then y :: insertBy le x ys else x :: y :: ys

/-- Stable insertion sort. -/
def sortBy {α : Type} (le : α → α → Bool) (xs : List α) : List α :=
  xs.foldl (fun acc x => insertBy le x acc) []

/-- The numbers `a`, `a + 1`, … below `a + n`. -/
def rangeFrom (a n : Nat) : List Nat := (List.range n).map (a + ·)

/-- Iterate a state function over a list, left to right. -/
def forEach {σ α : Type} (xs : List α) (f : α → σ → σ) (s : σ) : σ := xs.foldl (fun s x => f x s) s

/-- The sum of a list of numbers. -/
def sumNats (xs : List Nat) : Nat := xs.foldl (· + ·) 0

/-- The value a sparse table gives a key. -/
def tblFind {α : Type} (k : Nat) : List (Nat × α) → Option α
  | [] => none
  | (a, x) :: rest => if a = k then some x else tblFind k rest

/-- Set a key of a sparse table. -/
def tblSet {α : Type} (k : Nat) (v : α) : List (Nat × α) → List (Nat × α)
  | [] => [(k, v)]
  | (a, x) :: rest =>
    if a = k then (k, v) :: rest else if k < a then (k, v) :: (a, x) :: rest else (a, x) :: tblSet k v rest

/-- Remove a key of a sparse table. -/
def tblErase {α : Type} (k : Nat) : List (Nat × α) → List (Nat × α)
  | [] => []
  | (a, x) :: rest => if a = k then tblErase k rest else (a, x) :: tblErase k rest

/-- The value a sparse table gives a key, or a default. -/
def tblGetD {α : Type} (k : Nat) (d : α) (t : List (Nat × α)) : α := (tblFind k t).getD d

/-- Set a key to a value, removing the entry when the value is the default one. -/
def tblPut {α : Type} [DecidableEq α] (k : Nat) (d v : α) (t : List (Nat × α)) : List (Nat × α) :=
  if v = d then tblErase k t else tblSet k v t

/-- The canonical form of a sparse table: keys strictly rising, no entry equal to the default. -/
def tblWf {α : Type} [DecidableEq α] (d : α) : List (Nat × α) → Bool
  | [] => true
  | [(_, x)] => decide (x ≠ d)
  | (a, x) :: (b, y) :: rest => decide (a < b) && decide (x ≠ d) && tblWf d ((b, y) :: rest)

/-- Device memory as bytes: an unlisted address reads as zero (log entry 2). -/
abbrev Memory := List Host.Cell

/-- The canonical form of memory: addresses strictly rising, no entry equal to zero. -/
def Memory.wf (m : Memory) : Bool := tblWf (0 : Byte) m

/-- One byte of memory. -/
def memByte (m : Memory) (a : Nat) : Byte := tblGetD a 0 m

/-- Write one byte of memory; writing zero removes the entry. -/
def memPutByte (m : Memory) (a : Nat) (b : Byte) : Memory := tblPut a 0 b m

/-- Read `n` bytes from `a` on. -/
def memBytes (m : Memory) (a : Nat) : Nat → List Byte
  | 0 => []
  | n + 1 => memByte m a :: memBytes m (a + 1) n

/-- Read `n` bytes from `a` on as a little-endian number. -/
def memNat (m : Memory) (a n : Nat) : Nat := leNat (memBytes m a n)

/-- Write a list of bytes from `a` on. -/
def memPutBytes (m : Memory) (a : Nat) : List Byte → Memory
  | [] => m
  | b :: bs => memPutBytes (memPutByte m a b) (a + 1) bs

/-- Write the `n` little-endian bytes of a number. -/
def memPutNat (m : Memory) (a n v : Nat) : Memory := memPutBytes m a (leBytes n v)

/-- Write bytes under a byte-enable mask, bit `i` for byte `i`. -/
def memPutMasked (m : Memory) (a : Nat) (be : Nat) : List Byte → Memory
  | [] => m
  | b :: bs => memPutMasked (if be % 2 = 1 then memPutByte m a b else m) (a + 1) (be / 2) bs

/-- Write zeros over `n` bytes. -/
def memZero (m : Memory) (a n : Nat) : Memory := m.filter fun c => !(decide (a ≤ c.1) && decide (c.1 < a + n))

end Sys2Proof.Machine
end

