-- ==== Sys2Proof/Machine/State.lean ====
section
/-! DEFINITION. The state of the block as plain data, the reasons it can stop, and the state right after reset. -/

namespace Sys2Proof.Machine

/-- Why the machine stops with a fault. -/
inductive Fault where
  /-- No meaning of this model raises it: every command of the spec has an effect. Safe. -/
  | none
  deriving DecidableEq, Repr

/-- Why the machine refuses a command. -/
inductive Refusal where
  /-- A command the model gives no meaning yet, by its mnemonic. Raised by the dispatcher alone. Safe. -/
  | notModelled (mnemonic : String)
  deriving DecidableEq, Repr

/-- What the fuses hold (R2, R45, R516 to R520, R541). They outlive a reset. -/
structure Fuses where
  clusters   : Nat
  letter     : Nat
  digit      : Nat
  part       : Nat
  clusterMap : List Nat
  minSvn     : Nat
  keyHash    : Nat
  lifecycle  : Nat
  oui        : Nat
  romDigest  : Nat
  secret     : Nat
  stepMv     : List Nat
  deriving DecidableEq, Repr

/-- Array cycles since reset, the part of a cycle left over (in 1/1250), elapsed nanoseconds (R75) and timebase ticks. -/
structure Clock where
  cycles    : Nat
  frac      : Nat
  elapsedNs : Nat
  ticks     : Nat
  deriving DecidableEq, Repr

/-- The timebase states of R80. -/
inductive TbMode where
  | unset | acquiring | locked | holdover | lost
  deriving DecidableEq, Repr

/-- The timebase (R72 to R92). `track` is the tick and the source's time of the last accepted sample (R81), and `lastTurn` the turn before
the next boundary. -/
structure Timebase where
  acc        : BitVec 96
  rate       : BitVec 32
  mode       : TbMode
  acqOffsets : List Int
  inlierRun  : Nat
  outlierRun : Nat
  lastSample : Nat
  track      : Option (Nat × Nat)
  holdStart  : Nat
  lastEdge   : Option Nat
  announced  : Option Nat
  offset     : Int
  samples    : BitVec 32
  floor      : Nat
  lastTurn   : Option Nat
  lastWindow : Nat
  flipArmed  : Nat
  fwdArmed   : Nat
  planArmed  : Nat
  lenArmed   : Nat
  deriving DecidableEq, Repr

/-- A fault record (R18). -/
structure FaultRecord where
  code       : BitVec 8
  job        : BitVec 8
  unit       : BitVec 16
  timeValid  : Bool
  addrValid  : Bool
  lasting    : Bool
  lostBefore : Bool
  jobValid   : Bool
  seq        : BitVec 24
  time       : BitVec 64
  address    : BitVec 64
  detail     : BitVec 64
  deriving DecidableEq, Repr

/-- Fault records on their way to the event ring (R18 to R22, R415): `fresh` are those of the current cycle, which have no SEQ yet. -/
structure FaultState where
  seq    : BitVec 24
  fresh  : List FaultRecord
  buffer : List FaultRecord
  lost   : Bool
  last   : Option FaultRecord
  limits : List Nat
  deriving DecidableEq, Repr

/-- What storage holds wrong at a word or sector: the poison mark, and the positions in error (R483 to R485). -/
structure Mark where
  poison : Bool
  bits   : List Nat
  deriving DecidableEq, Repr

/-- A leaky bucket (R492). -/
structure Bucket where
  level   : Nat
  lasting : Bool
  events  : Nat
  deriving DecidableEq, Repr

/-- Fault counting, logging and scrubbing, and the halted state (R489 to R500). Buckets are keyed by class, unit and lane. `halted`
is the state of R491; `kill` says that every job stops at its next tile boundary (R491, R508), and `recover` that the Watermaster
restarts then. -/
structure EccState where
  buckets      : List (Nat × Bucket)
  logCounts    : List (Nat × Nat)
  logLost      : Bool
  linkFails    : List (Nat × Nat)
  linkLasting  : List Nat
  scrubPos     : List (Nat × Nat)
  halted       : Bool
  kill         : Bool
  recover      : Bool
  deriving DecidableEq, Repr

/-- Seals one die has counted for a region: source bits and held layer (R109). -/
structure SealCount where
  bits  : Nat
  layer : Nat
  deriving DecidableEq, Repr

/-- A varve accumulator of one region on one die (R126). -/
structure VarveAcc where
  acc    : BitVec 64
  cnt    : Nat
  poison : Bool
  deriving DecidableEq, Repr

/-- An explicit mark not yet snapshot on every die (R128). -/
structure VarveMark where
  who    : Requester
  region : Nat
  layer  : Nat
  dies   : List Nat
  sum    : VarveAcc
  deriving DecidableEq, Repr

/-- A varve record (R130). -/
structure VarveRecord where
  job        : Nat
  region     : Nat
  layer      : Nat
  explicit   : Bool
  poison     : Bool
  countSat   : Bool
  lostBefore : Bool
  count      : Nat
  digest     : Nat
  time       : Nat
  timeValid  : Bool
  node       : Nat
  seq        : Nat
  deriving DecidableEq, Repr

/-- What a routing step takes from the tables in force when its gate region seals (R61, R135): its layer's descriptor, the number of
its first placement entry, and the replica words of its experts, keyed 8 × expert + replica. -/
structure GateTables where
  desc  : List Nat
  base  : Nat
  place : List (Nat × Nat)
  deriving DecidableEq, Repr

/-- The Reservoir dies beside their bytes and banks (R109, R126 to R132). `tables` keeps, by gate region, the tables that were in force
when it sealed, where a flip has changed them since (R61, R135). -/
structure RsvState where
  sealBits  : List (Nat × SealCount)
  sealed    : List (Nat × Nat)
  sealTimes : List (Nat × Nat)
  tables    : List (Nat × GateTables)
  varve     : List (Nat × VarveAcc)
  marks     : List VarveMark
  ready     : List (Nat × VarveRecord)
  buffer    : List VarveRecord
  seq       : Nat
  lost      : Bool
  deriving DecidableEq, Repr

/-- An answer of the Sluice control (R115) to a requester. -/
structure SluiceAnswer where
  who  : Requester
  tag  : Nat
  data : List Byte
  deriving DecidableEq, Repr

/-- A Sluice channel (R112, R118, R119, R121): first copies, bit-inverted second copies, flags, counters, the answer that
waits for storage, the commands held behind it, and fenced pushes with what waits behind them. -/
structure Channel where
  head       : Nat
  headInv    : Nat
  tail       : Nat
  tailInv    : Nat
  inPacket   : Bool
  dropping   : Bool
  resetProd  : Bool
  resetCons  : Bool
  resets     : Nat
  emptyReads : Nat
  fullRefs   : Nat
  waiting    : Option SluiceAnswer
  held       : List SluiceCmd
  fenced     : List SluiceCmd
  deriving DecidableEq, Repr

/-- A placement load (R178): latched operands, entries already copied, and the cycle count at which copying began. -/
structure PlaceLoad where
  src   : Nat
  first : Nat
  count : Nat
  done  : Nat
  since : Nat
  deriving DecidableEq, Repr

/-- A token entry of a gate region as read (R140), and whether its hidden row read bad (R142). -/
structure TokenInfo where
  slot : Nat
  id   : Nat
  key  : Nat
  bad  : Bool
  deriving DecidableEq, Repr

/-- A route record (R185). `pos` is the token-list position (or the relay entry's index for a relayed record). -/
structure RouteRec where
  pos        : Nat
  tokenSlot  : Nat
  expertSlot : Nat
  replica    : Nat
  dest       : Nat
  kind       : Nat
  rank       : Nat
  relayed    : Bool
  weight     : Nat
  origin     : Nat
  retIndex   : Nat
  expert     : Nat
  deriving DecidableEq, Repr

/-- A claim of a token on an expert, with the candidate rank it holds (R160 to R163). -/
structure Claim where
  pos    : Nat
  rank   : Nat
  expert : Nat
  kind   : Nat
  deriving DecidableEq, Repr

/-- Score-priority selection in progress (R161): the round to run next, claims pending in it, claims accepted, claims
refused for good and each token's next unused extra rank. -/
structure PrioState where
  round    : Nat
  pending  : List Claim
  accepted : List Claim
  refused  : List Claim
  nextRank : List (Nat × Nat)
  done     : Bool
  deriving DecidableEq, Repr

/-- How far a routing step has come at its origin (R59). -/
inductive HgStage where
  | selecting | selected | dispatched | failed
  deriving DecidableEq, Repr

/-- A routing step at its origin (R50, R59, R142 to R171). -/
structure HgStep where
  number     : Nat
  parity     : Nat
  layer      : Nat
  desc       : List Nat
  tokens     : List TokenInfo
  hidOffset  : Nat
  hidStride  : Nat
  scores     : List (List Nat)
  preds      : List (List Nat)
  vec        : List (Nat × Nat)
  base       : Nat
  place      : List (Nat × Nat)
  board      : List (Nat × Nat)
  engines    : List Nat
  sealCycle  : Nat
  sealTime   : Nat
  deadline   : Nat
  decided    : Nat
  used       : List (Nat × Nat)
  spillUsed  : List (Nat × Nat)
  refused    : List (Nat × Nat)
  nextIn     : List (Nat × Nat)
  qNext      : List (Nat × Nat)
  prio       : Option PrioState
  records    : List RouteRec
  dropped    : Nat
  spilled    : Nat
  nextTaken  : Nat
  nanTokens  : Nat
  tiesHash   : Nat
  tiesExpert : Nat
  stage      : HgStage
  lists      : List (Nat × List RouteRec)
  unsent     : List Nat
  relayN     : List (Nat × Nat)
  deriving DecidableEq, Repr

/-- What has landed in one zone of one parity (R63): stores counted, the seal's step, tokens, stores, lines and layer once it
has landed, and whether the zone is complete or can never complete (R194 kind 1). -/
structure Landing where
  stores   : Nat
  sealWord : Option (List Nat)
  complete : Bool
  dead     : Bool
  deriving DecidableEq, Repr

/-- The work of one slot at the owner (R199 to R201): zone and entry of each row in run order, where results and their scales
lie, and whether its shape record is out and its done item in. -/
structure SlotWork where
  slot    : Nat
  rows    : List (Nat × Nat)
  result  : Nat
  scale   : Nat
  pushed  : Bool
  done    : Bool
  deriving DecidableEq, Repr

/-- A routing step at the owner of experts (R66, R199 to R202): its slots, and the return scales gathered for each zone's
entries, keyed 65,536 × zone + entry. -/
structure OwnerStep where
  number : Nat
  parity : Nat
  layer  : Nat
  slots  : List SlotWork
  scales : List (Nat × Nat)
  deriving DecidableEq, Repr

/-- The Headgate (R135, R142, R165, R177 to R182). The placement tables are keyed 8 × entry + replica. -/
structure HgState where
  placeIn   : List (Nat × Nat)
  placeSh   : List (Nat × Nat)
  load      : Option PlaceLoad
  waitLoads : List PlaceLoad
  copying   : Bool
  nextStep  : Nat
  steps     : List HgStep
  landings  : List (Nat × Landing)
  owners    : List OwnerStep
  faulted   : Bool
  missed    : List Nat
  swapDue   : List Nat
  landReset : List Nat
  retired   : List Nat
  deriving DecidableEq, Repr

/-- An operation in an agent's outstanding table (R348): who issued it, what it is, its fabric address, target node and
length, where its answer goes, and its issue time in elapsed nanoseconds, or in array
cycles for a MGMT operation sent while fabric time is not valid (R75, R360), which `timed` tells apart. -/
structure OpenOp where
  who    : Requester
  op     : Nat
  mgmt   : Bool
  addr   : Nat
  node   : Nat
  len    : Nat
  sink   : Sink
  width8 : Bool
  t0     : Nat
  timed  : Bool
  deriving DecidableEq, Repr

/-- An operation that waits at its link interface for a table entry (R348). -/
structure WaitingOp where
  cell : Cell
  op   : OpenOp
  die  : Nat
  deriving DecidableEq, Repr

/-- An ACK being gathered on a port die for a source (R349): entries as tag and status, and when the first came. -/
structure AckGather where
  entries : List (Nat × Nat)
  since   : Nat
  deriving DecidableEq, Repr

/-- A packet kept until it is acknowledged (R367, R369). -/
structure HeldPacket where
  psn   : Nat
  cells : List Cell
  sent  : Nat
  tries : Nat
  sackAt : Option Nat
  deriving DecidableEq, Repr

/-- The sending end of a connection (R366, R370). -/
structure TxConn where
  port  : Nat
  epoch : Nat
  psn   : Nat
  held  : List HeldPacket
  deriving DecidableEq, Repr

/-- The receiving end of a connection (R368, R370). -/
structure RxConn where
  epoch  : Nat
  cum    : Nat
  marks  : List Nat
  unacked : Nat
  since  : Nat
  port   : Nat
  deriving DecidableEq, Repr

/-- A sent frame kept for replay (R363): its sequence number, its cell and whether it was stomped (R312). -/
structure SentFrame where
  seq   : Nat
  cell  : Cell
  stomp : Bool
  deriving DecidableEq, Repr

/-- A cell that has arrived at a port and enters the next slot; `stomp` when its frame's check failed after cut-through began
(R312). -/
structure Arrival where
  port  : Nat
  cell  : Cell
  stomp : Bool
  deriving DecidableEq, Repr

/-- The fabric (R310 to R323, R348 to R370). Queues are keyed by port die and class (4 × die + class), by port, or by node;
`epochs` gives the connection epoch each switched port started when it last entered FORWARDING. -/
structure FabState where
  opens   : List (Nat × OpenOp)
  lost    : List (Nat × OpenOp)
  waiting : List WaitingOp
  injSeq  : Nat
  inject  : List (Nat × List Cell)
  eject   : List (Nat × List Cell)
  side    : List (Nat × List Cell)
  arrived : List Arrival
  egress  : List (Nat × List (Cell × Nat))
  ingress : List (Nat × Cell)
  acks    : List (Nat × AckGather)
  tx      : List (Nat × TxConn)
  rx      : List (Nat × RxConn)
  epochs  : List (Nat × Nat)
  drain   : List (Nat × Nat)
  drift   : List (Nat × Nat)
  slots   : Nat
  refuse  : Bool
  stopJob : Option Nat
  deriving DecidableEq, Repr

/-- What a control frame of a port carries (R304, R329): LLDP; a relayed Sync with the time it tells, its correction in 2^-16 ns and when
it came in; the device's own Sync; a Delay_Req or Pdelay_Req; and the answers to them. -/
inductive CtlBody where
  | lldp
  | relay (tai : Nat) (correction : Int) (came : Nat)
  | sync
  | delayReq
  | delayResp (requester time16 : Nat)
  | pdelayReq
  | pdelayResp (requester time16 : Nat)
  deriving DecidableEq, Repr

/-- A control frame waiting at a port (R313) and the slots it has waited. -/
structure CtlFrame where
  body   : CtlBody
  waited : Nat
  deriving DecidableEq, Repr

/-- A port's part in an exchange of PTP messages (R328, R329), as timestamps in 2^-16 ns: the arrival of a two-step Sync that waits for its
Follow_Up, the master's time and the arrival of the last Sync, and when the last Delay_Req and Pdelay_Req left. -/
structure PtpPort where
  await    : Option Nat
  syncAt   : Option (Int × Nat)
  delayAt  : Option Nat
  pdelayAt : Option Nat
  deriving DecidableEq, Repr

/-- A port beside its registers (R300 to R313, R363 to R365). Times are elapsed nanoseconds (R75). `openL` and `shortL` mask the physical
lanes found open and shorted (R301), `order` gives the physical receive lane of each logical lane (R302), `used` masks the logical
lanes in use, and `pauseTo` is when a reload of the link-management microcontroller ends (R307). -/
structure PortState where
  phase     : Nat
  since     : Nat
  retrainAt : Option Nat
  partner   : Option (Nat × Nat)
  expire    : Option Nat
  lldpAt    : Nat
  txSeq     : Nat
  rxAck     : Nat
  rxAny     : Bool
  rxMarks   : List Nat
  replay    : List SentFrame
  again     : List (Nat × Nat)
  nakDue    : Bool
  ackDue    : Bool
  ctl       : List CtlFrame
  slots     : Nat
  occ       : Nat
  defl      : Nat
  replays   : Nat
  uncorr    : Nat
  openL     : Nat
  shortL    : Nat
  order     : List Nat
  used      : Nat
  pauseTo   : Nat
  ptp       : PtpPort
  deriving DecidableEq, Repr

/-- A control core or Watermaster core (R212, R255, R350, R357): integer and floating-point registers by number, the machine
registers a trap uses, its Sluice port, its atomic port, the loads of those ports that wait (set-up offset, length and where the value
goes), a FENCE in progress and the first failed store since the last one. -/
structure CoreState where
  x         : List (Nat × Nat)
  f         : List (Nat × Nat)
  fcsr      : Nat
  pc        : Nat
  machine   : Bool
  mstatus   : Nat
  mtvec     : Nat
  mepc      : Nat
  mcause    : Nat
  mtval     : Nat
  mie       : Nat
  mip       : Nat
  slcBusy   : Bool
  slcWait   : List SluiceCmd
  slcTag    : Option Nat
  slcData   : List Byte
  atomWait  : List Nat
  loads     : List (Nat × (Nat × Sink))
  fencing   : Bool
  storeFail : Option Nat
  deriving DecidableEq, Repr

/-- A tile command in the queue with its latched Flume descriptors (R226, R259). -/
structure TileEntry where
  words : List Nat
  flmA  : List Nat
  flmB  : List Nat
  deriving DecidableEq, Repr

/-- A command of any of a cluster's queues that has issued (R232, R246, R273): the buffers it reads with their release flags,
the buffers it writes, its tag, the cycle at which it ends, and whether it faulted. For a tile command also its form and
sub-array. -/
structure RunCmd where
  ins   : List (Nat × Bool)
  outs  : List Nat
  tag   : Nat
  stop  : Nat
  fault : Bool
  form  : Nat
  sub   : Nat
  deriving DecidableEq, Repr

/-- A running DMA descriptor (R221): its words, the data of a CRC descriptor by offset, and data read but not yet stored to a
fabric destination: address, poison and bytes. -/
structure DmaRun where
  words  : List Nat
  pieces : List (Nat × List Byte)
  unsent : List (Nat × Bool × List Byte)
  deriving DecidableEq, Repr

/-- A cluster beside its scratchpad, registers and cores (R217 to R246, R259, R273, R290). `latches` is keyed by push window
(0 tile, 1 and 2 DMA, 3 vector, 4 Flume), times 4, plus the core; `held` holds by the same key the pushes whose store waits for a place;
`acc` is the accumulator file by row × 128 + column. -/
structure Cluster where
  latches  : List (Nat × List Nat)
  held     : List (Nat × List Nat)
  tiles    : List TileEntry
  running  : List RunCmd
  acc      : List (Nat × Nat)
  busyFrom : Nat
  vecs     : List (List Nat)
  vecRun   : Option RunCmd
  dmaQ     : List (Nat × List (List Nat))
  dmaRun   : List (Nat × DmaRun)
  flmQ     : List (List Nat)
  flmRun   : Option RunCmd
  flmFrom  : Nat
  audit    : Option (Nat × (Nat × Nat))
  stop     : Bool
  deriving DecidableEq, Repr

/-- How far a chunk is at its sender (R386): waiting for its slot, its data stores sent, its header sent. -/
inductive ColStage where
  | queued | storing | header
  deriving DecidableEq, Repr

/-- A chunk the collective program sends or has sent and keeps until it is acknowledged (R386 to R389): receiver slot, pair counter, global
index, PHASE, ATTEMPT, payload and whether it is poisoned, where its source stands when that is SRC itself, how far it is, whether one of
its stores was lost, whether it has been re-sent, and whether its cluster was retired meanwhile (R399). -/
structure ColSend where
  peer    : Nat
  t       : Nat
  k       : Nat
  phase   : Nat
  attempt : Nat
  data    : List Byte
  poison  : Bool
  src     : Option Nat
  stage   : ColStage
  lost    : Bool
  again   : Bool
  moved   : Bool
  deriving DecidableEq, Repr

/-- How far the collective program is (R379, R392, R396): waiting for its cores, reading SRC, moving chunks, closing. -/
inductive ColPhase where
  | waiting | reading | moving | closing
  deriving DecidableEq, Repr

/-- The collective program at work (R380 to R396): its mode, DESC_HASH, the cores in it, the pieces of SRC read (offset, poison and bytes),
the chunks to send or not yet acknowledged, the next pair counter for each receiver, the ring steps begun, for each sender the chunks taken
and the ATTEMPT of the next one already answered as bad, the contributions of a direct reduce-scatter (slot and chunk of the shard), the CRC
of each chunk of the result, the cause of its own poisoned verdict (0 none), chunks re-sent, its FINISH, and the slots to which its closing
record is on its way or stands. -/
structure ColRun where
  phase   : ColPhase
  canon   : Bool
  hash    : Nat
  cores   : List Nat
  src     : List (Nat × (Bool × List Byte))
  sends   : List ColSend
  next    : List (Nat × Nat)
  steps   : Nat
  took    : List (Nat × (Nat × Option Nat))
  parts   : List ((Nat × Nat) × List Byte)
  crcs    : List (Nat × Nat)
  cause   : Nat
  resends : Nat
  finish  : Nat
  out     : List Nat
  closed  : List Nat
  deriving DecidableEq, Repr

/-- The collective unit beside its registers (R376 to R399): words latched per core, the running descriptor with CHUNK_LOG2
resolved, members and own slot, the launch list, clusters that have written COL_FINISH, COL_FINISH_RES words, the lead's COL_FINISH
word, the deadline, when the collective interrupt was raised, the collective program at work, and the sealed gate regions whose seal
signal has come and whose routing step has not started, with the cycle and the fabric time at which it came (R55, R59, R375). -/
structure ColState where
  latches  : List (Nat × List Nat)
  desc     : List Nat
  members  : Nat
  own      : Nat
  list     : List Nat
  finished : List Nat
  res      : List (Nat × Nat)
  lead     : Nat
  deadline : Nat
  raised   : Option Nat
  run      : ColRun
  seals    : List (Nat × (Nat × Nat))
  deriving DecidableEq, Repr

/-- A ring as the device holds it (R410, R411, R422, R438). -/
structure RingState where
  head     : Nat
  tail     : Nat
  reserved : Nat
  recent   : List (Nat × List Byte)
  deriving DecidableEq, Repr

/-- A write to companion memory by the host writer or another requester, not yet performed (R408). -/
structure CompanionWrite where
  who  : Requester
  addr : Nat
  data : List Byte
  deriving DecidableEq, Repr

/-- An engine read of companion memory that waits for its line (R405, R407): the companion address, the length, and where the
data go. -/
structure CompanionRead where
  who  : Requester
  addr : Nat
  len  : Nat
  sink : Sink
  deriving DecidableEq, Repr

/-- A coherence request outstanding: its tag, its line and whether it asks for ownership and data. -/
structure LineRequest where
  txn  : Nat
  line : Nat
  own  : Bool
  deriving DecidableEq, Repr

/-- How far a request has come in the request table (R426, R427, R429, R432): waiting for a slot, holding one, a CALL
outstanding, or a SESSION_CLOSE whose session's holder has not committed yet. -/
inductive ReqStage where
  | waiting | running | calling | closing
  deriving DecidableEq, Repr

/-- A request in the Watermaster's request table (R416, R426, R432). `inStep` while it is part of the decode step in progress;
`ending` is the status it will commit with, and `stopped` says that its last step is over. -/
structure Request where
  ring     : Nat
  ptr      : Nat
  job      : Nat
  op       : Nat
  flags    : Nat
  tag      : Nat
  session  : Nat
  count    : Nat
  deadline : Nat
  result   : Nat
  resMax   : Nat
  dclass   : Nat
  stage    : ReqStage
  accepted : Nat
  grant    : Nat
  produced : Nat
  left     : Nat
  data     : List Byte
  inStep   : Bool
  ending   : Option Nat
  stopped  : Bool
  deriving DecidableEq, Repr

/-- A companion line the coherence agent holds (R405, R408). -/
structure LineHold where
  owned : Bool
  dirty : Bool
  deriving DecidableEq, Repr

/-- Travo Link, rings, sessions and requests (R403 to R438). `sent` is the replay buffer; `kv` holds, by session, the pages and
list blocks of its KV state; `winStop` says that the admission window stopped a ring in this turn. -/
structure TlState where
  cmem      : Memory
  lines     : List (Nat × LineHold)
  writes    : List CompanionWrite
  reads     : List CompanionRead
  lineReqs  : List LineRequest
  nextTxn   : Nat
  txSeq     : Nat
  rxSeq     : Nat
  sent      : List (Nat × TravoFlit)
  rxFails   : Nat
  txFails   : Nat
  rings     : List (Nat × RingState)
  marked    : List (Nat × Nat)
  requests  : List Request
  accepts   : Nat
  grants    : List (Nat × Nat)
  steps     : List (Nat × Nat)
  lastRing  : Nat
  measureS  : List (Nat × (Nat × Nat))
  measureP  : List (Nat × (Nat × Nat))
  stepStart : List (Nat × Nat)
  kv        : List (Nat × (List Nat × List Nat))
  winStop   : Bool
  deriving DecidableEq, Repr

/-- The context of a job as its image holds it (R443): its registers by address, Headgate progress, what the Reservoir dies hold
about seals and varves, its Sluice channels, its clusters' queues, its control cores, the collective unit, and the clusters present when
it was saved (R506). -/
structure Context where
  regs  : List (Nat × Word)
  hg    : HgState
  seals : List (Nat × SealCount)
  held  : List (Nat × Nat)
  times : List (Nat × Nat)
  gates : List (Nat × GateTables)
  varve : List (Nat × VarveAcc)
  vmark : List VarveMark
  chans : List (Nat × Channel)
  cls   : List (Nat × Cluster)
  cores : List (Nat × CoreState)
  col   : ColState
  present : BitVec 32
  deriving DecidableEq, Repr

/-- How far a switch has come (R457): none in progress, engines heading for their stop points, saving, reloading, and ready but
waiting for the resume point. -/
inductive SwitchPhase where
  | none | stopping | saving | reloading | ready
  deriving DecidableEq, Repr

/-- A swap in progress (R446): the job, whether it is swapped out, and its save-area slot. -/
structure SwapRun where
  job  : Nat
  out  : Bool
  slot : Nat
  deriving DecidableEq, Repr

/-- The job scheduler beside its registers (R445 to R461). `stopped` says that the engines are stopped, `held` is the job whose context the
device still holds while it is out, and `want` the switch asked for by a turn boundary inside a switch: its job, whether by a GANG slot,
and the boundary's time.
`colFail` is when the device's last failed collective completed, in elapsed nanoseconds, whatever its job (R390).
`edge` is the turn boundary of the switch, `since` the end of the switch that started the loaded job, `idleAt` the moment from
which idle time counts. Other times are fabric times. -/
structure SwitchState where
  phase   : SwitchPhase
  stopped : Bool
  edge    : Nat
  outJob  : Option Nat
  inJob   : Option Nat
  gang    : Bool
  late0   : Bool
  drained : Bool
  ended   : Bool
  held    : Option Nat
  want    : Option (Option Nat × Bool × Nat)
  since   : Nat
  free    : Bool
  idleAt  : Option Nat
  images  : List (Nat × Context)
  leftAt  : List (Nat × Nat)
  swaps   : List SwapRun
  colFail : Option Nat
  deriving DecidableEq, Repr

/-- An entry of the measurement log (R517): register, type and digest; its place is its sequence number. -/
structure LogEntry where
  reg    : Nat
  type   : Nat
  digest : List Byte
  deriving DecidableEq, Repr

/-- What the boot ROM keeps (R514 to R518): where the image lies in the companion window and its length, the digests of the board
descriptor and the soft-repair list until they extend their registers, the image given with a request of R508, the collective program of the
image (R373), and the measurement log. -/
structure BootState where
  imageAddr : Nat
  imageLen  : Nat
  early     : List (Nat × List Byte)
  image     : List Byte
  program   : List Byte
  log       : List LogEntry
  deriving DecidableEq, Repr

/-- Power, clock steps and the sideband (R539 to R550): the trip and the level of RESET_N, SMBALERT_N asserted, SMB_ADDR, when RESET_N
rose, since when TJ_MAX and the power have been low enough to step up, the step that waits for its voltage, the tick at which the
clock changes and its new step, consecutive sense readings apart by pair, and failed tries of an AVSBus operation by rail and
operation. Times are elapsed nanoseconds (R75). -/
structure PowerState where
  trip     : Bool
  resetLow : Bool
  alert    : Bool
  smbAddr  : Nat
  rose     : Nat
  cool     : Option Nat
  low      : Option Nat
  stepUp   : Option Nat
  clockAt  : Option (Nat × Nat)
  sense    : List (Nat × Nat)
  avsFails : List (Nat × Nat)
  deriving DecidableEq, Repr

/-- An open management channel (R524, R525): its session, its keys and the manager's outbound mailbox. -/
structure MgSession where
  id   : Nat
  kIn  : List Byte
  kOut : List Byte
  node : Nat
  off  : Nat
  deriving DecidableEq, Repr

/-- A handshake between HELLO and READY (R525): session, HELLO and OFFER payloads, the number of the free key pair, the manager's public
key and mailbox. -/
structure Handshake where
  id    : Nat
  hello : List Byte
  ek    : List Byte
  offer : List Byte
  key   : Nat
  pub   : List Byte
  node  : Nat
  off   : Nat
  deriving DecidableEq, Repr

/-- A piece of the management firmware's fabric work, done in order (R522, R531, R532): stores, a copy of local HBM, a fence, a load
repeated until it reads zero, a load of a HAVE bitmap, an atomic OR, and sending a child what its bitmap lacks. -/
inductive MgTask where
  | store (a : Nat) (data : List Byte)
  | copy (a src n : Nat)
  | fence
  | await (a : Nat)
  | load (a : Nat)
  | orMask (a mask : Nat)
  | missing (child : Nat)
  | notice (child idx : Nat)
  deriving DecidableEq, Repr

/-- An attestation report asked for (R521): its nonce, and whether the OFFER of the handshake waits for it. -/
structure AttestJob where
  nonce : List Byte
  offer : Bool
  deriving DecidableEq, Repr

/-- A launch (R530 to R532). `sent` holds, by 65,536 × child + chunk, when a notice was stored and whether it has been sent twice and
reported. -/
structure Launch where
  id       : Nat
  chunks   : Nat
  chunkLog : Nat
  digest   : List Byte
  dest     : Nat
  ctrl     : Nat
  parent   : Nat
  children : List Nat
  tAck     : Nat
  listOk   : Bool
  have_    : List Nat
  sent     : List (Nat × (Nat × Nat))
  deriving DecidableEq, Repr

/-- How far a teardown has come (R533). -/
inductive TearStage where
  | waiting | quiescing | draining
  deriving DecidableEq, Repr

/-- A teardown: its job, its stage and when the drain began, in elapsed nanoseconds. -/
structure Teardown where
  job   : Nat
  stage : TearStage
  since : Nat
  deriving DecidableEq, Repr

/-- The management channel (R520 to R533). `waits` says that the head task's load is on its way and `got` is its answer. -/
structure MgState where
  session : Option MgSession
  shakes  : List Handshake
  lastIn  : Nat
  outSeq  : Nat
  attest  : List AttestJob
  tasks   : List MgTask
  waits   : Bool
  got     : Option (List Byte)
  bitmap  : List Byte
  launch  : Option Launch
  tear    : Option Teardown
  deriving DecidableEq, Repr

/-- What the block sends out or answers: the model's own record, newest last (log entry 3). -/
inductive Output where
  /-- Data, or the end of a write, answered to an engine, with its status code. -/
  | bus (who : Requester) (addr : Nat) (status : Nat) (data : List Byte)
  /-- A Sluice answer tag and item data (R115). -/
  | sluice (who : Requester) (tag : Nat) (data : List Byte)
  /-- A replay asked of the sender on a data-plane link (R31). -/
  | replay (link : Nat)
  /-- The region whose seal signal reached the engines that wait on it, and its layer (R55). -/
  | sealSignal (region layer : Nat)
  /-- An event to the Watermaster and, on the MGMT class, to the fabric manager (R83). -/
  | event (code detail : Nat)
  /-- A cell frame on a port: its Ethernet header (R308), its link header and the cell it carries, none when EMPTY (R309). -/
  | frame (port : Nat) (mac : List Byte) (header : Nat) (cell : Option Cell)
  /-- A stomped frame on a port (R312). -/
  | stomped (port : Nat) (mac : List Byte) (header : Nat) (cell : Cell)
  /-- An LLDP frame on a port (R304). -/
  | lldp (port : Nat) (content : List Byte)
  /-- A PTP message on a port: by UDP or Ethernet, its domain, and what it is (R328, R329). -/
  | ptp (port : Nat) (udp : Bool) (domain : Nat) (message : PtpMessage)
  /-- An answer to a Delay_Req or Pdelay_Req: to whom, and the hardware timestamps of the request's arrival and of the answer's
  departure, in 2^-16 ns (R328, R329). -/
  | ptpAnswer (port : Nat) (udp : Bool) (domain requester arrived left : Nat)
  /-- A Jorper packet on a switched port: its outer headers and Jorper header, and the packet (R326, R366). -/
  | packet (port : Nat) (headers : List Byte) (p : SwPacket)
  /-- A Neighbor Advertisement that answers a solicitation on a switched port (R327). -/
  | advert (port : Nat)
  /-- A flit on Travo Link toward the companion, with its replay sequence number (R404). -/
  | travo (f : TravoFlit) (seq : Nat)
  /-- A NAK toward the companion: replay from the flit after `ack` (R404, R406). -/
  | travoNak (ack : Nat)
  /-- Bytes the SMBus target answers, its PEC last (R549). -/
  | smbus (data : List Byte)
  /-- A NACK of the SMBus target (R549). -/
  | smbusNack
  deriving DecidableEq, Repr

/-- The whole block. `banks` gives the cycle until which a Reservoir bank is occupied, keyed 64 × die + bank (R100). -/
structure State where
  fuses   : Fuses
  clock   : Clock
  tb      : Timebase
  lock    : Bool
  present : BitVec 32
  regs    : List (Nat × Word)
  mem     : Memory
  marks   : List (Nat × Mark)
  ecc     : EccState
  rsv     : RsvState
  banks   : List (Nat × Nat)
  chans   : List (Nat × Channel)
  hg      : HgState
  fab     : FabState
  ports   : List (Nat × PortState)
  cores   : List (Nat × CoreState)
  cls     : List (Nat × Cluster)
  col     : ColState
  tl      : TlState
  sw      : SwitchState
  boot    : BootState
  pwr     : PowerState
  mg      : MgState
  flt     : FaultState
  out     : List Output
  free    : Nat
  pending : List Instr
  deriving DecidableEq, Repr

-- Reset ------------------------------------------------------------------------------------------------------------

/-- The Headgate with nothing in progress (R135, R177). -/
def HgState.reset : HgState :=
  { placeIn := [], placeSh := [], load := none, waitLoads := [], copying := false, nextStep := 0, steps := [], landings := [],
    owners := [], faulted := false, missed := [], swapDue := [], landReset := [], retired := [] }

/-- The Headgate at a job's start (R50): routing steps count from 0 and none is in progress; what has landed and the tables stay. -/
def HgState.newJob (h : HgState) : HgState :=
  { h with nextStep := 0, steps := [], owners := [], faulted := false, missed := [], swapDue := [], landReset := [] }

/-- The collective program with nothing begun, at a launch (R379, R386). -/
def ColRun.reset : ColRun :=
  { phase := .waiting, canon := false, hash := 0, cores := [], src := [], sends := [], next := [], steps := 0, took := [], parts := [],
    crcs := [], cause := 0, resends := 0, finish := 0, out := [], closed := [] }

/-- The collective unit with no collective launched (R379). -/
def ColState.reset : ColState :=
  { latches := [], desc := List.replicate 8 0, members := 0, own := 0, list := [], finished := [], res := [], lead := 0,
    deadline := 0, raised := none, run := ColRun.reset, seals := [] }

/-- The fuses of the modelled part: a ZTK-2032A-B0 whose clusters map straight through, with the typical step voltages of R541 (log
entry 1). -/
def Fuses.sample : Fuses :=
  { clusters := 32, letter := 2, digit := 0, part := 0x2032, clusterMap := List.range 32, minSvn := 0, keyHash := 0, lifecycle := 1,
    oui := 0, romDigest := 0, secret := 0, stepMv := [720, 690, 660, 640, 620, 720] }

/-- The block right after reset, with given fuses: the registers whose reset value comes from the fuses or from the regulator's start-up
hold it (R45, R534, R536, R551), every other one its reset value; the timebase is UNSET at the nominal rate; nothing is queued, held
or in progress (R80, R511; log entries 1 to 6). -/
def State.atReset (f : Fuses) : State :=
  { fuses := f
    clock := ⟨0, 0, 0, 0⟩
    tb := { acc := 0, rate := 3435973837, mode := .unset, acqOffsets := [], inlierRun := 0, outlierRun := 0, lastSample := 0,
            track := none, holdStart := 0, lastEdge := none, announced := none, offset := 0, samples := 0, floor := 0, lastTurn := none,
            lastWindow := 0, flipArmed := 0, fwdArmed := 0, planArmed := 0, lenArmed := 0 }
    lock := false
    present := BitVec.ofNat 32 (2 ^ f.clusters - 1)
    regs := [(0, BitVec.ofNat 64 (f.clusters % 256 + f.letter % 16 * 2 ^ 8 + f.digit % 16 * 2 ^ 12 + f.part % 65536 * 2 ^ 16)),
             (0x7000040, BitVec.ofNat 64 (f.oui % 2 ^ 24)), (0xe000000, BitVec.ofNat 64 (f.lifecycle % 4)),
             (0xe000010, BitVec.ofNat 64 (f.minSvn % 2 ^ 32)), (0xf000010, 720), (0xf000018, 800)].filter fun e => e.2 != 0
    mem := []
    marks := []
    ecc := { buckets := [], logCounts := [], logLost := false, linkFails := [], linkLasting := [], scrubPos := [], halted := false,
             kill := false, recover := false }
    rsv := { sealBits := [], sealed := [], sealTimes := [], tables := [], varve := [], marks := [], ready := [], buffer := [],
             seq := 0, lost := false }
    banks := []
    chans := []
    hg := HgState.reset
    fab := { opens := [], lost := [], waiting := [], injSeq := 0, inject := [], eject := [], side := [], arrived := [], egress := [],
             ingress := [], acks := [], tx := [], rx := [], epochs := [], drain := [], drift := [], slots := 0, refuse := false,
             stopJob := none }
    ports := []
    cores := []
    cls := []
    col := ColState.reset
    tl := { cmem := [], lines := [], writes := [], reads := [], lineReqs := [], nextTxn := 0, txSeq := 4095, rxSeq := 4095, sent := [],
            rxFails := 0, txFails := 0, rings := [], marked := [], requests := [], accepts := 0, grants := [], steps := [],
            lastRing := 0, measureS := [], measureP := [], stepStart := [], kv := [], winStop := false }
    sw := { phase := .none, stopped := false, edge := 0, outJob := none, inJob := none, gang := false, late0 := false,
            drained := false, ended := false, held := none, want := none, since := 0, free := false, idleAt := none, images := [], leftAt := [], swaps := [], colFail := none }
    boot := { imageAddr := 0, imageLen := 0, early := [], image := [], program := [], log := [] }
    pwr := { trip := false, resetLow := false, alert := false, smbAddr := 0, rose := 0, cool := none, low := none, stepUp := none,
             clockAt := none, sense := [], avsFails := [] }
    mg := { session := none, shakes := [], lastIn := 0, outSeq := 0, attest := [], tasks := [], waits := false, got := none,
            bitmap := [], launch := none, tear := none }
    flt := { seq := 0, fresh := [], buffer := [], lost := false, last := none, limits := [] }
    out := []
    free := 0
    pending := [] }

/-- The machine right after reset. -/
def State.reset : State := State.atReset Fuses.sample

end Sys2Proof.Machine
end

