-- ==== Sys2Proof/Machine/Ops.lean ====
section
/-! DEFINITION. The named operations every command is built from: set-up registers, time stamps, output, companion memory and
its rings, and fault records (R12 to R22, R408 to R415). -/

namespace Sys2Proof.Machine

-- Registers --------------------------------------------------------------------------------------------------------

/-- The stored word of the set-up register at offset `a`; a register nothing has changed holds its reset word. -/
def State.reg (s : State) (a : Nat) : Nat :=
  match tblFind a s.regs with
  | some w => w.toNat
  | none => regResetNat a

/-- Store a word in the register file, keeping only what differs from reset. -/
def State.setReg (s : State) (a v : Nat) : State :=
  { s with regs := tblPut a (BitVec.ofNat 64 (regResetNat a)) (BitVec.ofNat 64 v) s.regs }

/-- A field of the register at `a`. -/
def State.fld (s : State) (a : Nat) (f : BitField) : Nat := bitsOf (s.reg a) f.lo f.w

/-- A one-bit field as a truth value. -/
def State.flag (s : State) (a : Nat) (f : BitField) : Bool := s.fld a f == 1

/-- Set a field of the register at `a`. -/
def State.setFld (s : State) (a : Nat) (f : BitField) (v : Nat) : State := s.setReg a (putBits (s.reg a) f.lo f.w v)

/-- Set a one-bit field. -/
def State.setFlag (s : State) (a : Nat) (f : BitField) (b : Bool) : State := s.setFld a f (b2n b)

/-- Count in a field that saturates. -/
def State.countSat (s : State) (a : Nat) (f : BitField) (n : Nat) : State := s.setFld a f (satAdd f.w (s.fld a f) n)

/-- Count in a field that wraps. -/
def State.countWrap (s : State) (a : Nat) (f : BitField) (n : Nat) : State := s.setFld a f (s.fld a f + n)

/-- The listed registers in an address range, as offset from its start and word. -/
def State.regRange (s : State) (a n : Nat) : List (Nat × Nat) :=
  (s.regs.filter fun e => decide (a ≤ e.1) && decide (e.1 < a + n)).map fun e => (e.1 - a, e.2.toNat)

/-- Append to what the block has sent. -/
def State.emit (s : State) (o : Output) : State := { s with out := s.out ++ [o] }

/-- Take a value the spec leaves open (log entry 7): the value, and the state with the counter advanced. -/
def State.takeFree (s : State) (k : FreeKind) : Nat × State := (Config.free k s.free, { s with free := s.free + 1 })

-- Cores ------------------------------------------------------------------------------------------------------------

/-- A core right after reset: every register zero, machine mode; the collective interrupt's enable is set (R379). -/
def CoreState.reset : CoreState :=
  { x := [], f := [], fcsr := 0, pc := 0, machine := true, mstatus := 0, mtvec := 0, mepc := 0, mcause := 0, mtval := 0,
    mie := 2 ^ 24, mip := 0, slcBusy := false, slcWait := [], slcTag := none, slcData := [], atomWait := [], loads := [],
    fencing := false, storeFail := none }

/-- The key of a core: control cores by cluster, then the Watermaster cores. -/
def coreKey : Requester → Option Nat
  | .core n k => some (4 * n + k)
  | .wm k => some (128 + k)
  | _ => none

def State.core (s : State) (i : Nat) : CoreState := tblGetD i CoreState.reset s.cores
def State.setCore (s : State) (i : Nat) (c : CoreState) : State := { s with cores := tblPut i CoreState.reset c s.cores }

/-- Change a core in place. -/
def State.onCore (s : State) (i : Nat) (f : CoreState → CoreState) : State := s.setCore i (f (s.core i))

/-- An integer register; x0 reads as zero. -/
def CoreState.readX (c : CoreState) (r : Nat) : Nat := if r % 32 = 0 then 0 else tblGetD (r % 32) 0 c.x

/-- Write an integer register; x0 discards the write. -/
def CoreState.writeX (c : CoreState) (r v : Nat) : CoreState :=
  if r % 32 = 0 then c else { c with x := tblPut (r % 32) 0 (v % 2 ^ 64) c.x }

/-- Move on past an instruction of `n` bytes. -/
def CoreState.advance (c : CoreState) (n : Nat) : CoreState := { c with pc := (c.pc + n) % 2 ^ 64 }

/-- The loads of its ports that waited and now have a value return (R255, R357). -/
def CoreState.loadsReturn (c : CoreState) (val : Nat → Option Nat) : CoreState :=
  c.loads.foldl (fun c e =>
    match val e.1, e.2.2 with
    | some v, .reg rd n => (c.writeX rd (v % 2 ^ (8 * e.2.1))).advance n
    | _, _ => c) { c with loads := c.loads.filter fun e => (val e.1).isNone }

/-- The loads of the ports of cluster `n` that waited on any of its cores and now have a value return. -/
def State.loadsReturn (s : State) (n : Nat) (val : Nat → Option Nat) : State :=
  (List.range 4).foldl (fun s k => s.onCore (4 * n + k) fun c => c.loadsReturn val) s

-- Time -------------------------------------------------------------------------------------------------------------

/-- Fabric time: the integer part of the accumulator (R72). -/
def State.now (s : State) : Nat := s.tb.acc.toNat / 2 ^ 32

/-- Fabric time is valid in LOCKED, HOLDOVER and LOST (R80). -/
def TbMode.valid : TbMode → Bool
  | .unset => false
  | .acquiring => false
  | .locked => true
  | .holdover => true
  | .lost => true

/-- Is fabric time valid? -/
def State.timeValid (s : State) : Bool := s.tb.mode.valid

/-- The TIME of a record: fabric time, or the cycle count while fabric time is not valid (R20). -/
def State.stamp (s : State) : Nat := if s.timeValid then s.now else s.clock.cycles

/-- The counter-window exponent in force (R92). -/
def State.winLog (s : State) : Nat := s.fld Reg.FT_WINDOW Fld.FT_WINDOW_WIN_LOG2

/-- The number of the counter window, or cycle window, that holds now (R92). -/
def State.window (s : State) : Nat := s.stamp / 2 ^ s.winLog

/-- The running job, when one runs (R462). -/
def State.job (s : State) : Option Nat :=
  if s.flag Reg.WM_SCHED Fld.WM_SCHED_RUN_VALID then some (s.fld Reg.WM_SCHED Fld.WM_SCHED_RUNNING) else none

/-- The running job's number, 0 when none runs. -/
def State.jobNum (s : State) : Nat := s.job.getD 0

/-- Does a collective run (R375, R379)? -/
def State.colBusy (s : State) : Bool := s.flag Reg.COL_STATUS Fld.COL_STATUS_BUSY

/-- Have the Headgate's stages and the queues been stopped by a preemption request (R455), or a collective (R375)? -/
def State.hgHeld (s : State) : Bool := s.colBusy || s.sw.stopped

/-- This device's node number (R333). -/
def State.node (s : State) : Nat := s.fld Reg.FWD_IDENT Fld.FWD_IDENT_NODE

/-- The highest-numbered cluster block that exists, and whether logical cluster `n` is enabled and not retired (R3, R46). -/
def State.clusterPresent (s : State) (n : Nat) : Bool := s.present.getLsbD n

-- Units ------------------------------------------------------------------------------------------------------------

/-- The physical cluster of a logical one (R2). -/
def State.physical (s : State) (n : Nat) : Nat := nthD s.fuses.clusterMap n n

/-- The logical cluster of a physical one, when one maps to it. -/
def State.logical (s : State) (p : Nat) : Option Nat :=
  (List.range s.fuses.clusters).find? fun n => s.physical n == p

/-- UNIT of a block inside a cluster (R19, R27). -/
def State.clusterUnit (s : State) (n block : Nat) : Nat :=
  (s.physical n / 4) * 0x100 + (s.physical n % 4) * 0x10 + block

/-- UNIT of the part of a Headgate engine (R27). -/
def engineUnit (e part : Nat) : Nat := 0x2000 + (e / 2) * 0x100 + (e % 2) * 0x10 + part

/-- UNIT of a requester (R27). A port die reports as its Jorper agent. -/
def State.unitOf (s : State) : Requester → Nat
  | .core n k => s.clusterUnit n (4 + k)
  | .dma n e => s.clusterUnit n (8 + e)
  | .array n => s.clusterUnit n 0
  | .flume n => s.clusterUnit n 2
  | .vector n => s.clusterUnit n 3
  | .engine e part => engineUnit e part
  | .wm k => 0x4000 + k
  | .port d => 0x3013 + d * 0x100
  | .link => 0x5001
  | .control => 0x4014
  | .hbm stack _ => 0x1060 + stack / 2 * 0x100 + stack % 2

/-- The Reservoir port a requester uses (R29). -/
def State.rsvPortOf (s : State) : Requester → Nat
  | .core n _ => s.physical n / 4
  | .dma n _ => s.physical n / 4
  | .array n => s.physical n / 4
  | .flume n => s.physical n / 4
  | .vector n => s.physical n / 4
  | .engine e _ => 12 + e / 2
  | .wm _ => 15
  | .port _ => 14
  | .link => 15
  | .control => 15
  | .hbm stack half => 8 + stack % 2 * 2 + half

/-- Which of the dies that share a Reservoir port a requester belongs to (R29): the port die at port 14; the link die, then the control die,
at port 15. -/
def portShare : Requester → Nat
  | .port d => d % 4
  | .wm _ => 1
  | .control => 1
  | _ => 0

/-- How many dies take turns at a Reservoir port (R29). -/
def portTurns (p : Nat) : Nat := if p = 14 then 4 else if p = 15 then 2 else 1

/-- Does requester `a` come no later than `b` in the turns of the port they share (R29)? The turn passes on every cycle; which die it
stands at in cycle 0 is open (log entry 7). -/
def State.turnBefore (s : State) (a b : Requester) : Bool :=
  let n := portTurns (s.rsvPortOf a)
  let place (r : Requester) : Nat := (portShare r + n - (s.clock.cycles + Config.portTurn) % n) % n
  portShare a == portShare b || decide (place a ≤ place b)

/-- Status and fault codes (R15 and the chapters that add to it). -/
def Code.ok : Nat := 0x00
def Code.aborted : Nat := 0x01
def Code.alreadyDone : Nat := 0x02
def Code.requestInvalid : Nat := 0x03
def Code.sessionBusy : Nat := 0x04
def Code.notFound : Nat := 0x05
def Code.deadlineMissed : Nat := 0x10
def Code.lateAtAdmission : Nat := 0x11
def Code.sealLate : Nat := 0x12
def Code.timeUnlocked : Nat := 0x13
def Code.switchLate : Nat := 0x14
def Code.clockStepped : Nat := 0x15
def Code.metadataFault : Nat := 0x20
def Code.indexRange : Nat := 0x21
def Code.tileInvalid : Nat := 0x22
def Code.bufferBusy : Nat := 0x23
def Code.targetLost : Nat := 0x30
def Code.windowViolation : Nat := 0x31
def Code.partitionMismatch : Nat := 0x32
def Code.addressUnmapped : Nat := 0x33
def Code.slotUnknown : Nat := 0x34
def Code.cellDropped : Nat := 0x35
def Code.portState : Nat := 0x36
def Code.remoteRefused : Nat := 0x37
def Code.lateApplied : Nat := 0x38
def Code.pathLost : Nat := 0x39
def Code.uncorrectable : Nat := 0x40
def Code.poisoned : Nat := 0x41
def Code.unitLasting : Nat := 0x42
def Code.voteLost : Nat := 0x43
def Code.wmRecovered : Nat := 0x44
def Code.channelReset : Nat := 0x50
def Code.collectivePoisoned : Nat := 0x60
def Code.collectiveInvalid : Nat := 0x61
def Code.capacityRefused : Nat := 0x70
def Code.zoneOverflow : Nat := 0x71
def Code.kvExhausted : Nat := 0x72
def Code.setupLocked : Nat := 0x80
def Code.regionInvalid : Nat := 0x81
def Code.layerInvalid : Nat := 0x82
def Code.ringInvalid : Nat := 0x83
def Code.mgmtRefused : Nat := 0x84
def Code.zoneInvalid : Nat := 0x85

-- Detecting faults --------------------------------------------------------------------------------------------------

/-- The key of a leaky bucket: class, unit and lane. -/
def bucketKey (cls unit lane : Nat) : Nat := (cls * 65536 + unit) * 4 + lane

/-- Has any bucket of a unit become lasting (R21, R493)? -/
def State.unitLasting (s : State) (unit : Nat) : Bool :=
  s.ecc.buckets.any fun b => b.1 / 4 % 65536 == unit && b.2.lasting

/-- Detect a fault under a job, or none (R18 to R21): its record is written when the cycle ends. -/
def State.faultFor (s : State) (job : Option Nat) (unit code : Nat) (addr : Option Nat) (detail : Nat) : State :=
  let rec_ : FaultRecord :=
    { code := BitVec.ofNat 8 code, job := BitVec.ofNat 8 (job.getD 0), unit := BitVec.ofNat 16 unit,
      timeValid := s.timeValid, addrValid := addr.isSome, lasting := s.unitLasting unit, lostBefore := false,
      jobValid := job.isSome, seq := 0, time := BitVec.ofNat 64 s.stamp,
      address := BitVec.ofNat 64 (addr.getD 0), detail := BitVec.ofNat 64 detail }
  { s with flt := { s.flt with fresh := s.flt.fresh ++ [rec_] } }

/-- Detect a fault under the running job. -/
def State.fault (s : State) (unit code : Nat) (addr : Option Nat) (detail : Nat) : State :=
  s.faultFor s.job unit code addr detail

/-- Detect a fault unless one with this limit key has been recorded in the counter window (R92). -/
def State.faultOncePerWindow (s : State) (key unit code : Nat) (addr : Option Nat) (detail : Nat) : State :=
  if s.flt.limits.contains key then s
  else
    let t : State := { s with flt := { s.flt with limits := key :: s.flt.limits } }
    t.fault unit code addr detail

/-- The kinds of access of an ADDRESS_UNMAPPED record (R44). -/
inductive AccessKind where
  | read | write | atomic | fetch
  deriving DecidableEq, Repr

def AccessKind.code : AccessKind → Nat
  | .read => 0
  | .write => 1
  | .atomic => 2
  | .fetch => 3

/-- Report an unmapped access (R44): the access is not performed. -/
def State.unmapped (s : State) (who : Requester) (a : Nat) (k : AccessKind) : State :=
  s.fault (s.unitOf who) Code.addressUnmapped (some a) (k.code * 0x10000)

-- Companion memory and rings ---------------------------------------------------------------------------------------

/-- The base of the companion window in the local map (R35). -/
def companionBase : Nat := 0x0004_0000_0000_0000

/-- PHASE of the boot (R534): 0 ROM, 1 checks, 2 verify, 3 RECOVERY, 4 RUNNING, 5 HALTED. -/
def State.phase (s : State) : Nat := s.fld Reg.SEC_BOOT_STATUS Fld.SEC_BOOT_STATUS_PHASE

/-- Is the device in the safe state (R511)? -/
def State.safeState (s : State) : Bool := decide (s.phase < 4)

/-- The mapped size of the companion window in GiB: one until the board descriptor has been checked (R403, R512). -/
def State.windowGib (s : State) : Nat := if s.phase < 2 then 1 else s.fld Reg.TL_CTRL Fld.TL_CTRL_WIN_GIB

/-- Is a range of companion-window addresses mapped (R403, R512)? -/
def State.companionMapped (s : State) (a n : Nat) : Bool :=
  decide (companionBase ≤ a) && decide (a + n ≤ companionBase + s.windowGib * 2 ^ 30)

/-- Is Travo Link up (R406)? -/
def State.travoUp (s : State) : Bool := s.flag Reg.TL_STATUS Fld.TL_STATUS_UP

/-- Send a flit toward the companion with the next replay sequence number and keep it for replay (R404, R406). -/
def State.sendFlit (s : State) (f : TravoFlit) : State :=
  if s.travoUp then
    let n := (s.tl.txSeq + 1) % 4096
    let t : State := { s with tl := { s.tl with txSeq := n, sent := (s.tl.sent ++ [(n, f)]).drop (s.tl.sent.length + 1 - 2048) } }
    t.emit (.travo f n)
  else s

/-- Ask for a line: RD_SHARED, RD_OWN (a write of part of a line) or CLAIM (a whole-line write), with a fresh tag (R405). -/
def State.requestLine (s : State) (line : Nat) (own whole : Bool) : State :=
  if s.tl.lineReqs.any (fun q => q.line == line && (q.own || !own)) then s
  else
    let t : State := { s with tl := { s.tl with lineReqs := s.tl.lineReqs ++ [⟨s.tl.nextTxn, line, own⟩],
                                                nextTxn := (s.tl.nextTxn + 1) % 4096 } }
    t.sendFlit ⟨if own then (if whole then 0x03 else 0x02) else 0x01, false, s.tl.nextTxn, 0, 0, line * 128, 0, []⟩

/-- One pass over the waiting companion writes, oldest first: a write is performed when its line is held owned and no earlier
write of its requester waits; otherwise its line is asked for (R408). `blocked` holds the requesters with an earlier write
still waiting. -/
def performWrites : List CompanionWrite → List Requester → State → State
  | [], _, s => s
  | w :: ws, blocked, s =>
    let line := w.addr / 128
    let owned := match tblFind line s.tl.lines with | some h => h.owned | none => false
    if owned && !blocked.contains w.who then
      performWrites ws blocked
        { s with tl := { s.tl with cmem := memPutBytes s.tl.cmem w.addr w.data,
                                   lines := tblSet line ⟨true, true⟩ s.tl.lines } }
    else
      let s : State := { s with tl := { s.tl with writes := s.tl.writes ++ [w] } }
      performWrites ws (w.who :: blocked) (if owned then s else s.requestLine line true (w.data.length == 128))

/-- Perform what can be performed of the waiting companion writes. -/
def State.drainWrites (s : State) : State :=
  performWrites s.tl.writes [] { s with tl := { s.tl with writes := [] } }

/-- Split a write at 128-byte line boundaries (R408); `fuel` bounds the pieces. -/
def splitLines (who : Requester) : Nat → Nat → List Byte → List CompanionWrite
  | 0, _, _ => []
  | fuel + 1, a, bs =>
    if bs.isEmpty then []
    else
      let n := 128 - a % 128
      ⟨who, a, bs.take n⟩ :: splitLines who fuel (a + n) (bs.drop n)

/-- A write to companion memory at a window address (R408); one outside the mapped window is discarded and recorded (R44). -/
def State.companionWrite (s : State) (who : Requester) (a : Nat) (bs : List Byte) : State :=
  if s.companionMapped a bs.length then
    let t : State := { s with
      tl := { s.tl with writes := s.tl.writes ++ splitLines who (bs.length / 128 + 2) (a - companionBase) bs } }
    t.drainWrites
  else s.unmapped who a .write

/-- The host writer of the Watermaster (R408). -/
def hostWriter : Requester := .wm 0

/-- The state of ring `r` (R410). -/
def State.ring (s : State) (r : Nat) : RingState := tblGetD r ⟨0, 0, 0, []⟩ s.tl.rings

/-- Store the state of ring `r`. -/
def State.setRing (s : State) (r : Nat) (x : RingState) : State :=
  { s with tl := { s.tl with rings := tblPut r ⟨0, 0, 0, []⟩ x s.tl.rings } }

def State.ringOn (s : State) (r : Nat) : Bool := s.flag (Reg.TL_RING0 r) Fld.TL_RING0_ENABLE
def State.ringKind (s : State) (r : Nat) : Nat := s.fld (Reg.TL_RING0 r) Fld.TL_RING0_KIND
def State.ringSizeLog (s : State) (r : Nat) : Nat := s.fld (Reg.TL_RING0 r) Fld.TL_RING0_SIZE_LOG2

/-- Entries a ring holds (R411). -/
def State.ringCount (s : State) (r : Nat) : Nat := ((s.ring r).tail + 2 ^ 32 - (s.ring r).head) % 2 ^ 32

/-- Has a ring of the given kind room for one more entry? -/
def State.ringRoom (s : State) (r kind : Nat) : Bool :=
  s.ringOn r && s.ringKind r == kind && decide (s.ringCount r < 2 ^ s.ringSizeLog r)

/-- The phase bit of the entry at TAIL (R411). -/
def State.ringPhase (s : State) (r : Nat) : Nat := ((s.ring r).tail >>> s.ringSizeLog r) % 2 ^^^ 1

/-- Write an entry at TAIL and advance TAIL (R411). -/
def State.ringAppend (s : State) (r : Nat) (entry : List Byte) : State :=
  let x := s.ring r
  let s := s.companionWrite hostWriter
    (s.reg (Reg.TL_RING1 r) + (x.tail % 2 ^ s.ringSizeLog r) * entry.length) entry
  s.setRing r { x with tail := (x.tail + 1) % 2 ^ 32, recent := ((x.tail, entry) :: x.recent).take 16 }

/-- Write a ring pointer back to WB_ADDR (R414). -/
def State.ringWriteBack (s : State) (r ptr : Nat) : State :=
  s.companionWrite hostWriter (s.reg (Reg.TL_RING2 r)) (leBytes 8 ptr)

-- Fault records ----------------------------------------------------------------------------------------------------

/-- The 32 bytes of a fault record (R18). -/
def FaultRecord.bytes (r : FaultRecord) : List Byte :=
  leBytes 1 r.code.toNat ++ leBytes 1 r.job.toNat ++ leBytes 2 r.unit.toNat ++
  leBytes 1 (b2n r.timeValid + 2 * b2n r.addrValid + 4 * b2n r.lasting + 8 * b2n r.lostBefore + 16 * b2n r.jobValid) ++
  leBytes 3 r.seq.toNat ++ leBytes 8 r.time.toNat ++ leBytes 8 r.address.toNat ++ leBytes 8 r.detail.toNat

/-- The fault record 32 bytes spell (R18), reserved bits ignored (R9). -/
def FaultRecord.ofBytes (bs : List Byte) : FaultRecord :=
  let at_ (i n : Nat) : Nat := leNat (sliceOf bs i n)
  { code := BitVec.ofNat 8 (at_ 0 1), job := BitVec.ofNat 8 (at_ 1 1), unit := BitVec.ofNat 16 (at_ 2 2),
    timeValid := bitAt (at_ 4 1) 0, addrValid := bitAt (at_ 4 1) 1, lasting := bitAt (at_ 4 1) 2,
    lostBefore := bitAt (at_ 4 1) 3, jobValid := bitAt (at_ 4 1) 4, seq := BitVec.ofNat 24 (at_ 5 3),
    time := BitVec.ofNat 64 (at_ 8 8), address := BitVec.ofNat 64 (at_ 16 8), detail := BitVec.ofNat 64 (at_ 24 8) }

/-- The event ring (R415). -/
def State.eventRing (s : State) : Nat := s.fld Reg.TL_EVENT Fld.TL_EVENT_EVENT_RING

/-- Move the oldest buffered record into the event ring while it has room; answer whether one moved. -/
def State.eventToRing (s : State) (r : FaultRecord) : State :=
  let s := s.ringAppend s.eventRing r.bytes
  s.ringWriteBack s.eventRing (s.ring s.eventRing).tail

/-- Write a fault record (R18, R21, R22): it takes the next SEQ; it enters the event ring, or the buffer of 64 while the ring has
no room, or is lost (R415). -/
def State.writeRecord (s : State) (r : FaultRecord) : State :=
  let rec_ : FaultRecord := { r with seq := s.flt.seq, lostBefore := s.flt.lost }
  let s : State := { s with flt := { s.flt with seq := s.flt.seq + 1 } }
  if s.flt.buffer.isEmpty && s.ringRoom s.eventRing 4 then
    let t : State := { s with flt := { s.flt with lost := false, last := some rec_ } }
    t.eventToRing rec_
  else if s.flt.buffer.length < 64 then
    { s with flt := { s.flt with lost := false, last := some rec_, buffer := s.flt.buffer ++ [rec_] } }
  else { s with flt := { s.flt with lost := true } }

/-- The order of the records of one cycle: by unit, and of one unit by code (R22). -/
def faultOrder (a b : FaultRecord) : Bool :=
  decide (a.unit.toNat < b.unit.toNat) || (a.unit == b.unit && decide (a.code.toNat ≤ b.code.toNat))

/-- The cycle has ended: its records are written in order (R22). -/
def State.writeFaults (s : State) : State :=
  let t : State := { s with flt := { s.flt with fresh := [] } }
  (sortBy faultOrder s.flt.fresh).foldl State.writeRecord t

/-- Set-up space in the local map (R35). -/
def setupBase : Nat := 0x0003_0000_0000_0000

/-- Report a refused set-up write (R13). -/
def State.setupLocked (s : State) (a : Nat) : State :=
  s.fault 0x4014 Code.setupLocked (some (setupBase + a)) 0

end Sys2Proof.Machine
end

