-- ==== Sys2Proof/Machine/Cell.lean ====
section
/-! DEFINITION. Cells as bytes: the routing header, the operation header and the payload (R310, R338), and the age order of cells
(R317). -/

namespace Sys2Proof.Machine

/-- The classes of R310. -/
def Cls.mgmt : Nat := 0
def Cls.req : Nat := 1
def Cls.rsp : Nat := 2
def Cls.bulk : Nat := 3

/-- The operation codes of R338. -/
def Op.load : Nat := 1
def Op.store : Nat := 2
def Op.atomic : Nat := 3
def Op.loadRsp : Nat := 9
def Op.atomicRsp : Nat := 10
def Op.ack : Nat := 11

end Sys2Proof.Machine

namespace Sys2Proof

open Sys2Proof.Machine

/-- The 16 bytes of the routing header as a number (R310). -/
def Cell.routing (c : Cell) : Nat :=
  joinChunks 16 [c.dest, c.src, c.ptag, c.cls % 4 + c.hops % 256 * 256] + c.injTime % 2 ^ 48 * 2 ^ 64 +
    c.injSeq % 2 ^ 16 * 2 ^ 112

/-- The 16 bytes of the operation header as a number (R338). -/
def Cell.operation (c : Cell) : Nat :=
  c.op % 16 + c.lenW % 32 * 2 ^ 4 + c.aop % 16 * 2 ^ 9 + b2n c.aw * 2 ^ 13 + b2n c.signed * 2 ^ 14 + b2n c.seal_ * 2 ^ 15 +
  b2n c.poison * 2 ^ 16 + c.status % 256 * 2 ^ 24 + c.be % 256 * 2 ^ 32 + c.life % 256 * 2 ^ 40 + c.tag % 2 ^ 16 * 2 ^ 48 +
  c.offset % 2 ^ 40 * 2 ^ 64 + c.job % 256 * 2 ^ 104

/-- The 288 bytes of a cell container (R310). -/
def Cell.bytes (c : Cell) : List Byte :=
  leBytes 16 c.routing ++ leBytes 16 c.operation ++ (c.payload ++ List.replicate 256 0).take 256

/-- The cell that 288 bytes spell; reserved bits are ignored (R9). -/
def Cell.ofBytes (bs : List Byte) : Cell :=
  let r := leNat (sliceOf bs 0 16)
  let o := leNat (sliceOf bs 16 16)
  { dest := bitsOf r 0 16, src := bitsOf r 16 16, ptag := bitsOf r 32 16, cls := bitsOf r 48 2, hops := bitsOf r 56 8,
    injTime := bitsOf r 64 48, injSeq := bitsOf r 112 16, op := bitsOf o 0 4, lenW := bitsOf o 4 5, aop := bitsOf o 9 4,
    aw := bitAt o 13, signed := bitAt o 14, seal_ := bitAt o 15, poison := bitAt o 16, status := bitsOf o 24 8,
    be := bitsOf o 32 8, life := bitsOf o 40 8, tag := bitsOf o 48 16, offset := bitsOf o 64 40, job := bitsOf o 104 8,
    payload := sliceOf bs 32 256 }

/-- Payload bytes the cell's length field names (R338). -/
def Cell.len (c : Cell) : Nat := 8 * (c.lenW + 1)

/-- Is cell `a` older than cell `b` (R317)? -/
def Cell.older (a b : Cell) : Bool :=
  let d := (b.injTime + 2 ^ 48 - a.injTime) % 2 ^ 48
  if d != 0 then decide (d < 2 ^ 47)
  else if a.src != b.src then decide (a.src < b.src)
  else decide ((b.injSeq + 2 ^ 16 - a.injSeq) % 2 ^ 16 < 2 ^ 15)

end Sys2Proof

namespace Sys2Proof.Machine

/-- Cells oldest first; equal keys keep their order. -/
def oldestFirst (cs : List (Nat × Cell)) : List (Nat × Cell) := sortBy (fun a b => a.2.older b.2) cs

end Sys2Proof.Machine
end

