-- ==== Sys2Proof/Machine/PortBase.lean ====
section
/-! DEFINITION. Ports: their registers, lanes and states, and how a port leaves service (R293 to R303, R49). -/

namespace Sys2Proof.Machine

/-- A port at reset: DOWN, nothing held. -/
def PortState.reset : PortState :=
  { phase := 0, since := 0, retrainAt := none, partner := none, expire := none, lldpAt := 0, txSeq := 0, rxAck := 65535,
    rxAny := false, rxMarks := [], replay := [], again := [], nakDue := false, ackDue := false, ctl := [], slots := 0, occ := 0,
    defl := 0, replays := 0, uncorr := 0, openL := 0, shortL := 0, order := [], used := 0, pauseTo := 0,
    ptp := ⟨none, none, none, none⟩ }

def State.port (s : State) (p : Nat) : PortState := tblGetD p PortState.reset s.ports
def State.setPort (s : State) (p : Nat) (x : PortState) : State := { s with ports := tblPut p PortState.reset x s.ports }
def State.onPort (s : State) (p : Nat) (f : PortState → PortState) : State := s.setPort p (f (s.port p))

/-- MODE as it counts: 3 is treated as 0 (R332), and so is 2 on an odd port, which leads no pair (DESIGN CHOICE, log entry 18). -/
def State.portMode (s : State) (p : Nat) : Nat :=
  let m := s.fld (Reg.FP_CFG p) Fld.FP_CFG_MODE
  if m = 3 || (m == 2 && p % 2 == 1) then 0 else m

/-- The port that leads: the even port of a pair whose even port has MODE 2 (R293). -/
def State.leadPort (s : State) (p : Nat) : Nat := if s.portMode (p / 2 * 2) = 2 then p / 2 * 2 else p

/-- ROLE as it counts: 4 to 7 are treated as 0 (R332); the odd port of a pair takes the lead's, as its own is ignored (R293). -/
def State.portRole (s : State) (p : Nat) : Nat :=
  let r := s.fld (Reg.FP_CFG (s.leadPort p)) Fld.FP_CFG_ROLE
  if 4 ≤ r then 0 else r

/-- The ports whose status follows a lead port. -/
def State.portPair (s : State) (p : Nat) : List Nat := if s.portMode p = 2 && p % 2 = 0 then [p, p + 1] else [p]

/-- Lanes of the port's mode (R293). -/
def State.modeLanes (s : State) (p : Nat) : Nat := match s.portMode p with | 1 => 2 | 2 => 8 | _ => 4

def State.portStage (s : State) (p : Nat) : Nat := s.fld (Reg.FP_STATUS p) Fld.FP_STATUS_STATE
def State.forwarding (s : State) (p : Nat) : Bool := s.portStage p == 6
def State.portLanes (s : State) (p : Nat) : Nat := s.fld (Reg.FP_STATUS p) Fld.FP_STATUS_LANES

/-- Set a status field on a port and on the port that follows it. -/
def State.setStatus (s : State) (p : Nat) (f : BitField) (v : Nat) : State :=
  (s.portPair p).foldl (fun s q => s.setFld (Reg.FP_STATUS q) f v) s

/-- The WIDTH code of a lane count (R332). -/
def widthCode (lanes : Nat) : Nat := if lanes = 0 then 0 else if lanes = 1 then 1 else if lanes = 2 then 2 else 3

def State.setLanes (s : State) (p n : Nat) : State :=
  (s.setStatus p Fld.FP_STATUS_LANES n).setStatus p Fld.FP_STATUS_WIDTH (widthCode n)

/-- A lane mask of a port or pair: logical lanes 0 to 3 on the even port, 4 to 7 on the odd one (R293). -/
def State.laneMask (s : State) (p : Nat) (f : BitField) : Nat :=
  joinChunks 4 ((s.portPair p).map fun q => s.fld (Reg.FP_STATUS q) f)

def State.setLaneMask (s : State) (p : Nat) (f : BitField) (v : Nat) : State :=
  (s.portPair p).zipIdx.foldl (fun s e => s.setFld (Reg.FP_STATUS e.1) f (v / 16 ^ e.2)) s

/-- The logical lanes of a port or pair. -/
def State.lanesOf (s : State) (p : Nat) : List Nat := List.range (s.modeLanes p)

/-- The mask of the lanes for which a test holds. -/
def maskOf (lanes : List Nat) (f : Nat → Bool) : Nat := joinChunks 1 ((List.range 8).map fun k => b2n (lanes.contains k && f k))

/-- Show the open and shorted lanes as logical lanes (R293): bit l for the physical lane that logical lane l comes in on. -/
def State.showLanes (s : State) (p : Nat) : State :=
  let x := s.port p
  let shown (m : Nat) : Nat := maskOf (s.lanesOf p) fun l => bitAt m (nthD x.order l l)
  (s.setLaneMask p Fld.FP_STATUS_OPEN (shown x.openL)).setLaneMask p Fld.FP_STATUS_SHORTED (shown x.shortL)

/-- Count physical lanes open or shorted besides those already counted. -/
def State.addLanes (s : State) (p open_ short : Nat) : State :=
  (s.onPort p fun x => { x with openL := x.openL ||| open_, shortL := x.shortL ||| short }).showLanes p

/-- UNIT of a port (R27). -/
def portUnit (p : Nat) : Nat := 0x3000 + p / 4 * 0x100 + p % 4

/-- A PORT_STATE record (R300); the spec lays out no DETAIL for it (log entry 7). -/
def State.portRecord (s : State) (p : Nat) : State :=
  let (d, s) := s.takeFree .portDetail
  s.fault (portUnit p) Code.portState none (d % 2 ^ 64)

/-- A port enters a state. -/
def State.enterPort (s : State) (p st : Nat) : State :=
  let s := s.setStatus p Fld.FP_STATUS_STATE st
  s.onPort p fun x => { x with since := s.clock.elapsedNs, phase := if st = 7 then 1 else st }

/-- Discard what a port holds for replay (R303). -/
def State.dropHeld (s : State) (p : Nat) : State :=
  let n := (s.port p).replay.length
  let s := s.countWrap (Reg.FWD_CNT_DROP (p / 4)) Fld.FWD_CNT_DROP_DROP_HELD n
  s.onPort p fun x => { x with replay := [], again := [], retrainAt := none, partner := none, expire := none, txSeq := 0,
                               rxAck := 65535, rxAny := false, rxMarks := [], nakDue := false, ackDue := false, ctl := [] }

/-- A port goes DOWN, with a record when it comes from a later state (R300). -/
def State.portDown (s : State) (p : Nat) : State :=
  if s.portStage p = 0 then s
  else
    let s := ((s.dropHeld p).enterPort p 0).setLanes p 0
    s.portRecord p

/-- A port is fenced: no usable lane, transmitters off (R300). -/
def State.portFenced (s : State) (p : Nat) : State :=
  if s.portStage p = 8 then s else (((s.dropHeld p).enterPort p 8).setLanes p 0).portRecord p

/-- A port in FORWARDING enters RETRAIN (R303); its replay buffer is held. -/
def State.portRetrain (s : State) (p : Nat) : State :=
  let s := s.enterPort p 7
  let s := s.onPort p fun x => { x with retrainAt := some s.clock.elapsedNs, ctl := [] }
  s.portRecord p

/-- Fence a port die (R49, R505): its four ports leave forwarding. -/
def State.fencePortDie (s : State) (die : Nat) : State :=
  let s := s.setFld Reg.TOP_DIE_STATUS Fld.TOP_DIE_STATUS_PORT_UP
    (s.fld Reg.TOP_DIE_STATUS Fld.TOP_DIE_STATUS_PORT_UP &&& (15 - 2 ^ (die % 4)))
  ([0, 1, 2, 3].map fun n => 4 * die + n).foldl (fun s p => if s.portStage p = 0 then s else s.portFenced p) s

/-- Is a port die in service (R45, R49)? -/
def State.portDieUp (s : State) (die : Nat) : Bool := bitAt (s.fld Reg.TOP_DIE_STATUS Fld.TOP_DIE_STATUS_PORT_UP) die

/-- A physical lane is counted open; its port retrains when it is in FORWARDING (R303). Lanes of a pair count on from the even port's. -/
def State.laneOpen (s : State) (port lane : Nat) : State :=
  let p := s.leadPort port
  let k := 4 * (port - p) + lane
  if k < s.modeLanes p then
    let s := s.addLanes p (2 ^ k) 0
    if s.forwarding p then s.portRetrain p else s
  else s

end Sys2Proof.Machine
end

