-- ==== Sys2Proof/WellFormed.lean ====
section
/-! DEFINITION. Which operands a command can have: every index inside the range its register array, unit or table has, every piece of
data of the size the spec gives it. Every command has a meaning on every operand; out of range it changes nothing. -/

namespace Sys2Proof

/-- A write comes from one of four Watermaster cores or of the four cores of a cluster (R6, R13, R32). -/
def Source.wf : Source → Bool
  | .travo => true
  | .wm k => decide (k < 4)
  | .mgmt => true
  | .core c k => decide (c < 32) && decide (k < 4)

/-- The engines there are (R3, R27): 32 logical clusters of four cores and two DMA engines, four Headgate engines of four parts, four
Watermaster cores and four port dies. -/
def Requester.wf : Requester → Bool
  | .core c k => decide (c < 32) && decide (k < 4)
  | .dma c e => decide (c < 32) && decide (e < 2)
  | .array c => decide (c < 32)
  | .flume c => decide (c < 32)
  | .vector c => decide (c < 32)
  | .engine e p => decide (e < 4) && decide (p < 4)
  | .wm k => decide (k < 4)
  | .port d => decide (d < 4)
  | .link => true
  | .control => true
  | .hbm stack half => decide (stack < 8) && decide (half < 2)

/-- Positions of an SRAM codeword or an HBM sector (R483, R485). -/
def Upset.wf (u : Upset) : Bool := u.bits.all fun b => decide (b < 80)

/-- An access of 8 to 256 bytes in whole words within one aligned line, whose data is as long as the access (R99). -/
def RsvRequest.wf (r : RsvRequest) : Bool :=
  r.who.wf && r.addr % 8 == 0 && r.len % 8 == 0 && decide (0 < r.len) && decide (r.addr % 256 + r.len ≤ 256) &&
    (!r.write || r.data.length == r.len)

/-- The links there are (R28): a Reservoir die with a compute, Headgate, port, link or control die, and two port dies with each other. -/
def DieLink.wf (l : DieLink) : Bool :=
  decide (l.rsv < 4) &&
    (if l.fwd then l.cls == 3 && decide (l.idx < l.rsv)
     else match l.cls with
      | 0 => decide (l.idx < 8)
      | 2 => decide (l.idx < 2)
      | 3 => decide (l.idx < 4)
      | 4 => l.idx == 0
      | 5 => l.idx == 0
      | _ => false)

/-- A frame's container is 288 bytes (R308). -/
def CellFrame.wf (f : CellFrame) : Bool := f.container.length == 288

/-- A packet carries at most 31 cells, and its sequence numbers have 32 bits (R366). -/
def SwPacket.wf (p : SwPacket) : Bool := decide (p.cells.length ≤ 31) && decide (p.psn < 2 ^ 32) && decide (p.cum < 2 ^ 32)

/-- The storage there is to scrub (R3, R498). -/
def ScrubTarget.wf : ScrubTarget → Bool
  | .rsvLine die _ => decide (die < 4)
  | .spLine cluster _ => decide (cluster < 32)
  | .hbmSector stack _ => decide (stack < 8)
  | .headgate die _ => decide (die < 2)
  | .portBuf die _ => decide (die < 4)

/-- A request descriptor is 64 bytes (R416). -/
def descriptorWf (d : List Byte) : Bool := d.length == 64

/-- A push through the windows of a core: words of 64 bits from a window offset of whole words (R230, R273). -/
def pushWf (cluster k off : Nat) (words : List Nat) : Bool :=
  decide (cluster < 32) && decide (k < 4) && off % 8 == 0 && words.all fun w => decide (w < 2 ^ 64)

/-- A collective launch: words of 64 bits from a window offset of whole words (R374). -/
def collectiveWf (who : Requester) (off : Nat) (words : List Nat) : Bool :=
  who.wf && off % 8 == 0 && words.all fun w => decide (w < 2 ^ 64)

/-- A node number has 16 bits (R10). -/
def nodeWf (node : Nat) : Bool := decide (node < 65536)

/-- The operands a command can have. -/
def Instr.wf : Instr → Bool
  | .setupWrite src _ _ => src.wf
  | .topSetupLockWrite src _ => src.wf
  | .reservoirAccess requests upsets => requests.all RsvRequest.wf && upsets.all Upset.wf
  | .flitReceive link _ carried => link.wf && carried.all fun e => e.1.wf
  | .regionSeal who region layer die => who.wf && decide (region < 256) && decide (layer < 4096) && decide (die < 4)
  | .sealSignal region => decide (region < 256)
  | .regionRelease region => decide (region < 256)
  | .varveMark who region layer die => who.wf && decide (region < 256) && decide (layer < 4096) && decide (die < 4)
  | .varveRecordWrite => true
  | .rsvRegionWrite src region _ => src.wf && decide (region < 256)
  | .slcChanWrite src channel _ => src.wf && decide (channel < 4096)
  | .resetChannel src channel _ => src.wf && decide (channel < 4096)
  | .push who channel _ _ data _ upsets => who.wf && decide (channel < 4096) && data.length == 64 && upsets.all Upset.wf
  | .pop who channel _ upsets => who.wf && decide (channel < 4096) && upsets.all Upset.wf
  | .peek who channel _ upsets => who.wf && decide (channel < 4096) && upsets.all Upset.wf
  | .dropPacket who channel _ upsets => who.wf && decide (channel < 4096) && upsets.all Upset.wf
  | .count who channel _ upsets => who.wf && decide (channel < 4096) && upsets.all Upset.wf
  | .sluiceStorageDone channel => decide (channel < 4096)
  | .fenceMarkersAcked who channel => who.wf && decide (channel < 4096)
  | .ftTick _ => true
  | .ptpSample _ => true
  | .ppsEdge => true
  | .sampleTimeout => true
  | .holdoverLimit => true
  | .ftSrcWrite src _ => src.wf
  | .ftTurnOriginWrite src _ => src.wf
  | .ftTurnLenWrite src _ => src.wf
  | .ftEpochTaiWrite src _ => src.wf
  | .turnBoundary votes _ => votes.all fun v => decide (v.copy < 3)
  | .counterWindowClose => true
  | .scrubRead target upsets => target.wf && upsets.all Upset.wf
  | .layerDescriptorWrite src layer word _ => src.wf && decide (layer < 4096) && decide (word < 8)
  | .routeDecision => true
  | .rankRound => true
  | .sortAndDispatch => true
  | .shapeRecords => true
  | .gatewayRelay => true
  | .doneItem => true
  | .combine => true
  | .exchangeDeadline => true
  | .hgZoneWrite src zone word _ => src.wf && decide (zone < 1024) && decide (word < 4)
  | .placeLoad src _ => src.wf
  | .placeLoadDone => true
  | .placeCopyDone => true
  | .clCoreRunWrite src cluster _ => src.wf && decide (cluster < 32)
  | .fence who => who.wf
  | .amo who _ _ rd rs1 rs2 => who.wf && decide (rd < 32) && decide (rs1 < 32) && decide (rs2 < 32)
  | .lrSc who rs1 => who.wf && decide (rs1 < 32)
  | .clAtomCtrlWrite cluster k _ => decide (cluster < 32) && decide (k < 4)
  | .tileCmdPush cluster k off words => pushWf cluster k off words
  | .matmul cluster _ => decide (cluster < 32)
  | .tileRetire cluster => decide (cluster < 32)
  | .tileBoundary cluster => decide (cluster < 32)
  | .fillBegin cluster buffer => decide (cluster < 32) && decide (buffer < 255)
  | .fillEnd cluster buffer => decide (cluster < 32) && decide (buffer < 255)
  | .free cluster buffer => decide (cluster < 32) && decide (buffer < 255)
  | .clBufWrite src cluster buffer _ => src.wf && decide (cluster < 32) && decide (buffer < 255)
  | .dmaPush cluster engine k off words => decide (engine < 2) && pushWf cluster k off words
  | .dmaStart cluster engine => decide (cluster < 32) && decide (engine < 2)
  | .dmaComplete cluster engine => decide (cluster < 32) && decide (engine < 2)
  | .vecPush cluster k off words => pushWf cluster k off words
  | .add cluster => decide (cluster < 32)
  | .mul cluster => decide (cluster < 32)
  | .axpy cluster => decide (cluster < 32)
  | .scaleBias cluster => decide (cluster < 32)
  | .exp cluster => decide (cluster < 32)
  | .siluMul cluster => decide (cluster < 32)
  | .rmsnorm cluster => decide (cluster < 32)
  | .softmax cluster => decide (cluster < 32)
  | .rope cluster => decide (cluster < 32)
  | .convert cluster => decide (cluster < 32)
  | .quantRow cluster => decide (cluster < 32)
  | .rowSum cluster => decide (cluster < 32)
  | .rowMax cluster => decide (cluster < 32)
  | .sample cluster => decide (cluster < 32)
  | .vecRetire cluster => decide (cluster < 32)
  | .flumeCmdPush cluster k off words => pushWf cluster k off words
  | .gather cluster => decide (cluster < 32)
  | .compact cluster => decide (cluster < 32)
  | .mask cluster => decide (cluster < 32)
  | .check cluster => decide (cluster < 32)
  | .merge cluster => decide (cluster < 32)
  | .flumeComplete cluster => decide (cluster < 32)
  | .portEnableWrite src port _ => src.wf && decide (port < 16)
  | .cmTestDone port found => decide (port < 16) && decide (found.length ≤ 8)
  | .trainDone port failed => decide (port < 16) && failed.all fun l => decide (l < 8)
  | .laneIdDone port laneMap polarity far _ =>
      decide (port < 16) && decide (laneMap < 65536) && decide (polarity < 256) && decide (far < 256)
  | .alignDone port => decide (port < 16)
  | .lldpSend port => decide (port < 16)
  | .lldpReceive port _ => decide (port < 16)
  | .identityExpire port => decide (port < 16)
  | .cdrLoss port lane => decide (port < 16) && decide (lane < 8)
  | .retrainTimeout port => decide (port < 16)
  | .linkMcuReload die _ => decide (die < 4)
  | .cellFrameReceive port frame _ uncorrectable => decide (port < 16) && frame.wf && uncorrectable.all fun l => decide (l < 8)
  | .pauseReceive port => decide (port < 16)
  | .forwardingSlot => true
  | .swPacketReceive port packet => decide (port < 16) && packet.packet.wf
  | .swAckReceive port packet => decide (port < 16) && packet.packet.wf
  | .swPacketSend port => decide (port < 16)
  | .swAckSend source => nodeWf source
  | .rtoExpire gateway psn => nodeWf gateway && decide (psn < 2 ^ 32)
  | .neighborSolicitation port _ => decide (port < 16)
  | .ptpEventMessage port _ => decide (port < 16)
  | .loadIssue who _ _ len _ => who.wf && decide (0 < len)
  | .storeIssue who _ _ be data _ ilen =>
      who.wf && decide (0 < data.length) && decide (be < 256) && decide (ilen ≤ 4)
  | .atomicIssue who _ _ aop _ _ _ _ _ => who.wf && decide (aop < 16)
  | .load die => decide (die < 4)
  | .store die => decide (die < 4)
  | .atomicAdd die => decide (die < 4)
  | .atomicMin die => decide (die < 4)
  | .atomicMax die => decide (die < 4)
  | .atomicAnd die => decide (die < 4)
  | .atomicOr die => decide (die < 4)
  | .atomicXor die => decide (die < 4)
  | .atomicSwap die => decide (die < 4)
  | .atomicCas die => decide (die < 4)
  | .atomicFadd die => decide (die < 4)
  | .atomicBadd2 die => decide (die < 4)
  | .loadRsp die => decide (die < 4)
  | .atomicRsp die => decide (die < 4)
  | .ack die => decide (die < 4)
  | .ackDelayExpire die source => decide (die < 4) && nodeWf source
  | .tDeadExpire tag => decide (tag < 65536)
  | .allReduce who off words => collectiveWf who off words
  | .reduceScatter who off words => collectiveWf who off words
  | .allGather who off words => collectiveWf who off words
  | .broadcast who off words => collectiveWf who off words
  | .barrier who off words => collectiveWf who off words
  | .collectiveInterrupt => true
  | .colFinish cluster _ => decide (cluster < 32)
  | .collectiveDeadline => true
  | .travoFlitReceive msg seq ackSeq _ _ => decide (msg < 32) && decide (seq < 4096) && decide (ackSeq < 4096)
  | .snpShared txn _ => decide (txn < 4096)
  | .snpInv txn _ => decide (txn < 4096)
  | .line txn _ data => decide (txn < 4096) && data.length == 128
  | .grant txn => decide (txn < 4096)
  | .ucRd txn _ size _ => decide (txn < 4096) && (size == 3 || size == 4)
  | .ucWr txn _ size be data _ _ => decide (txn < 4096) && (size == 3 || size == 4) && decide (be < 65536) && data.length == 2 ^ size
  | .tlRingWrite src ring word _ => src.wf && decide (ring < 16384) && decide (word < 3)
  | .dbTail ring value => decide (ring < 16384) && decide (value < 65536)
  | .dbHead ring value => decide (ring < 16384) && decide (value < 65536)
  | .poll txn ring => decide (txn < 4096) && decide (ring < 16384)
  | .prefill desc _ => descriptorWf desc
  | .generate desc _ => descriptorWf desc
  | .sessionSet desc _ _ _ => descriptorWf desc
  | .sessionClose desc _ => descriptorWf desc
  | .abort desc _ => descriptorWf desc
  | .call desc _ => descriptorWf desc
  | .callReturn => true
  | .stepBoundary results => results.all fun r => decide (r.prob < 2 ^ 32)
  | .commit => true
  | .eventRecordWrite => true
  | .jobBoundary => true
  | .drainPoint => true
  | .drainEnd => true
  | .switchSaveDone => true
  | .switchReady upsets => upsets.all Upset.wf
  | .resumePoint => true
  | .quiesceOverrun => true
  | .swapDone => true
  | .canonWrite cluster _ => decide (cluster < 32)
  | .wmReproWrite src job _ => src.wf && decide (job < 256)
  | .heartbeat => true
  | .wmRecover src _ _ => src.wf
  | .retireCluster src _ => src.wf
  | .eccRsvRetireWrite src die word _ => src.wf && decide (die < 4) && decide (word < 1024)
  | .resetRelease found => decide (found.hbm < 256) && decide (found.lanes ≤ 16)
  | .recoveryGo src _ _ _ => src.wf
  | .secSvnBurnWrite src _ => src.wf
  | .hello node => nodeWf node
  | .accept node => nodeWf node
  | .set node => nodeWf node
  | .get node => nodeWf node
  | .attest node => nodeWf node
  | .attestSigned => true
  | .quiesce node => nodeWf node
  | .timeAnnounce node => nodeWf node
  | .start node => nodeWf node
  | .launch node => nodeWf node
  | .launchNotice index => decide (index < 2 ^ 32)
  | .launchAckTimeout child index => nodeWf child && decide (index < 2 ^ 32)
  | .launchChild node => nodeWf node
  | .reparent node => nodeWf node
  | .launchAbort node => nodeWf node
  | .governorInterval _ _ _ _ _ => true
  | .voltageWriteDone => true
  | .railFault => true
  | .senseCheck readings => readings.length == 11
  | .tempRefresh readings => readings.all fun r => decide (r.1 < 256)
  | .powerReset _ => true
  | .smbPartRead => true
  | .smbBootRead => true
  | .smbThermalRead => true
  | .smbPowerRead => true
  | .smbFaultRead => true
  | .bmcCapWWrite watts _ => decide (watts < 65536)
  | .alertResponse => true
  | .hbmAccess request upsets _ => request.wf && upsets.all Upset.wf
  | .avsbusError rail op => decide (rail < 2) && decide (op < 4)
  | .teardownDrainEnd ranges => ranges.all fun r => decide (r.1 + r.2 ≤ 2 ^ 40)

end Sys2Proof
end

