-- ==== Sys2Proof/Machine/Ecc.lean ====
section
/-! DEFINITION. Fault counting and the error log: leaky buckets, lasting units and log entries (R492 to R496). -/

namespace Sys2Proof.Machine

/-- A cluster with empty queues and nothing running (R230). -/
def Cluster.empty : Cluster :=
  { latches := [], held := [], tiles := [], running := [], acc := [], busyFrom := 0, vecs := [], vecRun := none, dmaQ := [], dmaRun := [],
    flmQ := [], flmRun := none, flmFrom := 0, audit := none, stop := false }

/-- What a cluster holds beside its scratchpad, registers and cores. -/
def State.cluster (s : State) (n : Nat) : Cluster := tblGetD n Cluster.empty s.cls
def State.setCluster (s : State) (n : Nat) (c : Cluster) : State :=
  { s with cls := tblPut n Cluster.empty c s.cls }

/-- Stop issue in all queues of every cluster, as a preemption request does (R235, R506). -/
def State.stopIssue (s : State) : State :=
  { s with cls := (List.range s.fuses.clusters).foldl (fun t n => tblSet n { tblGetD n Cluster.empty t with stop := true } t) s.cls }

/-- Ask for the retirement of a logical cluster (R505, R506): issue stops, and it takes effect at the next tile boundary. -/
def State.requestRetire (s : State) (n : Nat) : State :=
  if s.clusterPresent n then (s.setReg Reg.ECC_RETIRE_CL (s.reg Reg.ECC_RETIRE_CL ||| 2 ^ n)).stopIssue
  else s.setReg Reg.ECC_RETIRE_CL (s.reg Reg.ECC_RETIRE_CL ||| 2 ^ n)

/-- Retire both Headgate engines of a die (R49, R505): they leave service from the next routing step that starts. -/
def State.retireEngines (s : State) (die : Nat) : State :=
  let s : State := { s with hg := { s.hg with retired :=
    (s.hg.retired ++ [2 * die, 2 * die + 1]).eraseDups } }
  s.setFld Reg.TOP_DIE_STATUS Fld.TOP_DIE_STATUS_HEADGATE_UP
    (s.fld Reg.TOP_DIE_STATUS Fld.TOP_DIE_STATUS_HEADGATE_UP &&& (3 - 2 ^ die))

/-- The key under which a data-plane link direction is counted. -/
def linkKey (l : DieLink) : Nat := (((l.cls * 16 + l.idx) * 4 + l.rsv) * 2 + b2n l.toRsv) * 2 + b2n l.fwd

/-- The interface number of a link at its Reservoir end (R28). -/
def linkRsvIf (l : DieLink) : Nat :=
  match l.cls with
  | 0 => 0x40 + l.idx
  | 2 => 0x48 + l.idx
  | 3 => 0x4A + l.idx
  | 5 => 0x4E
  | _ => 0x4F

/-- The unit that counts a link direction: the interface at its receiving end (R28), or the forwarding links of the port die that
receives (R27; log entry 34). -/
def linkUnit (l : DieLink) : Nat :=
  if l.fwd then 0x3012 + (if l.toRsv then l.rsv else l.idx) * 0x100
  else if l.toRsv then 0x1000 + l.rsv * 0x100 + linkRsvIf l else l.cls * 0x1000 + l.idx * 0x100 + 0x40 + l.rsv

/-- The lane under which its bucket stands: the far port die of a forwarding link, since a port die has three. -/
def linkLane (l : DieLink) : Nat := if l.fwd then (if l.toRsv then l.idx else l.rsv) else 0

/-- The parameters of a class (R494, R509): N, W and UE. -/
def State.eccN (s : State) (k : Nat) : Nat := s.fld (Reg.ECC_CLASS k) Fld.ECC_CLASS_N
def State.eccW (s : State) (k : Nat) : Nat := s.fld (Reg.ECC_CLASS k) Fld.ECC_CLASS_W
def State.eccUe (s : State) (k : Nat) : Nat := s.fld (Reg.ECC_CLASS k) Fld.ECC_CLASS_UE

def State.bucket (s : State) (key : Nat) : Bucket := tblGetD key ⟨0, false, 0⟩ s.ecc.buckets
def State.setBucket (s : State) (key : Nat) (b : Bucket) : State :=
  { s with ecc := { s.ecc with buckets := tblPut key ⟨0, false, 0⟩ b s.ecc.buckets } }

/-- Do the UNIT words of an event ring agree with R509's ACT_EN for class `k`? -/
def State.actEnabled (s : State) (k : Nat) : Bool := bitAt (s.fld Reg.ECC_CTRL Fld.ECC_CTRL_ACT_EN) k

/-- What R49 does when a data-plane link becomes lasting, beside the transfers it carried: the action for its die, and an event. -/
def State.linkLasting (s : State) (cls idx rsv : Nat) : State :=
  let s := s.emit (.event Code.unitLasting (cls * 0x1000 + idx * 0x100))
  let s := s.setFld Reg.TOP_DIE_STATUS Fld.TOP_DIE_STATUS_LINK_LASTING
    (s.fld Reg.TOP_DIE_STATUS Fld.TOP_DIE_STATUS_LINK_LASTING ||| 2 ^ rsv)
  match cls with
  | 0 => (rangeFrom (4 * idx) 4).foldl (fun s p => match s.logical p with | some n => s.requestRetire n | none => s) s
  | 2 => s.retireEngines idx
  | 3 => s.fencePortDie idx
  | _ => s

/-- The action of a class whose unit has become lasting (R494). -/
def State.classAction (s : State) (cls unit lane : Nat) : State :=
  match cls with
  | 1 => match s.logical (unit / 0x100 % 16 * 4 + unit / 0x10 % 4) with | some n => s.requestRetire n | none => s
  | 2 => match s.logical (unit / 0x100 % 16 * 4 + unit / 0x10 % 4) with | some n => s.requestRetire n | none => s
  | 3 => s.retireEngines (unit / 0x100 % 16)
  | 4 => s.fencePortDie (unit / 0x100 % 16)
  | 6 =>
    if unit / 0x1000 = 1 then
      let i := unit % 0x100
      let r := unit / 0x100 % 16
      if i < 0x48 then s.linkLasting 0 (i - 0x40) r
      else if i < 0x4A then s.linkLasting 2 (i - 0x48) r
      else if i < 0x4E then s.linkLasting 3 (i - 0x4A) r
      else if i = 0x4E then s.linkLasting 5 0 r
      else s.linkLasting 4 0 r
    else if unit % 0x100 = 0x12 then s
    else s.linkLasting (unit / 0x1000) (unit / 0x100 % 16) (unit % 16)
  | 7 => s.laneOpen ((unit / 0x100 % 16) * 4 + unit % 16) lane
  | _ => s

/-- Mark a unit lasting (R493): one UNIT_LASTING record, the flag, the count, and the class action when enabled. -/
def State.markLasting (s : State) (cls unit lane addr : Nat) : State :=
  let b := s.bucket (bucketKey cls unit lane)
  if b.lasting then s
  else
    let s := s.fault unit Code.unitLasting (some addr) (cls + b.level * 16 + min b.events (2 ^ 32 - 1) * 2 ^ 32)
    let s := s.setBucket (bucketKey cls unit lane) { b with lasting := true }
    let s := s.countSat Reg.ECC_CNT_MISC Fld.ECC_CNT_MISC_LASTING_UNITS 1
    if s.actEnabled cls then s.classAction cls unit lane else s

/-- Count an event against a unit (R492); when its level reaches N × W it becomes lasting (R493). -/
def State.eccEvent (s : State) (cls unit lane : Nat) (uncorr : Bool) (addr : Nat) : State :=
  let b := s.bucket (bucketKey cls unit lane)
  let b := { b with level := min (b.level + s.eccW cls * (if uncorr then s.eccUe cls else 1)) (2 ^ 24 - 1),
                    events := b.events + 1 }
  let s := s.setBucket (bucketKey cls unit lane) b
  if s.eccN cls * s.eccW cls ≤ b.level then s.markLasting cls unit lane addr else s

/-- Write an error log entry (R495, R496), within LOG_MAX per unit and counter window. `bit` is the position of a single
corrected error. -/
def State.logEntry (s : State) (addr unit type source : Nat) (bit : Option Nat) : State :=
  if !s.flag Reg.ECC_LOG_CTRL Fld.ECC_LOG_CTRL_ENABLE then s
  else
    let n := tblGetD unit 0 s.ecc.logCounts
    if s.fld Reg.ECC_LOG_CTRL Fld.ECC_LOG_CTRL_LOG_MAX ≤ n then s.countSat Reg.ECC_CNT_MISC Fld.ECC_CNT_MISC_LOG_DROPPED 1
    else
      let s : State := { s with ecc := { s.ecc with logCounts := tblSet unit (n + 1) s.ecc.logCounts } }
      let size := 2 ^ s.fld Reg.ECC_LOG_CTRL Fld.ECC_LOG_CTRL_SIZE_LOG2
      let tail := s.fld Reg.ECC_LOG_PTR Fld.ECC_LOG_PTR_TAIL
      let head := s.fld Reg.ECC_LOG_PTR Fld.ECC_LOG_PTR_HEAD
      if size ≤ (tail + 2 ^ 32 - head) % 2 ^ 32 then
        let s : State := { s with ecc := { s.ecc with logLost := true } }
        s.countSat Reg.ECC_CNT_MISC Fld.ECC_CNT_MISC_LOG_LOST 1
      else
        let entry := leBytes 8 addr ++ leBytes 2 unit ++ leBytes 1 (type + source * 16 + b2n s.ecc.logLost * 128) ++
          leBytes 1 (match bit with | some i => i + 128 | none => 0) ++ leBytes 4 s.window
        let s : State := { s with ecc := { s.ecc with logLost := false } }
        let s := s.companionWrite hostWriter (s.reg Reg.ECC_LOG_BASE + (tail % size) * 16) entry
        let s := s.setFld Reg.ECC_LOG_PTR Fld.ECC_LOG_PTR_TAIL (tail + 1)
        s.companionWrite hostWriter (s.reg Reg.ECC_LOG_WB) (leBytes 8 ((tail + 1) % 2 ^ 32))

/-- DETAIL of an UNCORRECTABLE record with a syndrome of the stepping's code: open, but never zero (R488). -/
def State.uncorrectableDetail (s : State) (structure_ source : Nat) : Nat × State :=
  let (k, s) := s.takeFree .syndrome
  let v := k % (if structure_ = 1 then 2 ^ 24 - 1 else 2 ^ 16 - 1) + 1
  (structure_ + source * 16 + (v % 2 ^ 16) * 2 ^ 16 + (if structure_ = 1 then (v / 2 ^ 16) * 2 ^ 40 else 0), s)

end Sys2Proof.Machine
end

