-- ==== Sys2Proof/Machine/Hash.lean ====
section
/-! DEFINITION. The hash functions and codes of the spec: TH64 (R152), CRC-32C, SHA-256 and HMAC. -/

namespace Sys2Proof.Machine

/-- TH64 (R152). -/
def th64 (x s : Nat) : Nat :=
  let h := (x + s * 0x8A5CD3E16B29F0C7) % 2 ^ 64
  let h := h ^^^ (h >>> 31)
  let h := (h * 0xB7E41D963AC582F5) % 2 ^ 64
  let h := h ^^^ (h >>> 29)
  let h := (h * 0x6D1FA48BC2E73591) % 2 ^ 64
  h ^^^ (h >>> 32)

/-- CRC-32C bit by bit, reflected polynomial 0x82F63B78 (log entry 8). -/
def crcBits : List Bool → Nat → Nat
  | [], c => c
  | b :: bs, c => if decide (c % 2 = 1) != b then crcBits bs ((c / 2) ^^^ 0x82F63B78) else crcBits bs (c / 2)

/-- CRC-32C of a byte string, each byte from its least significant bit (R404, R420; log entry 8). -/
def crc32c (bs : List Byte) : Nat :=
  crcBits (bs.map fun b => (List.range 8).map b.getLsbD).flatten 0xFFFFFFFF ^^^ 0xFFFFFFFF

-- SHA-256 (FIPS 180-4; log entry 8) --------------------------------------------------------------------------------

/-- The eight 32-bit words of a 256-bit number, the most significant first. -/
def words256 (v : Nat) : List Nat := (chunksOf 32 8 v).reverse

/-- The sum of words modulo 2^32. -/
def sum32 (xs : List Nat) : Nat := sumNats xs % 2 ^ 32

/-- A word rotated right by `n` places: the word written twice, shifted. -/
def rotr32 (x n : Nat) : Nat := (x * (2 ^ 32 + 1)) >>> n % 2 ^ 32

/-- A word rotated by two amounts, folded with a third term. -/
def twist32 (m n x y : Nat) : Nat := rotr32 x m ^^^ rotr32 x n ^^^ y

/-- The additive constants of the 64 rounds, eight to a number. -/
def roundConstants : List Nat :=
  ([0x428a2f9871374491b5c0fbcfe9b5dba53956c25b59f111f1923f82a4ab1c5ed5,
    0xd807aa9812835b01243185be550c7dc372be5d7480deb1fe9bdc06a7c19bf174,
    0xe49b69c1efbe47860fc19dc6240ca1cc2de92c6f4a7484aa5cb0a9dc76f988da,
    0x983e5152a831c66db00327c8bf597fc7c6e00bf3d5a7914706ca635114292967,
    0x27b70a852e1b21384d2c6dfc53380d13650a7354766a0abb81c2c92e92722c85,
    0xa2bfe8a1a81a664bc24b8b70c76c51a3d192e819d6990624f40e3585106aa070,
    0x19a4c1161e376c082748774c34b0bcb5391c0cb34ed8aa4a5b9cca4f682e6ff3,
    0x748f82ee78a5636f84c878148cc7020890befffaa4506cebbef9a3f7c67178f2] : List Nat).flatMap words256

/-- SHA-256 inside a block: the last four values of each of its two recurrences, the newest first, and the sixteen message words
of the rounds to come, the next first. -/
structure ShaRun where
  fast : List Nat
  slow : List Nat
  msg  : List Nat

/-- One round with its constant. -/
def ShaRun.round (r : ShaRun) (k : Nat) : ShaRun :=
  let p (i : Nat) : Nat := nthD r.fast i 0
  let q (i : Nat) : Nat := nthD r.slow i 0
  let w (i : Nat) : Nat := nthD r.msg i 0
  let pick := q 2 ^^^ (q 0 &&& (q 1 ^^^ q 2))
  let most := (p 0 &&& (p 1 ||| p 2)) ||| (p 1 &&& p 2)
  let t := sum32 [q 3, twist32 6 11 (q 0) (rotr32 (q 0) 25), pick, k, w 0]
  let next := sum32 [w 0, twist32 7 18 (w 1) (w 1 >>> 3), w 9, twist32 17 19 (w 14) (w 14 >>> 10)]
  { fast := sum32 [t, twist32 2 13 (p 0) (rotr32 (p 0) 22), most] :: r.fast.take 3
    slow := sum32 [p 3, t] :: r.slow.take 3
    msg := r.msg.drop 1 ++ [next] }

/-- The chaining words after a 64-byte block. -/
def shaBlock (h : List Nat) (block : List Byte) : List Nat :=
  let r := roundConstants.foldl ShaRun.round ⟨h.take 4, h.drop 4, (chunksOf 32 16 (beNat block)).reverse⟩
  ((r.fast ++ r.slow).zip h).map fun e => sum32 [e.1, e.2]

/-- SHA-256 of a byte string, as 32 bytes. -/
def sha256 (bs : List Byte) : List Byte :=
  let tail := (0x80 : Byte) :: List.replicate ((119 - bs.length % 64) % 64) 0
  let padded := bs ++ tail ++ beBytes 8 (8 * bs.length)
  let start := words256 0x6a09e667bb67ae853c6ef372a54ff53a510e527f9b05688c1f83d9ab5be0cd19
  let blocks := (List.range (padded.length / 64)).map fun i => sliceOf padded (64 * i) 64
  (blocks.foldl shaBlock start).flatMap (beBytes 4)

/-- HMAC-SHA-256 (log entry 8). -/
def hmac256 (key msg : List Byte) : List Byte :=
  let k := (if 64 < key.length then sha256 key else key)
  let k := k ++ List.replicate (64 - k.length) 0
  sha256 (k.map (· ^^^ 0x5C) ++ sha256 (k.map (· ^^^ 0x36) ++ msg))

end Sys2Proof.Machine
end

