-- ==== Sys2Proof/Machine/Memory.lean ====
section
/-! DEFINITION. The device map and the memories behind it: address decode, region placement, protected reads and writes with
their seal, varve and error rules (R35 to R44, R97 to R109, R126, R127, R483 to R487). -/

namespace Sys2Proof.Machine

-- The device map ---------------------------------------------------------------------------------------------------

/-- An entry of the region table (R103). -/
structure Region where
  type   : Nat
  pinned : Bool
  pinDie : Nat
  varve  : Bool
  seals  : Nat
  base   : Nat
  size   : Nat
  deriving DecidableEq, Repr

/-- Region fields of an RSV_REGION word (R103); type 7 counts as FREE (R102). -/
def Region.ofWord (w : Nat) : Region :=
  { type := (if bitsOf w 0 3 = 7 then 0 else bitsOf w 0 3), pinned := bitAt w 3, pinDie := bitsOf w 4 2,
    varve := bitAt w 6, seals := bitsOf w 8 8, base := bitsOf w 16 16, size := bitsOf w 32 18 + 1 }

def State.region (s : State) (n : Nat) : Region := Region.ofWord (s.reg (Reg.RSV_REGION n))

/-- The listed regions that are not FREE, in rising number. -/
def State.regions (s : State) : List (Nat × Region) :=
  ((s.regRange (Reg.RSV_REGION 0) 2048).map fun e => (e.1 / 8, Region.ofWord e.2)).filter fun e => e.2.type != 0

/-- Granules a region occupies on each die it occupies (R104). -/
def Region.span (r : Region) : Nat := if r.pinned then r.size else r.size / 4

/-- Does the region occupy granule `p` of die `d` (R104)? -/
def Region.occupies (r : Region) (d p : Nat) : Bool :=
  (!r.pinned || r.pinDie == d) && decide (r.base ≤ p) && decide (p < r.base + r.span)

/-- Placement of offset `o` of region number `n`: die and die-view offset (R104). -/
def Region.place (r : Region) (n o : Nat) : Nat × Nat :=
  let g := o / 4096
  if r.pinned then (r.pinDie, (r.base + g) * 4096 + o % 4096)
  else ((g + n) % 4, (r.base + g / 4) * 4096 + o % 4096)

/-- The region offset of die-view granule byte `x` of die `d` inside region `n` (R107). -/
def Region.offsetOf (r : Region) (n d x : Nat) : Nat :=
  let p := x / 4096
  let g := if r.pinned then p - r.base else 4 * (p - r.base) + (d + 256 - n) % 4
  g * 4096 + x % 4096

/-- The region whose footprint holds byte `x` of die `d`, with the recovered offset (R107). -/
def State.regionAt (s : State) (d x : Nat) : Option (Nat × Nat) :=
  match s.regions.find? fun e => e.2.occupies d (x / 4096) with
  | some (n, r) => some (n, r.offsetOf n d x)
  | none => none

/-- Where a local-map or fabric address leads (R35, R37 to R42). -/
inductive Place where
  | hbm (a : Nat)
  | rsv (die x : Nat) (region : Option (Nat × Nat))
  | scratch (cluster off : Nat)
  | setup (off : Nat)
  | doorbell (ring off : Nat)
  | companion (a : Nat)
  | rack (off : Nat)
  | node (n off : Nat)
  | unmapped
  deriving DecidableEq, Repr

def hbmSize : Nat := 0x60_0000_0000
def rsvBase : Nat := 0x0001_0000_0000_0000
def rsvRegionBase : Nat := 0x0001_0100_0000_0000
def scratchBase : Nat := 0x0002_0000_0000_0000
def doorbellBase : Nat := 0x0003_8000_0000_0000
def rackBase : Nat := 0x0010_0000_0000_0000

/-- Address decode (R35, R38, R39, R42, R403). -/
def State.decode (s : State) (a : Nat) : Place :=
  if 2 ^ 63 ≤ a then
    if a / 2 ^ 56 = 0x80 then .node (a / 2 ^ 40 % 2 ^ 16) (a % 2 ^ 40) else .unmapped
  else if a < hbmSize then .hbm a
  else if rsvBase ≤ a && a < rsvBase + 0x4_0000_0000 then
    let x := (a - rsvBase) % 2 ^ 32
    if x < 2 ^ 28 then
      let d := (a - rsvBase) / 2 ^ 32
      .rsv d x (s.regionAt d x)
    else .unmapped
  else if rsvRegionBase ≤ a && a < rsvRegionBase + 0x40_0000_0000 then
    let n := (a - rsvRegionBase) / 2 ^ 30
    let o := a % 2 ^ 30
    let r := s.region n
    if r.type = 0 || r.size * 4096 ≤ o then .unmapped
    else .rsv (r.place n o).1 (r.place n o).2 (some (n, o))
  else if scratchBase ≤ a && a < scratchBase + 0x2000_0000 then
    let n := (a - scratchBase) / 2 ^ 24
    if s.clusterPresent n then .scratch n (a % 2 ^ 24) else .unmapped
  else if setupBase ≤ a && a < setupBase + 0x1000_0000 then .setup (a - setupBase)
  else if doorbellBase ≤ a && a < doorbellBase + 0x400_0000 then .doorbell ((a - doorbellBase) / 4096) (a % 4096)
  else if companionBase ≤ a && s.companionMapped a 1 then .companion a
  else if rackBase ≤ a && a < rackBase + 2 ^ 48 then .rack (a - rackBase)
  else .unmapped

/-- The address under which a memory place is stored and reported: Reservoir bytes in die view (R37, R488). -/
def Place.canon : Place → Option Nat
  | .hbm a => some a
  | .rsv d x _ => some (rsvBase + d * 2 ^ 32 + x)
  | .scratch n o => some (scratchBase + n * 2 ^ 24 + o)
  | _ => none

/-- The bank of a die-view offset (R98). -/
def bankOf (x : Nat) : Nat := (x / 2 ^ 8 % 64) ^^^ (x / 2 ^ 14 % 64)

/-- The stack and the offset within it of a local HBM address (R36). -/
def hbmStack (a : Nat) : Nat := a / 2 ^ 12 % 8
def hbmOffset (a : Nat) : Nat := a / 2 ^ 15 * 2 ^ 12 + a % 2 ^ 12

/-- Does a canonical address lie in HBM? -/
def isHbm (c : Nat) : Bool := decide (c < hbmSize)

/-- The start of the protected word (SRAM, 8 bytes) or sector (HBM, 32 bytes) that holds a canonical address. -/
def wordKey (c : Nat) : Nat := if isHbm c then c - c % 32 else c - c % 8

/-- The bytes a protected word or sector holds. -/
def wordSize (c : Nat) : Nat := if isHbm c then 32 else 8

/-- The unit that holds a stored word or sector, and its class (R27, R494). -/
def State.storeUnit (s : State) (c : Nat) : Nat × Nat :=
  if isHbm c then (0x6000 + hbmStack c * 0x100 + Config.pseudoChannel (hbmOffset c) % 32, 5)
  else if c < scratchBase then (0x1000 + (c - rsvBase) / 2 ^ 32 * 0x100 + bankOf (c % 2 ^ 28), 0)
  else (s.clusterUnit ((c - scratchBase) / 2 ^ 24) 0xA, 1)

-- Stored words -----------------------------------------------------------------------------------------------------

/-- What a mark amounts to when its word or sector is read (R483 to R485). -/
inductive Finding where
  | good | corrected (n : Nat) (pos : Option Nat) | uncorrectable | poison | open_
  deriving DecidableEq, Repr

/-- Judge an SRAM word's mark (R483, R484). -/
def judgeSram (m : Mark) : Finding :=
  match m.poison, m.bits.length with
  | false, 0 => .good
  | false, 1 => .corrected 1 m.bits.head?
  | false, 2 => .corrected 2 none
  | false, 3 => .uncorrectable
  | true, 0 => .poison
  | true, 1 => .uncorrectable
  | _, _ => .open_

/-- Judge an HBM sector's mark (R485): poison byte first, then the symbols in error. -/
def judgeHbm (m : Mark) : Finding :=
  let flips := (m.bits.filter fun b => decide (35 ≤ b)).length
  let syms := (m.bits.filter fun b => decide (b < 35)).eraseDups
  if (if m.poison then decide (flips ≤ 3) else decide (5 ≤ flips)) then .poison
  else match syms.length with
    | 0 => .good
    | 1 => .corrected 1 syms.head?
    | 2 => .uncorrectable
    | _ => .open_

/-- Erase a mark. -/
def State.clearMark (s : State) (k : Nat) : State := { s with marks := tblErase k s.marks }

/-- Put the poison mark into a word or sector: all-zero data (R484, R485). -/
def State.poisonWord (s : State) (k : Nat) : State :=
  { s with marks := tblSet k ⟨true, []⟩ s.marks, mem := memZero s.mem k (wordSize k) }

/-- The positions in error after one more upset (log entry 37): a bit struck again is right again; an HBM symbol struck again is still in
error. -/
def strike (hbm : Bool) (bits : List Nat) (b : Nat) : List Nat :=
  if !bits.contains b then bits ++ [b] else if hbm && decide (b < 35) then bits else bits.erase b

/-- Strike storage with an upset an event brought (R483, R485). -/
def State.upset (s : State) (u : Upset) : State :=
  let k := wordKey u.addr
  let m := tblGetD k ⟨false, []⟩ s.marks
  { s with marks := tblPut k ⟨false, []⟩ ⟨m.poison, u.bits.foldl (strike (isHbm k)) m.bits⟩ s.marks }

/-- Report an uncorrectable word or sector: counter, log entry, bucket and UNCORRECTABLE record (R488, R492, R495), which names the word
or sector, or an entry inside it where a rule says so (R139). -/
def State.reportUncorrectable (s : State) (k source : Nat) (named : Nat := k) : State :=
  let hbm := isHbm k
  let (unit, cls) := s.storeUnit k
  let s := if hbm then s.countWrap Reg.ECC_CNT_HBM Fld.ECC_CNT_HBM_UNCORR 1
           else s.countWrap Reg.ECC_CNT_SRAM Fld.ECC_CNT_SRAM_UNCORR 1
  let s := s.logEntry k unit 3 source none
  let (d, s) := s.uncorrectableDetail (b2n hbm) source
  let s := s.fault unit Code.uncorrectable (some named) d
  s.eccEvent cls unit 0 true k

/-- Read the protected word or sector at `k` for errors (R483 to R485, R495): the status a requester gets, and the state with
a correction written back, counted and logged. -/
def State.checkWord (s : State) (k source : Nat) (named : Nat := k) : Nat × State :=
  match tblFind k s.marks with
  | none => (0, s)
  | some m =>
    let hbm := isHbm k
    let (unit, cls) := s.storeUnit k
    match (if hbm then judgeHbm m else judgeSram m) with
    | .good => (0, s)
    | .corrected n pos =>
      let s := s.clearMark k
      let s := if hbm then s.countWrap Reg.ECC_CNT_HBM Fld.ECC_CNT_HBM_SECTOR_CORR 1
               else s.countWrap Reg.ECC_CNT_SRAM Fld.ECC_CNT_SRAM_CORRECTED 1
      let s := s.logEntry k unit (if hbm then 2 else n - 1) source pos
      (0, s.eccEvent cls unit 0 false k)
    | .uncorrectable => (Code.uncorrectable, s.reportUncorrectable k source named)
    | .poison => (Code.poisoned, s.logEntry k unit 4 source none)
    | .open_ =>
      let (b, s) := s.takeFree .badPattern
      if b % 2 = 0 then (Code.uncorrectable, s.reportUncorrectable k source named)
      else
        let (v, s) := s.takeFree .badData
        (0, { s.clearMark k with mem := memPutNat s.mem k (wordSize k) v })

/-- The keys of the words or sectors that `n` bytes from canonical address `c` touch. -/
def wordKeys (c n : Nat) : List Nat :=
  let w := wordSize c
  if n = 0 then [] else (List.range ((c + n - 1) / w - c / w + 1)).map fun i => wordKey c + i * w

/-- Check every word that a read touches; the worst status, uncorrectable before poisoned. -/
def State.checkWords (s : State) (source : Nat) : List Nat → Nat × State
  | [] => (0, s)
  | k :: ks =>
    let (a, s) := s.checkWord k source
    let (b, s) := State.checkWords s source ks
    (if a = Code.uncorrectable || b = 0 then a else b, s)

/-- Read `n` bytes at a canonical address with the protection rules: status and data (zero data when the read fails). -/
def State.readStore (s : State) (c n source : Nat) : Nat × List Byte × State :=
  let (st, s) := s.checkWords source (wordKeys c n)
  (st, if st = 0 then memBytes s.mem c n else List.replicate n 0, s)

/-- Write part or all of one protected word or sector: `be` enables the bytes of `data`, which begins at `k` (R486). -/
def State.writeWord (s : State) (k be : Nat) (data : List Byte) (poison : Bool) : State :=
  let n := wordSize k
  if be % 2 ^ n = 0 then s
  else if be % 2 ^ n = 2 ^ n - 1 then
    if poison then s.poisonWord k
    else { s with mem := memPutMasked s.mem k be data, marks := tblErase k s.marks }
  else
    let bad := match tblFind k s.marks with
      | none => false
      | some m => match (if isHbm k then judgeHbm m else judgeSram m) with
        | .uncorrectable => true
        | .poison => true
        | _ => false
    if bad then
      let (unit, _) := s.storeUnit k
      let (d, s) := s.uncorrectableDetail (b2n (isHbm k)) 2
      (s.fault unit Code.uncorrectable (some k) d).poisonWord k
    else
      let (_, s) := s.checkWord k 2
      if poison then s.poisonWord k else { s with mem := memPutMasked s.mem k be data }

/-- Write `data` from canonical address `c` on under byte enables, word by word; `fuel` bounds the words. -/
def State.writeStoreBe (s : State) (fuel c be : Nat) (data : List Byte) (poison : Bool) : State :=
  match fuel with
  | 0 => s
  | fuel + 1 =>
    if data.isEmpty then s
    else
      let k := wordKey c
      let skip := c - k
      let n := wordSize k - skip
      let piece := List.replicate skip (0 : Byte) ++ data.take n
      let mask := (be % 2 ^ min n data.length) * 2 ^ skip
      State.writeStoreBe (s.writeWord k mask piece poison) fuel (c + n) (be / 2 ^ n) (data.drop n) poison

/-- Write all of `data` from canonical address `c` on. -/
def State.writeStore (s : State) (c : Nat) (data : List Byte) (poison : Bool) : State :=
  s.writeStoreBe (data.length / 8 + 2) c (2 ^ data.length - 1) data poison

-- The Reservoir's write rules --------------------------------------------------------------------------------------

/-- The layer a region is sealed for, when it is sealed (R55, R109). -/
def State.sealedLayer (s : State) (region : Nat) : Option Nat := tblFind region s.rsv.sealed

/-- A SEAL_LATE record (R56, R58, R558) of Reservoir die `die`. -/
def State.sealLate (s : State) (die region layer kind node source layer2 : Nat) (addr : Option Nat) : State :=
  s.fault (0x1050 + die * 0x100) Code.sealLate addr
    (region + layer % 2 ^ 12 * 2 ^ 8 + kind * 2 ^ 20 + node % 2 ^ 16 * 2 ^ 24 + source % 64 * 2 ^ 40 + layer2 % 2 ^ 12 * 2 ^ 46)

def State.varveAcc (s : State) (region die : Nat) : VarveAcc := tblGetD (region * 4 + die) ⟨0, 0, false⟩ s.rsv.varve
def State.setVarveAcc (s : State) (region die : Nat) (v : VarveAcc) : State :=
  { s with rsv := { s.rsv with varve := tblPut (region * 4 + die) ⟨0, 0, false⟩ v s.rsv.varve } }

/-- The byte mask of byte enables (R126). -/
def mask64 : Nat → Nat → Nat
  | 0, _ => 0
  | n + 1, m => (if m % 2 = 1 then 0xFF else 0) + 256 * mask64 n (m / 2)

/-- Fold the term of one 64-bit word written at region offset `o` (R126, R127). -/
def State.foldTerm (s : State) (region die o be data : Nat) (poison : Bool) : State :=
  let v := s.varveAcc region die
  let d := if poison then 0 else data &&& mask64 8 be
  let term := th64 d (o / 8 * 2 ^ 8 ||| be)
  s.setVarveAcc region die ⟨v.acc + BitVec.ofNat 64 term, v.cnt + 1, v.poison || poison⟩

/-- Fold the terms of the words that `data` at region offset `o` writes; `fuel` bounds the words. -/
def State.foldTerms (s : State) (fuel region die o be : Nat) (data : List Byte) (poison : Bool) : State :=
  match fuel with
  | 0 => s
  | fuel + 1 =>
    if data.isEmpty then s
    else
      let skip := o % 8
      let n := 8 - skip
      let mask := (be % 2 ^ min n data.length) * 2 ^ skip
      let word := leNat (List.replicate skip (0 : Byte) ++ data.take n)
      let s := if mask = 0 then s else s.foldTerm region die (o - skip) mask word poison
      State.foldTerms s fuel region die (o + n) (be / 2 ^ n) (data.drop n) poison

/-- One write that stays inside a granule of a Reservoir die: refused by a sealed region (R56) and in a SLUICE region for any
but the Sluice control (R108), naming the address `seen` as its requester gave it (R44); otherwise applied and folded. The status answered. -/
def State.rsvWrite (s : State) (who : Requester) (node : Nat) (sluice : Bool) (seen die x : Nat) (region : Option (Nat × Nat))
    (be : Nat) (data : List Byte) (poison : Bool) : Nat × State :=
  let c := rsvBase + die * 2 ^ 32 + x
  match region with
  | none => (0, s.writeStoreBe (data.length / 8 + 2) c be data poison)
  | some (n, o) =>
    let r := s.region n
    if r.type = 3 && !sluice then (Code.addressUnmapped, s.unmapped who seen .write)
    else match s.sealedLayer n with
      | some layer => (Code.sealLate, s.sealLate die n layer 0 node 0x3F 0 (some c))
      | none =>
        let s := s.writeStoreBe (data.length / 8 + 2) c be data poison
        (0, if r.varve then s.foldTerms (data.length / 8 + 2) n die o be data poison else s)

-- Banks --------------------------------------------------------------------------------------------------------------

/-- Occupy a bank (R100), given the age of the request: the cycles it waits are counted (R101). -/
def State.takeBank (s : State) (die x age hold : Nat) : State :=
  let key := die * 64 + bankOf x
  let start := max s.clock.cycles (tblGetD key 0 s.banks)
  let s : State := { s with banks := tblSet key (start + hold) s.banks }
  s.countWrap (Reg.RSV_BANK_STAT die) Fld.RSV_BANK_STAT_WAIT_CYCLES (start - min age start)

/-- Does a write enable only part of some 64-bit word it touches (R100)? `be` and `n` count from byte `x` on. -/
def partialWord (x n be : Nat) : Bool :=
  let mask := (be % 2 ^ n) * 2 ^ (x % 8)
  (chunksOf 8 ((n + 15) / 8) mask).any fun m => m != 0 && m != 255

/-- The accesses that `n` bytes from byte `x` of a die make, as start and length: one for each 256-byte line (R99). -/
def linesAt (x n : Nat) : List (Nat × Nat) :=
  if n = 0 then []
  else (List.range ((x + n - 1) / 256 - x / 256 + 1)).map fun i =>
    let a := max x ((x / 256 + i) * 256)
    (a, min (x + n) ((x / 256 + i + 1) * 256) - a)

/-- The banks that a read takes (R100): 4 cycles an access. A read outside the Reservoir takes none. -/
def State.bankRead (s : State) (c n age : Nat) : State :=
  if rsvBase ≤ c && c < rsvBase + 2 ^ 34 then
    (linesAt (c % 2 ^ 28) n).foldl (fun s e => s.takeBank ((c - rsvBase) / 2 ^ 32) e.1 age 4) s
  else s

/-- The banks that a write takes (R100, R101): 4 cycles an access, 8 for a read-modify-write, which is counted. -/
def State.bankWrite (s : State) (die x n be age : Nat) : State :=
  (linesAt x n).foldl (fun s e =>
    if (be >>> (e.1 - x)) % 2 ^ e.2 = 0 then s
    else if partialWord e.1 e.2 (be >>> (e.1 - x)) then
      (s.takeBank die e.1 age 8).countWrap (Reg.RSV_BANK_STAT die) Fld.RSV_BANK_STAT_RMW_WRITES 1
    else s.takeBank die e.1 age 4) s

/-- Read storage for a requester that has waited since cycle `age`: the banks it takes, then the words (R100, R483). -/
def State.fetch (s : State) (c n source age : Nat) : Nat × List Byte × State := (s.bankRead c n age).readStore c n source

/-- Write the Reservoir for a requester that has waited since cycle `age`: a write that is applied takes its banks (R56, R100). -/
def State.rsvStore (s : State) (age : Nat) (who : Requester) (node : Nat) (sluice : Bool) (seen die x : Nat)
    (region : Option (Nat × Nat)) (be : Nat) (data : List Byte) (poison : Bool) : Nat × State :=
  let (st, s) := s.rsvWrite who node sluice seen die x region be data poison
  (st, if st = 0 then s.bankWrite die x data.length be age else s)

/-- Does a data path of the package lead from a requester to the scratchpad of logical cluster `k` (R34)? The engines of a cluster reach no
other compute die; the Watermaster writes code areas (R373). -/
def State.reaches (s : State) (who : Requester) (k : Nat) : Bool :=
  match who with
  | .core n _ => s.physical n / 4 == s.physical k / 4
  | .dma n _ => s.physical n / 4 == s.physical k / 4
  | .array n => s.physical n / 4 == s.physical k / 4
  | .flume n => s.physical n / 4 == s.physical k / 4
  | .vector n => s.physical n / 4 == s.physical k / 4
  | .wm _ => true
  | .control => true
  | _ => false

/-- The memory place that an engine's address reaches: nothing where it is unmapped or no path leads (R34, R44). -/
def State.reach (s : State) (who : Requester) (a : Nat) : Place :=
  match s.decode a with
  | .scratch k o => if s.reaches who k then .scratch k o else .unmapped
  | p => p

-- Engine accesses to the local map ---------------------------------------------------------------------------------

/-- Bytes from `a` that stay within one 4 KiB granule. -/
def granuleLeft (a : Nat) : Nat := 4096 - a % 4096

/-- Charge bytes that an engine of the running job reads from or writes to HBM (R450); the Jorper agents are engines of the job (R442). -/
def State.chargeHbm (s : State) (who : Requester) (n : Nat) : State :=
  let engine := match who with
    | .wm _ => false
    | .link => false
    | .control => false
    | .hbm _ _ => false
    | _ => true
  match s.job with
  | some j => if engine then s.countWrap (Reg.WM_ACCT3 j) Fld.WM_ACCT3_HBM_BYTES n else s
  | none => s

/-- Write under byte enables to the local map, granule by granule, for an engine of this device or a fabric store: the first
status other than OK, or OK (R37, R44, R56). Set-up space, doorbells, fabric and companion addresses are not written here. -/
def State.writeLocalBe (s : State) (fuel : Nat) (who : Requester) (node a be : Nat) (data : List Byte) (poison : Bool) :
    Nat × State :=
  match fuel with
  | 0 => (0, s)
  | fuel + 1 =>
    if data.isEmpty then (0, s)
    else
      let n := min data.length (granuleLeft a)
      let (st, s) := match s.reach who a with
        | .hbm c => (0, (s.chargeHbm who n).writeStoreBe (n / 8 + 2) c (be % 2 ^ n) (data.take n) poison)
        | .scratch k o =>
          (0, s.writeStoreBe (n / 8 + 2) (scratchBase + k * 2 ^ 24 + o) (be % 2 ^ n) (data.take n) poison)
        | .rsv d x reg => s.rsvStore s.clock.cycles who node false a d x reg (be % 2 ^ n) (data.take n) poison
        | _ => (Code.addressUnmapped, s.unmapped who a .write)
      let (st2, s) := State.writeLocalBe s fuel who node (a + n) (be / 2 ^ n) (data.drop n) poison
      (if st = 0 then st2 else st, s)

/-- Write bytes to the local map for an engine of this device. -/
def State.writeLocal (s : State) (who : Requester) (a : Nat) (data : List Byte) (poison : Bool) : Nat × State :=
  s.writeLocalBe (data.length / 4096 + 2) who s.node a (2 ^ data.length - 1) data poison

/-- Read bytes of the local map, granule by granule: the worst status, and the data. -/
def State.readLocalAux (s : State) (fuel : Nat) (who : Requester) (source a n : Nat) : Nat × List Byte × State :=
  match fuel with
  | 0 => (0, [], s)
  | fuel + 1 =>
    if n = 0 then (0, [], s)
    else
      let m := min n (granuleLeft a)
      let (st, bs, s) := match (s.reach who a).canon with
        | some c => (if isHbm c then s.chargeHbm who m else s).fetch c m source s.clock.cycles
        | none => (Code.addressUnmapped, List.replicate m 0, s.unmapped who a .read)
      let (st2, bs2, s) := State.readLocalAux s fuel who source (a + m) (n - m)
      (if st = 0 then st2 else st, bs ++ bs2, s)

/-- A demand read of the local map. -/
def State.readLocal (s : State) (who : Requester) (a n : Nat) : Nat × List Byte × State :=
  s.readLocalAux (n / 4096 + 2) who 0 a n

/-- The region-view address of an offset of a region (R35). -/
def regionAddr (region off : Nat) : Nat := rsvRegionBase + region * 2 ^ 30 + off

end Sys2Proof.Machine
end

