-- ==== Sys2Proof/Machine/Reservoir.lean ====
section
/-! DEFINITION. The Reservoir's commands: bank accesses, link flits, seals and releases, varve marks and records, and writes of
the region table (R28 to R31, R54 to R58, R97 to R110, R126 to R134). -/

namespace Sys2Proof.Machine

-- Accesses ---------------------------------------------------------------------------------------------------------

/-- One access within a 256-byte line (R99): bank, bytes, errors, seals and varve. Status and data. -/
def State.accessLine (s : State) (q : RsvRequest) : Nat × List Byte × State :=
  match s.decode q.addr with
  | .rsv d x reg =>
    if q.write then
      let (st, s) := s.rsvStore q.age q.who s.node false q.addr d x reg q.be q.data q.poison
      (st, [], s)
    else s.fetch (rsvBase + d * 2 ^ 32 + x) q.len 0 q.age
  | _ => (Code.addressUnmapped, [], s.unmapped q.who q.addr (if q.write then .write else .read))

/-- Split a request at 256-byte lines, as the requester's link interface does (R99). -/
def splitRequest : Nat → RsvRequest → List RsvRequest
  | 0, _ => []
  | fuel + 1, q =>
    let n := 256 - q.addr % 256
    let len := if q.write then q.data.length else q.len
    if len ≤ n then [q]
    else { q with data := q.data.take n, len := min q.len n } ::
      splitRequest fuel { q with addr := q.addr + n, data := q.data.drop n, be := q.be / 2 ^ n, len := q.len - n }

/-- The order in which waiting requests are granted: oldest first, then lowest Reservoir port, then the turn of the dies that share the
port (R29, R100). -/
def State.grantOrder (s : State) (a b : RsvRequest) : Bool :=
  let p := s.rsvPortOf a.who
  let q := s.rsvPortOf b.who
  decide (a.age < b.age) || (a.age == b.age && (decide (p < q) || (p == q && s.turnBefore a.who b.who)))

/-- Serve one request, line by line, and answer it. -/
def State.serveRequest (s : State) (q : RsvRequest) : State :=
  let r := (splitRequest (max q.len q.data.length / 256 + 2) q).foldl
    (fun (acc : Nat × List Byte × State) p =>
      let (st, bs, s) := acc.2.2.accessLine p
      (if acc.1 = 0 then st else acc.1, acc.2.1 ++ bs, s)) (0, [], s)
  r.2.2.emit (.bus q.who q.addr r.1 r.2.1)

/-- RESERVOIR_ACCESS: the waiting requests are granted in order, after the upsets that storage has met (R100). -/
def State.reservoirAccess (s : State) (reqs : List RsvRequest) (upsets : List Upset) : State :=
  let s := upsets.foldl State.upset s
  (sortBy s.grantOrder reqs).foldl State.serveRequest s

-- Data-plane links -------------------------------------------------------------------------------------------------

/-- The transfers that a lasting link carried end as UNCORRECTABLE bus errors (R31, R49). -/
def State.endCarried (s : State) (unit : Nat) (carried : List (Requester × Nat)) : State :=
  carried.foldl (fun s c => (s.fault unit Code.uncorrectable (some c.2) 2).emit (.bus c.1 c.2 Code.uncorrectable [])) s

/-- Note that a link direction is lasting. -/
def State.noteLasting (s : State) (k : Nat) : State :=
  { s with ecc := { s.ecc with linkFails := tblErase k s.ecc.linkFails,
                               linkLasting := (s.ecc.linkLasting ++ [k]).eraseDups } }

/-- FLIT_RECEIVE: a flit with a bad CRC is replayed and counted. A link becomes lasting by the count, or after eight failed replays, and
the transfers it carried end UNCORRECTABLE (R31, R49, R494). A link that R28 does not list carries nothing. -/
def State.flitReceive (s : State) (l : DieLink) (crcOk : Bool) (carried : List (Requester × Nat)) : State :=
  let k := linkKey l
  let u := linkUnit l
  if !l.wf then s
  else if crcOk then { s with ecc := { s.ecc with linkFails := tblErase k s.ecc.linkFails } }
  else
    let n := tblGetD k 0 s.ecc.linkFails
    if n < 8 then
      let was := (s.bucket (bucketKey 6 u (linkLane l))).lasting
      let s : State := { s with ecc := { s.ecc with linkFails := tblSet k (n + 1) s.ecc.linkFails } }
      let s := s.eccEvent 6 u (linkLane l) false 0
      if !was && (s.bucket (bucketKey 6 u (linkLane l))).lasting && s.actEnabled 6 then (s.noteLasting k).endCarried u carried
      else s.emit (.replay k)
    else
      let acts := !(s.bucket (bucketKey 6 u (linkLane l))).lasting && s.actEnabled 6
      let s := (s.noteLasting k).markLasting 6 u (linkLane l) 0
      (if l.fwd || acts then s else s.linkLasting l.cls l.idx l.rsv).endCarried u carried

-- Seals ------------------------------------------------------------------------------------------------------------

/-- The seal source of an engine (R109); engines that seal nothing have none. -/
def sealSource : Requester → Option Nat
  | .core n _ => some n
  | .dma n _ => some n
  | .array n => some n
  | .flume n => some n
  | .vector n => some n
  | .engine e _ => some (32 + e)
  | .wm k => some (40 + k)
  | _ => none

def popCount : Nat → Nat → Nat
  | 0, _ => 0
  | n + 1, v => v % 2 + popCount n (v / 2)

/-- Can a region of this type be sealed or carry varves (R102)? -/
def sealable (type : Nat) : Bool := type == 1 || type == 2 || type == 6

def State.sealCount (s : State) (region die : Nat) : SealCount := tblGetD (region * 4 + die) ⟨0, 0⟩ s.rsv.sealBits

/-- Has every die counted the expected seals, all of one layer (R55, R109)? -/
def State.sealComplete (s : State) (region : Nat) : Bool :=
  let r := s.region region
  (List.range 4).all fun d =>
    popCount 64 (s.sealCount region d).bits == r.seals && (s.sealCount region d).layer == (s.sealCount region 0).layer

/-- A completed mark becomes a record in waiting, when records are enabled in this cycle (R129, R132). -/
def State.markDone (s : State) (region layer : Nat) (explicit : Bool) (v : VarveAcc) : State :=
  if s.flag Reg.RSV_VARVE_CTRL Fld.RSV_VARVE_CTRL_RING_ENABLE then
    let r : VarveRecord :=
      { job := s.jobNum, region := region, layer := layer, explicit := explicit, poison := v.poison,
        countSat := decide (2 ^ 32 - 1 < v.cnt), lostBefore := false, count := min v.cnt (2 ^ 32 - 1),
        digest := v.acc.toNat, time := s.stamp, timeValid := s.timeValid, node := s.node, seq := 0 }
    let le (a b : Nat × VarveRecord) : Bool := decide (a.1 < b.1) || (a.1 == b.1 && decide (a.2.region ≤ b.2.region))
    let ready := insertBy le (s.clock.cycles, r) s.rsv.ready
    { s with rsv := { s.rsv with ready := ready } }
  else s

def VarveAcc.add (a b : VarveAcc) : VarveAcc := ⟨a.acc + b.acc, a.cnt + b.cnt, a.poison || b.poison⟩

/-- Snapshot and zero a region's accumulator on one die (R128). -/
def State.snapVarve (s : State) (region die : Nat) : VarveAcc × State :=
  (s.varveAcc region die, s.setVarveAcc region die ⟨0, 0, false⟩)

/-- The seal mark of a region that becomes sealed (R57, R128). -/
def State.sealMark (s : State) (region layer : Nat) : State :=
  if (s.region region).varve then
    let v := (List.range 4).foldl (fun (a : VarveAcc) d => a.add (s.varveAcc region d)) ⟨0, 0, false⟩
    let s := (List.range 4).foldl (fun s d => (s.snapVarve region d).2) s
    s.markDone region layer false v
  else s

/-- A seal reaches one Reservoir die (R54 to R58, R109). A seal that names a layer other than the one held is of kind 4 whatever else it is,
as R109 discards every such seal so (DEDUCED, log entry 14). -/
def State.sealOnDie (s : State) (who : Requester) (region layer die : Nat) : State :=
  match sealSource who with
  | none => s
  | some src =>
    let r := s.region region
    let c := s.sealCount region die
    if !sealable r.type || r.seals == 0 then s.sealLate die region layer 1 s.node src 0 none
    else if c.bits != 0 && c.layer != layer then s.sealLate die region c.layer 4 s.node src layer none
    else if (s.sealedLayer region).isSome || bitAt c.bits src || decide (r.seals ≤ popCount 64 c.bits) then
      s.sealLate die region layer 1 s.node src 0 none
    else
      let s : State := { s with rsv := { s.rsv with
        sealBits := tblSet (region * 4 + die) ⟨c.bits ||| 2 ^ src, layer⟩ s.rsv.sealBits } }
      if s.sealComplete region then
        let s : State := { s with rsv := { s.rsv with
          sealed := tblSet region layer s.rsv.sealed, sealTimes := tblSet region s.now s.rsv.sealTimes } }
        s.sealMark region layer
      else s

/-- A seal sent on all four links by an engine of the device itself. -/
def State.sealAll (s : State) (who : Requester) (region layer : Nat) : State :=
  (List.range 4).foldl (fun s d => s.sealOnDie who region layer d) s

/-- Forget what the dies hold about the seals of a region (R106, R109). -/
def State.dropSeals (s : State) (region : Nat) : State :=
  { s with rsv := { s.rsv with
      sealBits := s.rsv.sealBits.filter fun e => e.1 / 4 != region,
      sealed := tblErase region s.rsv.sealed,
      tables := tblErase region s.rsv.tables } }

/-- REGION_RELEASE: a sealed region accepts writes for its next layer; on a region not sealed it is ignored (R56, R109). -/
def State.regionRelease (s : State) (region : Nat) : State :=
  if (s.sealedLayer region).isSome then s.dropSeals region else s

-- Varves -----------------------------------------------------------------------------------------------------------

/-- A mark with one die more joins the open marks `rest`, or is complete with its fourth die (R128). -/
def State.joinMark (s : State) (m : VarveMark) (rest : List VarveMark) : State :=
  if m.dies.length = 4 then
    let t : State := { s with rsv := { s.rsv with marks := rest } }
    t.markDone m.region m.layer true m.sum
  else { s with rsv := { s.rsv with marks := rest ++ [m] } }

/-- An explicit VARVE_MARK reaches one die (R128): snapshot; with the fourth die the mark is complete. -/
def State.varveMark (s : State) (who : Requester) (region layer die : Nat) : State :=
  if !(s.region region).varve then s
  else
    let (v, s) := s.snapVarve region die
    let fits (m : VarveMark) : Bool := m.who == who && m.region == region && m.layer == layer && !m.dies.contains die
    match s.rsv.marks.find? fits with
    | none => s.joinMark ⟨who, region, layer, [die], VarveAcc.add ⟨0, 0, false⟩ v⟩ s.rsv.marks
    | some m => s.joinMark { m with dies := die :: m.dies, sum := m.sum.add v } (s.rsv.marks.erase m)

/-- The 32 bytes of a varve record (R130). -/
def VarveRecord.bytes (r : VarveRecord) : List Byte :=
  leBytes 1 r.job ++ leBytes 1 r.region ++
  leBytes 2 (r.layer % 4096 + 4096 * (b2n r.explicit + 2 * b2n r.poison + 4 * b2n r.countSat + 8 * b2n r.lostBefore)) ++
  leBytes 4 r.count ++ leBytes 8 r.digest ++ leBytes 8 r.time ++ leBytes 2 r.node ++ leBytes 4 r.seq ++
  leBytes 1 (b2n r.timeValid) ++ leBytes 1 0

/-- The varve ring (R415). -/
def State.varveRing (s : State) : Nat := s.fld Reg.TL_EVENT Fld.TL_EVENT_VARVE_RING

/-- Put one record into the varve ring and write its TAIL back (R414). -/
def State.varveToRing (s : State) (r : VarveRecord) : State :=
  let s := s.ringAppend s.varveRing r.bytes
  s.ringWriteBack s.varveRing (s.ring s.varveRing).tail

/-- Move buffered records into the varve ring while it has room (R131). -/
def State.drainVarves : Nat → State → State
  | 0, s => s
  | fuel + 1, s =>
    match s.rsv.buffer with
    | [] => s
    | r :: rest =>
      if s.ringRoom s.varveRing 5 then
        let t : State := { s with rsv := { s.rsv with buffer := rest } }
        State.drainVarves fuel (t.varveToRing r)
      else s

/-- VARVE_RECORD_WRITE: buffered records enter the ring as room allows; then the oldest completed mark's record enters the
ring, or the buffer of 256, or is lost (R129, R131). -/
def State.varveRecordWrite (s : State) : State :=
  let s := State.drainVarves 256 s
  match s.rsv.ready with
  | [] => s
  | (_, r) :: rest =>
    let r := { r with seq := s.rsv.seq, lostBefore := s.rsv.lost }
    let s : State := { s with rsv := { s.rsv with ready := rest, seq := (s.rsv.seq + 1) % 2 ^ 32 } }
    if s.rsv.buffer.isEmpty && s.ringRoom s.varveRing 5 then
      let t : State := { s with rsv := { s.rsv with lost := false } }
      t.varveToRing r
    else if s.rsv.buffer.length < 256 then
      { s with rsv := { s.rsv with lost := false, buffer := s.rsv.buffer ++ [r] } }
    else
      let t : State := { s with rsv := { s.rsv with lost := true } }
      t.countSat Reg.RSV_VARVE_LOST Fld.RSV_VARVE_LOST_LOST 1

-- The region table -------------------------------------------------------------------------------------------------

/-- Do two regions share a granule on some die (R105 kind 0)? -/
def Region.overlaps (a b : Region) : Bool :=
  (!a.pinned || !b.pinned || a.pinDie == b.pinDie) &&
  decide (a.base < b.base + b.span) && decide (b.base < a.base + a.span)

/-- Is granule `p` of die `d` retired (R503)? -/
def State.granuleRetired (s : State) (d p : Nat) : Bool := bitAt (s.reg (Reg.ECC_RSV_RETIRE d (p / 64))) (p % 64)

/-- Does a footprint hold a retired granule? Only listed retirement words are looked at. -/
def State.footprintRetired (s : State) (r : Region) : Bool :=
  (List.range 4).any fun d =>
    (s.regRange (Reg.ECC_RSV_RETIRE d 0) 0x2000).any fun e =>
      (List.range 64).any fun i => bitAt e.2 i && r.occupies d (e.1 / 8 * 64 + i)

/-- The lowest kind under which a write of the region word `w` to entry `n` is refused, with the overlapped region (R105,
R503). -/
def State.regionRefusal (s : State) (n w : Nat) : Option (Nat × Nat) :=
  let r := Region.ofWord w
  let live := r.type != 0
  match s.regions.find? fun e => live && e.1 != n && e.2.overlaps r with
  | some (m, _) => some (0, m)
  | none =>
    if live && ((!r.pinned && r.size % 4 != 0) || decide (65536 < r.base + r.span)) then some (1, 0)
    else if live && (s.region n).type != 0 then some (2, 0)
    else if (r.varve || r.seals != 0) && !sealable r.type then some (3, 0)
    else if live && s.footprintRetired r then some (6, 0)
    else none

/-- Note that a LAND region has become FREE: what has landed in it is forgotten (R70, R106). -/
def State.landFreed (s : State) (n : Nat) : State :=
  let l0 := s.fld Reg.HG_XCH_REGIONS Fld.HG_XCH_REGIONS_LAND0
  let l1 := s.fld Reg.HG_XCH_REGIONS Fld.HG_XCH_REGIONS_LAND1
  if n = l0 || n = l1 then
    let par := if n = l0 then 0 else 1
    { s with hg := { s.hg with
      landings := s.hg.landings.filter fun e => !(e.1 % 2 == par || l0 == l1),
      landReset := (n :: s.hg.landReset).eraseDups } }
  else s

/-- A region is in use again: when both LAND regions have passed through FREE, a failed job's Headgate may start steps again
(R70, R142). -/
def State.landBack (s : State) : State :=
  let l0 := s.fld Reg.HG_XCH_REGIONS Fld.HG_XCH_REGIONS_LAND0
  let l1 := s.fld Reg.HG_XCH_REGIONS Fld.HG_XCH_REGIONS_LAND1
  if s.hg.faulted && s.hg.landReset.contains l0 && s.hg.landReset.contains l1 && (s.region l0).type != 0 && (s.region l1).type != 0 then
    { s with hg := { s.hg.newJob with nextStep := s.hg.nextStep } }
  else s

/-- A write of RSV_REGION_n (R103, R105, R106): refused with REGION_INVALID, or applied to all four dies; FREE discards the
region's seal counts, landed-store counts and varve accumulators. -/
def State.regionWrite (s : State) (n v : Nat) : State :=
  let w := v % 2 ^ 50 &&& (2 ^ 50 - 1 - 0x80)
  match s.regionRefusal n w with
  | some (kind, other) =>
    s.fault 0x1050 Code.regionInvalid (some (setupBase + Reg.RSV_REGION n))
      (n + kind * 2 ^ 12 + (if kind = 0 then other * 2 ^ 16 else 0))
  | none =>
    let s := s.setReg (Reg.RSV_REGION n) w
    if (Region.ofWord w).type = 0 then
      let s := s.dropSeals n
      let s : State := { s with rsv := { s.rsv with varve := s.rsv.varve.filter fun e => e.1 / 4 != n } }
      s.landFreed n
    else s.landBack

/-- Set-up addresses of RSV_REGION entries: the entry number (instance 0 only, R103). -/
def regionIndex (a : Nat) : Option Nat :=
  if Reg.RSV_REGION 0 ≤ a && a < Reg.RSV_REGION 256 && a % 8 = 0 then some ((a - Reg.RSV_REGION 0) / 8) else none

end Sys2Proof.Machine
end

