-- ==== Sys2Proof/Machine/Sluice.lean ====
section
/-! DEFINITION. The Sluice control: channels, their commands and answers, packets, resets and descriptor writes (R111 to
R125). -/

namespace Sys2Proof.Machine

def flip17 (p : Nat) : Nat := (2 ^ 17 - 1) ^^^ (p % 2 ^ 17)

/-- A channel that starts empty (R112). -/
def Channel.empty : Channel :=
  { head := 0, headInv := flip17 0, tail := 0, tailInv := flip17 0, inPacket := false, dropping := false,
    resetProd := false, resetCons := false, resets := 0, emptyReads := 0, fullRefs := 0, waiting := none,
    held := [], fenced := [] }

def State.chan (s : State) (c : Nat) : Channel := tblGetD c Channel.empty s.chans
def State.setChan (s : State) (c : Nat) (x : Channel) : State := { s with chans := tblPut c Channel.empty x s.chans }

def State.chanOn (s : State) (c : Nat) : Bool := s.flag (Reg.SLC_CHAN0 c) Fld.SLC_CHAN0_ENABLE
def State.chanRegion (s : State) (c : Nat) : Nat := s.fld (Reg.SLC_CHAN0 c) Fld.SLC_CHAN0_REGION
def State.chanDepth (s : State) (c : Nat) : Nat := 2 ^ s.fld (Reg.SLC_CHAN0 c) Fld.SLC_CHAN0_DEPTH_LOG2
def State.chanStart (s : State) (c : Nat) : Nat := s.fld (Reg.SLC_CHAN0 c) Fld.SLC_CHAN0_BASE * 4096

/-- Items a channel holds (R116). -/
def Channel.count (x : Channel) : Nat := (x.tail + 2 ^ 17 - x.head) % 2 ^ 17

def Channel.moveHead (x : Channel) (n : Nat) : Channel :=
  { x with head := (x.head + n) % 2 ^ 17, headInv := flip17 (x.head + n) }
def Channel.moveTail (x : Channel) (n : Nat) : Channel :=
  { x with tail := (x.tail + n) % 2 ^ 17, tailInv := flip17 (x.tail + n) }

/-- Region offsets of an item slot, and of the bitmap word that holds its end mark (R113). -/
def State.slotOffset (s : State) (c p : Nat) : Nat := s.chanStart c + 64 * (p % s.chanDepth c)
def State.markOffset (s : State) (c p : Nat) : Nat :=
  s.chanStart c + 64 * s.chanDepth c + p % s.chanDepth c / 64 * 8

/-- Is the channel's storage wholly inside a SLUICE region (R105 kind 5, R113)? -/
def State.storageMapped (s : State) (region start depth : Nat) : Bool :=
  let r := s.region region
  r.type == 3 && decide (start + 64 * depth + depth / 8 ≤ r.size * 4096)

/-- The die-view place of an offset of the channel's region. -/
def State.chanPlace (s : State) (c o : Nat) : Nat × Nat := (s.region (s.chanRegion c)).place (s.chanRegion c) o

def canonRsv (p : Nat × Nat) : Nat := rsvBase + p.1 * 2 ^ 32 + p.2

/-- The answer tag (R115). -/
def sluiceTag (valid pktEnd accepted chanReset poisoned discarded notEnabled : Bool) (c count dropped : Nat) : Nat :=
  b2n valid + 2 * b2n pktEnd + 4 * b2n accepted + 8 * b2n chanReset + 16 * b2n poisoned + 32 * b2n discarded +
  64 * b2n notEnabled + c * 2 ^ 8 + count % 2 ^ 17 * 2 ^ 20 + dropped % 2 ^ 17 * 2 ^ 37

def noItem : List Byte := List.replicate 64 0

/-- The side of a channel a command reports resets to (R122): does its answer carry CHAN_RESET, and the flags afterwards. -/
def Channel.report (x : Channel) (op : SluiceOp) : Bool × Channel :=
  match op with
  | .push => (x.resetProd, { x with resetProd := false })
  | .count => (x.resetProd || x.resetCons, x)
  | .pop => (x.resetCons, { x with resetCons := false })
  | .peek => (x.resetCons, { x with resetCons := false })
  | .drop => (x.resetCons, { x with resetCons := false })

/-- The first failed check of the duplicated pointers (R121, R123). -/
def Channel.fails (x : Channel) (depth : Nat) : Option Nat :=
  if x.headInv != flip17 x.head then some 0
  else if x.tailInv != flip17 x.tail then some 1
  else if depth < x.count then some 2
  else none

/-- Reset a channel (R122). -/
def Channel.reset (x : Channel) : Channel :=
  { x with head := 0, headInv := flip17 0, tail := 0, tailInv := flip17 0, inPacket := false, dropping := false,
           resetProd := true, resetCons := true, resets := satAdd 8 x.resets 1 }

/-- A command finds a failure: the channel is reset, a CHANNEL_RESET record is written, and the command is answered with
CHAN_RESET and not applied (R122, R123). -/
def State.sluiceReset (s : State) (q : SluiceCmd) (cause : Nat) : SluiceAnswer × State :=
  let c := q.channel
  let x := s.chan c
  let s := s.fault (0x1051 + c % 4 * 0x100) Code.channelReset none (c + cause * 2 ^ 12 + x.head * 2 ^ 16 + x.tail * 2 ^ 33)
  let y := (x.reset.report q.op).2
  (⟨q.who, sluiceTag false false false true false false false c 0 0, noItem⟩, s.setChan c y)

/-- Read the end mark of pointer `p`; none when the bitmap word reads bad (R121). -/
def State.readMark (s : State) (c p : Nat) : Option Bool × State :=
  let k := wordKey (canonRsv (s.chanPlace c (s.markOffset c p)))
  let (st, s) := (s.bankRead k 8 s.clock.cycles).checkWord k 0
  if st = 0 then (some (bitAt (memNat s.mem k 8) (p % s.chanDepth c % 64)), s) else (none, s)

/-- The end marks of `n` pointers from `p` on, up to the first that is set: how many items that covers and whether a mark was
found; none when a bitmap word reads bad. -/
def State.scanMarks (s : State) (c : Nat) : Nat → Nat → Nat → Option (Nat × Bool) × State
  | 0, _, seen => (some (seen, false), s)
  | n + 1, p, seen =>
    let (m, s) := s.readMark c p
    match m with
    | none => (none, s)
    | some true => (some (seen + 1, true), s)
    | some false => State.scanMarks s c n ((p + 1) % 2 ^ 17) (seen + 1)

/-- Apply one command to a channel that is free (R115 to R122): its answer, whether the answer waits for storage, and the
state. -/
def State.sluiceApply (s : State) (q : SluiceCmd) : SluiceAnswer × Bool × State :=
  let c := q.channel
  let x := s.chan c
  let who := q.who
  if !s.chanOn c then
    (⟨who, sluiceTag false false false false false false true c x.count 0, noItem⟩, false, s)
  else if !s.storageMapped (s.chanRegion c) (s.chanStart c) (s.chanDepth c) then
    let (rst, y) := x.report q.op
    let tag := sluiceTag false false false rst false false false c 0 0
    let a (o : Nat) : Nat := regionAddr (s.chanRegion c) o
    let s := s.setChan c y
    match q.op with
    | .count => (⟨who, tag, noItem⟩, false, s)
    | .push => (⟨who, tag, noItem⟩, false, s.unmapped who (a (s.slotOffset c x.tail)) .write)
    | .drop => (⟨who, tag, noItem⟩, false, s.unmapped who (a (s.markOffset c x.head)) .read)
    | _ => (⟨who, tag, noItem⟩, false, s.unmapped who (a (s.slotOffset c x.head)) .read)
  else match x.fails (s.chanDepth c) with
  | some cause => let (a, s) := s.sluiceReset q cause; (a, false, s)
  | none =>
    let (rst, y) := x.report q.op
    match q.op with
    | .count => (⟨who, sluiceTag false false false rst false false false c x.count 0, noItem⟩, false, s)
    | .push =>
      if x.dropping then
        let y := if q.pktEnd then { y with dropping := false, inPacket := false } else y
        (⟨who, sluiceTag false false true rst false true false c x.count 0, noItem⟩, false, s.setChan c y)
      else if s.chanDepth c ≤ x.count then
        (⟨who, sluiceTag false false false rst false false false c x.count 0, noItem⟩, false,
          s.setChan c { y with fullRefs := satAdd 32 x.fullRefs 1 })
      else
        let (m, s) := s.readMark c x.tail
        match m with
        | none => let (a, s) := s.sluiceReset q 3; (a, false, s)
        | some _ =>
          let item := (q.data ++ noItem).take 64
          let p := s.chanPlace c (s.slotOffset c x.tail)
          let (_, s) := s.rsvStore s.clock.cycles who s.node true 0 p.1 p.2 (some (s.chanRegion c, s.slotOffset c x.tail)) (2 ^ 64 - 1) item false
          let k := canonRsv (s.chanPlace c (s.markOffset c x.tail))
          let w := putBits (memNat s.mem k 8) (x.tail % s.chanDepth c % 64) 1 (b2n q.pktEnd)
          let s := s.writeStore k (leBytes 8 w) false
          (⟨who, sluiceTag false false true rst false false false c (x.count + 1) 0, noItem⟩, false,
            s.setChan c (y.moveTail 1))
    | .drop =>
      if x.count = 0 then
        let y := if x.inPacket then { y with dropping := true } else y
        (⟨who, sluiceTag false false false rst false false false c 0 0, noItem⟩, true, s.setChan c y)
      else
        let (r, s) := s.scanMarks c x.count x.head 0
        match r with
        | none => let (a, s) := s.sluiceReset q 3; (a, false, s)
        | some (n, found) =>
          let y := y.moveHead n
          let y := if found then { y with inPacket := false }
                   else if x.inPacket then { y with dropping := true } else y
          (⟨who, sluiceTag false false false rst false false false c (x.count - n) n, noItem⟩, true, s.setChan c y)
    | op =>
      if x.count = 0 then
        (⟨who, sluiceTag false false false rst false false false c 0 0, noItem⟩, false,
          s.setChan c { y with emptyReads := satAdd 32 x.emptyReads 1 })
      else
        let (m, s) := s.readMark c x.head
        match m with
        | none => let (a, s) := s.sluiceReset q 3; (a, false, s)
        | some mark =>
          let (st, bs, s) := s.fetch (canonRsv (s.chanPlace c (s.slotOffset c x.head))) 64 0 s.clock.cycles
          let y := if op = .pop then { y.moveHead 1 with inPacket := !mark } else y
          (⟨who, sluiceTag true mark false rst (st != 0) false false c y.count 0, bs⟩, true, s.setChan c y)

/-- The control core whose Sluice port (R255) a requester's commands go through. -/
def slcPortCore : Requester → Option Nat
  | .core n k => some (4 * n + k)
  | _ => none

/-- Change the Sluice port of a requester that has one. -/
def State.onSlcPort (s : State) (who : Requester) (f : CoreState → CoreState) : State :=
  match slcPortCore who with
  | some i => s.onCore i f
  | none => s

/-- The request words that wait at a requester's port for the answer outstanding there (R255). -/
def State.slcPortQueue (s : State) (who : Requester) : List SluiceCmd :=
  match slcPortCore who with
  | some i => (s.core i).slcWait
  | none => []

/-- Has an issuer any operation open or waiting: through the fabric, an atomic its port has not issued, or an access to companion memory
not yet performed? A fence waits for all of them (R212, R353). -/
def State.opsOpen (s : State) (who : Requester) : Bool :=
  s.fab.opens.any (fun e => e.2.who == who) || s.fab.waiting.any (fun w => w.op.who == who) ||
  s.tl.writes.any (fun w => w.who == who) || s.tl.reads.any (fun r => r.who == who) ||
  (match coreKey who with | some i => !(s.core i).atomWait.isEmpty | none => false)

/-- Does a push with FENCE of this issuer wait to take effect (R118)? Its later operations come after that fence (R352, R353). -/
def State.pushFenced (s : State) (who : Requester) : Bool := s.chans.any fun e => e.2.fenced.any fun q => q.who == who

/-- The set-up offset of the TAG of core `k` of cluster `n` (R255). -/
def slcTagAt (n k : Nat) : Nat := 0x400_0000 + n * 0x1_0000 + 0x200 + 0x100 * k + 8

/-- An answer reaches its requester (R115): a core's port takes the tag and, from a POP or PEEK, the item, and the loads of its TAG that
waited return (R255). -/
def State.sluiceAnswer (s : State) (a : SluiceAnswer) (item : Bool) : State :=
  let s := (s.emit (.sluice a.who a.tag a.data)).onSlcPort a.who fun c =>
    { c with slcBusy := false, slcTag := some a.tag, slcData := if item then a.data else c.slcData }
  match slcPortCore a.who with
  | some i => s.loadsReturn (i / 4) fun off => if off = slcTagAt (i / 4) (i % 4) then some a.tag else none
  | none => s

/-- A command that nothing holds is applied, or waits behind an earlier fenced push of its requester (R117, R118). -/
def State.sluiceTake (s : State) (q : SluiceCmd) : State :=
  let x := s.chan q.channel
  if q.op == .push && q.fence || x.fenced.any (fun e => e.who == q.who) then
    s.setChan q.channel { x with fenced := x.fenced ++ [q] }
  else
    let (a, waits, s) := s.sluiceApply q
    if waits then s.setChan q.channel { s.chan q.channel with waiting := some a }
    else s.sluiceAnswer a (q.op == .pop || q.op == .peek)

/-- A command reaches the Sluice control: it waits behind a storage read of its channel and the commands held there (R119), or is
taken. -/
def State.sluiceSend (s : State) (q : SluiceCmd) : State :=
  let s := s.onSlcPort q.who fun c => { c with slcBusy := true, slcTag := none }
  let x := s.chan q.channel
  if x.waiting.isSome || !x.held.isEmpty then s.setChan q.channel { x with held := x.held ++ [q] } else s.sluiceTake q

/-- Once a core's port is answered, the request word that waits there is sent (R255); `fuel` bounds them. -/
def State.slcPortNext (s : State) (who : Requester) : Nat → State
  | 0 => s
  | fuel + 1 =>
    match slcPortCore who, s.slcPortQueue who with
    | some i, q :: rest =>
      if (s.core i).slcBusy then s else State.slcPortNext ((s.onCore i fun c => { c with slcWait := rest }).sluiceSend q) who fuel
    | _, _ => s

/-- A command reaches the Sluice control, and what waits at its requester's port follows its answer. -/
def State.sluiceSubmit (s : State) (q : SluiceCmd) : State :=
  let s := s.sluiceSend q
  s.slcPortNext q.who (s.slcPortQueue q.who).length

/-- A control core writes the request word of its port (R114, R255): while a command is outstanding it waits, with the payload that
DATA holds now (log entry 11). -/
def State.slcPortRequest (s : State) (n k v : Nat) : State :=
  let c := s.core (4 * n + k)
  let op : SluiceOp :=
    match v % 16 with
    | 1 => .push
    | 2 => .pop
    | 3 => .peek
    | 4 => .drop
    | _ => .count
  let data := if op == .push then (c.slcData ++ noItem).take 64 else []
  let q : SluiceCmd := ⟨.core n k, op, bitsOf v 8 12, op == .push && bitAt v 4, op == .push && bitAt v 5, data⟩
  if c.slcBusy then s.setCore (4 * n + k) { c with slcWait := c.slcWait ++ [q] } else s.sluiceSubmit q

/-- A write to an 8-byte word of the port: REQ at 0, DATA from 0x40 to 0x7F; TAG is RO (R255). -/
def State.slcPortWrite (s : State) (n k o v : Nat) : State :=
  if o = 0 then s.slcPortRequest n k v
  else if 0x40 ≤ o && o < 0x80 then
    s.onCore (4 * n + k) fun c =>
      let d := (c.slcData ++ noItem).take 64
      { c with slcData := d.take (o - 0x40) ++ leBytes 8 v ++ d.drop (o - 0x40 + 8) }
  else s

/-- An 8-byte word of the port as a read returns it (R255). -/
def State.slcPortRead (s : State) (n k o : Nat) : Nat :=
  let c := s.core (4 * n + k)
  if o = 8 then c.slcTag.getD 0
  else if 0x40 ≤ o && o < 0x80 then leNat (((c.slcData ++ noItem).drop (o - 0x40)).take 8)
  else 0

/-- Strike the stored pointers of a channel with an upset (R121). -/
def State.pointerUpset (s : State) (c : Nat) (u : PointerUpset) : State :=
  let x := s.chan c
  s.setChan c { x with head := (x.head ^^^ u.head0) % 2 ^ 17, headInv := (x.headInv ^^^ u.head1) % 2 ^ 17,
                       tail := (x.tail ^^^ u.tail0) % 2 ^ 17, tailInv := (x.tailInv ^^^ u.tail1) % 2 ^ 17 }

/-- A Sluice command with the upsets that have struck the channel since its last one. -/
def State.sluiceCommand (s : State) (q : SluiceCmd) (u : PointerUpset) (us : List Upset) : State :=
  ((us.foldl State.upset s).pointerUpset q.channel u).sluiceSubmit q

/-- Take the commands held at a channel, in their arrival order, until one of them waits for storage (R119); `fuel` bounds them. -/
def State.sluiceRelease (c : Nat) : Nat → State → State
  | 0, s => s
  | fuel + 1, s =>
    let x := s.chan c
    match x.held with
    | [] => s
    | q :: rest => if x.waiting.isSome then s else State.sluiceRelease c fuel ((s.setChan c { x with held := rest }).sluiceTake q)

/-- SLUICE_STORAGE_DONE: the waiting answer leaves and the commands held behind it are taken in order (R119); what waits at the ports of
those it answers arrives after them. -/
def State.storageDone (s : State) (c : Nat) : State :=
  let x := s.chan c
  match x.waiting with
  | none => s
  | some a =>
    let s := (s.setChan c { x with waiting := none }).sluiceAnswer a (bitAt a.tag 0)
    let s := State.sluiceRelease c x.held.length s
    (a.who :: x.held.map fun q => q.who).eraseDups.foldl (fun s w => s.slcPortNext w (s.slcPortQueue w).length) s

/-- FENCE_MARKERS_ACKED: once every earlier operation of a requester has closed (R353), its oldest fenced push takes effect, and its later
commands follow (R118). -/
def State.fenceAcked (s : State) (who : Requester) (c : Nat) : State :=
  let x := s.chan c
  match x.fenced.filter fun e => e.who == who with
  | [] => s
  | q :: rest =>
    if s.opsOpen who then s
    else
      let s := s.setChan c { x with fenced := x.fenced.filter fun e => e.who != who }
      rest.foldl State.sluiceSubmit (s.sluiceSubmit { q with fence := false })

/-- Let every storage access that a channel waits for complete, with the commands held behind it; `fuel` bounds them. -/
def State.sluiceSettle (c : Nat) : Nat → State → State
  | 0, s => s
  | fuel + 1, s => if (s.chan c).waiting.isSome then State.sluiceSettle c fuel (s.storageDone c) else s

/-- A command of an engine whose answer the engine itself takes: it is applied after every command that reached the channel before it (R117,
R119; log entry 39). -/
def State.sluiceNow (s : State) (q : SluiceCmd) : SluiceAnswer × State :=
  let s := State.sluiceSettle q.channel ((s.chan q.channel).held.length + sumNats (s.cores.map fun e => e.2.slcWait.length) + 1) s
  let (a, _, s) := s.sluiceApply q
  (a, s)

/-- A push by an engine of the device whose answer the engine itself takes: was the item stored (R171)? -/
def State.pushNow (s : State) (who : Requester) (c : Nat) (pktEnd : Bool) (data : List Byte) : Bool × State :=
  let (a, s) := s.sluiceNow ⟨who, .push, c, pktEnd, false, data⟩
  (bitAt a.tag 2 && !bitAt a.tag 5, s)

/-- A pop by an engine of the device whose answer the engine itself takes: the item, whether it carries the end mark and
whether it is poisoned. -/
def State.popNow (s : State) (who : Requester) (c : Nat) : Option (List Byte × Bool × Bool) × State :=
  let (a, s) := s.sluiceNow ⟨who, .pop, c, false, false, []⟩
  (if bitAt a.tag 0 then some (a.data, bitAt a.tag 1, bitAt a.tag 4) else none, s)

/-- A write of word 0 of a channel descriptor (R105 kinds 4 and 5, R112). -/
def State.chanWrite (s : State) (c v : Nat) : State :=
  let old := s.reg (Reg.SLC_CHAN0 c)
  let depth := min (max (bitsOf v 16 5) 4) 16
  let w := v % 2 + bitsOf v 8 8 * 2 ^ 8 + depth * 2 ^ 16 + bitsOf v 24 18 * 2 ^ 24
  let refuse (kind : Nat) : State :=
    s.fault (0x1051 + c % 4 * 0x100) Code.regionInvalid (some (setupBase + Reg.SLC_CHAN0 c)) (c + kind * 2 ^ 12)
  if s.chanOn c && w != old - 1 then refuse 4
  else if !s.chanOn c && v % 2 = 1 && !s.storageMapped (bitsOf v 8 8) (bitsOf v 24 18 * 4096) (2 ^ depth) then refuse 5
  else
    let t := s.setReg (Reg.SLC_CHAN0 c) w
    if !s.chanOn c && v % 2 = 1 then
      let x := s.chan c
      t.setChan c { Channel.empty with resets := x.resets, waiting := x.waiting, held := x.held, fenced := x.fenced }
    else t

/-- A write of RESET_CHANNEL: resets an enabled channel and writes no record (R112, R122). -/
def State.resetChannel (s : State) (c v : Nat) : State :=
  if v % 2 = 1 && s.chanOn c then s.setChan c (s.chan c).reset else s

/-- Words 1 and 2 of a descriptor as they read (R112). -/
def State.chanWord1 (s : State) (c : Nat) : Nat :=
  let x := s.chan c
  x.head + x.tail * 2 ^ 17 + b2n x.inPacket * 2 ^ 34 + b2n x.dropping * 2 ^ 35 + b2n x.resetProd * 2 ^ 36 +
  b2n x.resetCons * 2 ^ 37 + x.resets * 2 ^ 48
def State.chanWord2 (s : State) (c : Nat) : Nat := (s.chan c).emptyReads + (s.chan c).fullRefs * 2 ^ 32

end Sys2Proof.Machine
end

