-- ==== Sys2Proof/Machine/Cores.lean ====
section
/-! DEFINITION. The control cores and Watermaster cores as the block needs them: registers, traps, and buffer poisoning in the
scratchpads (R212, R215, R219, R350; trap entry as RISC-V gives it, log entry 5). -/

namespace Sys2Proof.Machine

/-- Does a core run? A control core runs while its RUN bit is set (R215) and no switch has stopped it (R455, R457). A Watermaster
core runs unless it is being recovered (R508). None runs in the safe state (R511). -/
def State.coreRuns (s : State) (i : Nat) : Bool :=
  if i < 128 then s.clusterPresent (i / 4) && bitAt (s.reg (Reg.CL_CORE_RUN (i / 4))) (i % 4) && !s.sw.stopped && !s.safeState
  else !s.ecc.recover && !s.safeState

/-- Has a core a store to a push window of its cluster that waits for a place (R230)? -/
def State.storeHeld (s : State) (i : Nat) : Bool :=
  decide (i < 128) && (s.cluster (i / 4)).held.any fun h => h.1 % 4 == i % 4

/-- Does a core run and stand at an instruction? One that waits at a FENCE (R353), on a load of one of its ports (R255, R357) or with a
store that waits for a place in a queue (R230) has not reached the next. -/
def State.coreSteps (s : State) (i : Nat) : Bool :=
  s.coreRuns i && !(s.core i).fencing && (s.core i).loads.isEmpty && !s.storeHeld i

/-- mstatus bits: MIE 3, MPIE 7, MPP 12:11. -/
def mstatusMie (v : Nat) : Nat := bitsOf v 3 1

/-- Take an exception into machine mode (RISC-V, log entry 5). -/
def CoreState.trap (c : CoreState) (cause tval : Nat) : CoreState :=
  let m := putBits c.mstatus 7 1 (mstatusMie c.mstatus)
  let m := putBits m 3 1 0
  let m := putBits m 11 2 (if c.machine then 3 else 0)
  { c with mepc := c.pc, mcause := cause, mtval := tval % 2 ^ 64, mstatus := m, machine := true,
           pc := c.mtvec / 4 * 4, fencing := false }

/-- The first byte after the buffers: the code area (R213). -/
def codeArea : Nat := 0xFC_0000

/-- The fetch at a core's pc: a control core whose pc stands outside its cluster's code area fetches from an unmapped address (R44, R213). -/
def State.fetchAt (s : State) (i : Nat) : State :=
  let pc := (s.core i).pc
  let area := scratchBase + i / 4 * 2 ^ 24 + codeArea
  if i < 128 && !(decide (area ≤ pc) && decide (pc < area + 0x4_0000)) then s.unmapped (.core (i / 4) (i % 4)) pc .fetch else s

/-- A core takes an exception and fetches its handler. -/
def State.trapCore (s : State) (i cause tval : Nat) : State := (s.onCore i fun c => c.trap cause tval).fetchAt i

/-- Raise an interrupt-pending bit on the four cores of a cluster. -/
def State.raiseIrq (s : State) (cluster bit : Nat) : State :=
  (List.range 4).foldl (fun s k => s.onCore (4 * cluster + k) fun c => { c with mip := c.mip ||| 2 ^ bit }) s

-- Buffers ----------------------------------------------------------------------------------------------------------

/-- A scratchpad buffer as its register holds it (R217, R254). -/
structure Buf where
  base    : Nat
  len     : Nat
  defined : Bool
  state   : Nat
  poison  : Bool
  readers : Nat
  deriving DecidableEq, Repr

def State.buf (s : State) (n b : Nat) : Buf :=
  let a := Reg.CL_BUF n b
  { base := s.fld a Fld.CL_BUF_BASE * 256, len := (s.fld a Fld.CL_BUF_LEN_M1 + 1) * 256, defined := s.flag a Fld.CL_BUF_DEF,
    state := s.fld a Fld.CL_BUF_STATE, poison := s.flag a Fld.CL_BUF_POISON, readers := s.fld a Fld.CL_BUF_READERS }

def State.setBufState (s : State) (n b v : Nat) : State := s.setFld (Reg.CL_BUF n b) Fld.CL_BUF_STATE v
def State.setBufPoison (s : State) (n b : Nat) (p : Bool) : State := s.setFlag (Reg.CL_BUF n b) Fld.CL_BUF_POISON p
def State.setBufReaders (s : State) (n b v : Nat) : State := s.setFld (Reg.CL_BUF n b) Fld.CL_BUF_READERS v

/-- The defined buffers of a cluster. -/
def State.bufsOf (s : State) (n : Nat) : List Nat :=
  ((s.regRange (Reg.CL_BUF n 0) (8 * 255)).filter fun e => bitAt e.2 32).map fun e => e.1 / 8

/-- Set POISON on every defined buffer of a cluster that a scratchpad range touches (R219). -/
def State.poisonBufs (s : State) (n off len : Nat) : State :=
  ((s.bufsOf n).filter fun b => decide ((s.buf n b).base < off + len) && decide (off < (s.buf n b).base + (s.buf n b).len)).foldl
    (fun s b => s.setBufPoison n b true) s

/-- A write of `len` bytes at a local address, poisoned or not, sets POISON on the scratchpad buffers it reaches (R219). -/
def State.poisonReached (s : State) (a len : Nat) (poison : Bool) : State :=
  if poison && decide (scratchBase ≤ a) && decide (a < scratchBase + 0x2000_0000) then
    s.poisonBufs ((a - scratchBase) / 2 ^ 24) (a % 2 ^ 24) len
  else s

/-- Write data to the local map for a cluster engine; poisoned data sets POISON on the buffers it reaches (R219). -/
def State.writeData (s : State) (who : Requester) (a : Nat) (data : List Byte) (poison : Bool) : Nat × State :=
  if companionBase ≤ a && s.companionMapped a data.length then
    (0, s.companionWrite who a data)
  else
    let (st, s) := s.writeLocal who a data poison
    (st, s.poisonReached a data.length poison)

end Sys2Proof.Machine
end

