-- ==== Sys2Proof/Machine/Float.lean ====
section
/-! DEFINITION. Floating-point values as exact dyadic numbers, their formats, and the operations of the spec with one rounding
to nearest even each (R11, R148 to R150, R239 to R243). -/

namespace Sys2Proof.Machine

/-- A floating-point value: NaN, a signed infinity, or the signed dyadic number ± m × 2^e (a zero keeps its sign). -/
inductive FVal where
  | nan
  | inf (neg : Bool)
  | fin (neg : Bool) (m : Nat) (e : Int)
  deriving DecidableEq, Repr

/-- A binary format: exponent and mantissa widths, and whether the top exponent holds infinity and NaN as IEEE 754 gives. -/
structure FFormat where
  ebits : Nat
  mbits : Nat
  ieee  : Bool
  deriving DecidableEq, Repr

def fp32 : FFormat := ⟨8, 23, true⟩
def bf16 : FFormat := ⟨8, 7, true⟩
def fp16 : FFormat := ⟨5, 10, true⟩
def e5m2 : FFormat := ⟨5, 2, true⟩
def e4m3 : FFormat := ⟨4, 3, false⟩
def e2m3 : FFormat := ⟨2, 3, false⟩
def e3m2 : FFormat := ⟨3, 2, false⟩
def e2m1 : FFormat := ⟨2, 1, false⟩

def FFormat.width (f : FFormat) : Nat := 1 + f.ebits + f.mbits
def FFormat.bias (f : FFormat) : Int := (2 ^ (f.ebits - 1) : Nat) - 1

/-- The exponent of the last place of subnormals. -/
def FFormat.qmin (f : FFormat) : Int := 1 - f.bias - f.mbits

/-- The value a pattern spells. E4M3 alone of the formats without infinity has a NaN, S.1111.111 (R239). -/
def fdecode (f : FFormat) (b : Nat) : FVal :=
  let neg := bitAt b (f.ebits + f.mbits)
  let ex := bitsOf b f.mbits f.ebits
  let ma := bitsOf b 0 f.mbits
  if f.ieee && ex == 2 ^ f.ebits - 1 then (if ma = 0 then .inf neg else .nan)
  else if f == e4m3 && ex == 15 && ma == 7 then .nan
  else if ex = 0 then .fin neg ma f.qmin
  else .fin neg (2 ^ f.mbits + ma) (f.qmin + ex - 1)

/-- Shift a magnitude right by `n` with rounding to nearest, ties to even. -/
def shiftRne (m n : Nat) : Nat :=
  let q := m >>> n
  let r := m % 2 ^ n
  if n = 0 then m
  else if 2 * r < 2 ^ n then q
  else if 2 * r = 2 ^ n then q + q % 2
  else q + 1

/-- Round a magnitude m × 2^e to the format's grid: the pattern without its sign, unbounded above. -/
def froundMag (f : FFormat) (m : Nat) (e : Int) : Nat :=
  if m = 0 then 0
  else
    let q : Int := max (e + (m.log2 : Int) - f.mbits) f.qmin
    let mant := if q ≤ e then m <<< (e - q).toNat else shiftRne m (q - e).toNat
    (q - f.qmin).toNat * 2 ^ f.mbits + mant

/-- The quiet NaN of a format with a positive sign (R242); formats without NaN give their largest value. -/
def fnan (f : FFormat) : Nat :=
  if f.ieee then (2 ^ f.ebits - 1) * 2 ^ f.mbits + 2 ^ (f.mbits - 1) else 2 ^ (f.ebits + f.mbits) - 1

/-- The largest finite pattern. -/
def fmax (f : FFormat) : Nat :=
  if f.ieee then (2 ^ f.ebits - 1) * 2 ^ f.mbits - 1
  else if f == e4m3 then 2 ^ (f.ebits + f.mbits) - 2 else 2 ^ (f.ebits + f.mbits) - 1

/-- Round a value into a format to nearest even. Overflow gives infinity, or with `sat`, and in formats without infinity, the
largest finite value. -/
def fencode (f : FFormat) (sat : Bool) : FVal → Nat
  | .nan => fnan f
  | .inf neg => (b2n neg) * 2 ^ (f.ebits + f.mbits) + (if f.ieee && !sat then (2 ^ f.ebits - 1) * 2 ^ f.mbits else fmax f)
  | .fin neg m e =>
    let p := froundMag f m e
    (b2n neg) * 2 ^ (f.ebits + f.mbits) +
      (if p ≤ fmax f then p else if f.ieee && !sat then (2 ^ f.ebits - 1) * 2 ^ f.mbits else fmax f)

def FVal.neg : FVal → FVal
  | .nan => .nan
  | .inf n => .inf (!n)
  | .fin n m e => .fin (!n) m e

def FVal.isNan : FVal → Bool
  | .nan => true
  | _ => false

/-- The signed magnitude of a finite value at exponent `g` at or below its own. -/
def finInt (neg : Bool) (m : Nat) (e g : Int) : Int :=
  if neg then -((m <<< (e - g).toNat : Nat) : Int) else ((m <<< (e - g).toNat : Nat) : Int)

/-- Exact sum; opposite infinities give NaN; a sum of +0 and −0, or of opposite values, is +0 (R242). -/
def FVal.add : FVal → FVal → FVal
  | .nan, _ => .nan
  | _, .nan => .nan
  | .inf a, .inf b => if a = b then .inf a else .nan
  | .inf a, .fin _ _ _ => .inf a
  | .fin _ _ _, .inf b => .inf b
  | .fin n1 m1 e1, .fin n2 m2 e2 =>
    if m1 = 0 && m2 = 0 then .fin (n1 && n2) 0 e1
    else
      let g := min e1 e2
      let v := finInt n1 m1 e1 g + finInt n2 m2 e2 g
      .fin (decide (v < 0)) v.natAbs g

/-- Exact product; zero times infinity gives NaN (R242). -/
def FVal.mul : FVal → FVal → FVal
  | .nan, _ => .nan
  | _, .nan => .nan
  | .inf a, .inf b => .inf (a != b)
  | .inf a, .fin n m _ => if m = 0 then .nan else .inf (a != n)
  | .fin n m _, .inf b => if m = 0 then .nan else .inf (n != b)
  | .fin n1 m1 e1, .fin n2 m2 e2 => .fin (n1 != n2) (m1 * m2) (e1 + e2)

/-- A quotient with enough extra bits, the last one sticky, that one rounding to any format here is exact. -/
def FVal.div : FVal → FVal → FVal
  | .nan, _ => .nan
  | _, .nan => .nan
  | .inf _, .inf _ => .nan
  | .inf a, .fin n _ _ => .inf (a != n)
  | .fin n _ _, .inf b => .fin (n != b) 0 0
  | .fin n1 m1 e1, .fin n2 m2 e2 =>
    if m2 = 0 then (if m1 = 0 then .nan else .inf (n1 != n2))
    else
      let k := 64 + m2.log2 - min m1.log2 m2.log2
      let a := m1 <<< k
      .fin (n1 != n2) (2 * (a / m2) + (if a % m2 = 0 then 0 else 1)) (e1 - e2 - k - 1)

def f32 (b : Nat) : FVal := fdecode fp32 b
def toF32 (v : FVal) : Nat := fencode fp32 false v

def add32 (a b : Nat) : Nat := toF32 ((f32 a).add (f32 b))
def mul32 (a b : Nat) : Nat := toF32 ((f32 a).mul (f32 b))
def div32 (a b : Nat) : Nat := toF32 ((f32 a).div (f32 b))
def neg32 (a : Nat) : Nat := if (f32 a).isNan then fnan fp32 else a ^^^ 2 ^ 31
def fma32 (a b c : Nat) : Nat := toF32 (((f32 a).mul (f32 b)).add (f32 c))
def one32 : Nat := 0x3F800000
def nan32 : Nat := 0x7FC00000
def isNan32 (b : Nat) : Bool := (f32 b).isNan

/-- The value of an integer as an FVal. -/
def FVal.ofInt (v : Int) : FVal := .fin (decide (v < 0)) v.natAbs 0

/-- The rank key of an FP32 value (R148): every NaN below −∞, +0 above −0; greater keys rank higher. -/
def rankKey (b : Nat) : Nat :=
  if isNan32 b then 0
  else if b < 2 ^ 31 then 2 ^ 32 + b else 2 ^ 32 - 1 - (b - 2 ^ 31)

/-- Two values tie when their bits are identical or both are NaN (R148). -/
def ties32 (a b : Nat) : Bool := a == b || (isNan32 a && isNan32 b)

/-- The larger by rank, the first on a tie; a NaN only when both are NaN. -/
def max32 (a b : Nat) : Nat := if rankKey a < rankKey b then b else a

-- The exponential (R149) -------------------------------------------------------------------------------------------

/-- ln 2 with 256 fractional bits. -/
def ln2Fix : Nat := 0xB17217F7D1CF79ABC9E3B39803F2F6AF40F343267298B62D8A0D175B8BAAFA2B

/-- The Taylor sum of exp r with 256 fractional bits: `term` is r^i / i!. -/
def expTaylor : Nat → Nat → Nat → Nat → Nat → Nat
  | 0, _, _, _, acc => acc
  | n + 1, i, r, term, acc =>
    let t := term * r / 2 ^ 256 / i
    expTaylor n (i + 1) r t (acc + t)

/-- exp of the finite value ± m × 2^e, as a dyadic number whose error is far below half a unit in the last place of FP32
(log entry 9). -/
def expDyadic (neg : Bool) (m : Nat) (e : Int) : FVal :=
  let x : Nat := if 0 ≤ e + 256 then m <<< (e + 256).toNat else m >>> (-(e + 256)).toNat
  let k0 := x / ln2Fix
  if neg then
    let r := (k0 + 1) * ln2Fix - x
    .fin false (expTaylor 64 1 r (2 ^ 256) (2 ^ 256)) (-256 - (k0 + 1 : Nat))
  else
    let r := x - k0 * ln2Fix
    .fin false (expTaylor 64 1 r (2 ^ 256) (2 ^ 256)) (-256 + (k0 : Int))

/-- The correctly rounded FP32 exponential (R149). -/
def exp32 (b : Nat) : Nat :=
  match f32 b with
  | .nan => nan32
  | .inf true => 0
  | .inf false => 0x7F800000
  | .fin neg m e =>
    if m = 0 then one32
    else if (8 : Int) ≤ e + m.log2 then (if neg then 0 else 0x7F800000)
    else toF32 (expDyadic neg m e)

/-- The sigmoid sig(s) = 1 ÷ (1 + exp(−s)) (R149). -/
def sig32 (b : Nat) : Nat := div32 one32 (add32 one32 (exp32 (neg32 b)))

-- Trees ------------------------------------------------------------------------------------------------------------

/-- One level of a pairwise FP32 tree: adjacent pairs added, each sum rounded. -/
def treeLevel : List Nat → List Nat
  | a :: b :: rest => add32 a b :: treeLevel rest
  | xs => xs

/-- `n` levels of a pairwise FP32 tree. -/
def treeLevels : Nat → List Nat → List Nat
  | 0, xs => xs
  | n + 1, xs => treeLevels n (treeLevel xs)

def padTo (n : Nat) (d : Nat) (xs : List Nat) : List Nat := xs ++ List.replicate (n - xs.length) d

/-- The fixed pairwise tree of up to 64 FP32 lanes; lanes beyond the list hold +0 (R150). -/
def tree64 (xs : List Nat) : Nat := (treeLevels 6 (padTo 64 0 xs)).headD 0

/-- Level 1 of the column tree: products 2i and 2i + 1 added exactly and rounded once to FP32 (R240). -/
def productLevel : List FVal → List Nat
  | a :: b :: rest => toF32 (a.add b) :: productLevel rest
  | [a] => [toF32 a]
  | [] => []

/-- The column tree over `2^(levels + 1)` exact products with unit scales (R144, R240). -/
def productTree (levels : Nat) (ps : List FVal) : Nat := (treeLevels levels (productLevel ps)).headD 0

/-- An FP32 pattern rounded once to BF16. -/
def toBf16 (b : Nat) : Nat := fencode bf16 false (f32 b)

/-- A BF16 pattern widened exactly to FP32. -/
def ofBf16 (b : Nat) : Nat := b * 2 ^ 16

end Sys2Proof.Machine
end

