-- ==== Sys2Proof/Machine/SetupBase.lean ====
section
/-! DEFINITION. How a set-up write changes a register field by field under its access codes (R12, R13). -/

namespace Sys2Proof.Machine

/-- A written value held to a field's limits. -/
def holdTo : Option Hold → Nat → Nat
  | none, v => v
  | some h, v => if h.zeroOk && v == 0 then 0 else min (max v h.lo) h.hi

/-- The register word after one field of a write, under its access code; `lock` is TOP_SETUP_LOCK (R12). -/
def writeField (lock : Bool) (new : Nat) (v : Nat) (f : FieldDesc) : Nat :=
  let n := bitsOf new f.lo f.w
  let o := bitsOf v f.lo f.w
  match f.acc with
  | .ro => v
  | .wo => v
  | .rw => putBits v f.lo f.w (holdTo f.hold n)
  | .rwl => if lock then v else putBits v f.lo f.w (holdTo f.hold n)
  | .w1s => putBits v f.lo f.w (o ||| n)
  | .w1c => putBits v f.lo f.w (o &&& (2 ^ f.w - 1 - n))

/-- Does a write try to change a locked field (R13)? -/
def lockedChange (lock : Bool) (old new : Nat) (f : FieldDesc) : Bool :=
  lock && f.acc == .rwl && bitsOf new f.lo f.w != bitsOf old f.lo f.w

/-- Apply a write to a register field by field; one SETUP_LOCKED record when a locked field would change (R13). -/
def State.writeFields (s : State) (a : Nat) (d : RegDesc) (new : Nat) : State :=
  let old := s.reg a
  let t := if d.fields.any (lockedChange s.lock old new) then s.setupLocked a else s
  t.setReg a (d.fields.foldl (writeField s.lock new) old)

/-- Apply a write to whatever register stands at `a`; an unassigned address ignores it (R14). -/
def State.writePlain (s : State) (a new : Nat) : State :=
  match regDescAt a with
  | none => s
  | some d => s.writeFields a d new

/-- Do the sources a register accepts include this one? -/
def WriteSource.accepts : WriteSource → Source → Bool
  | .any, _ => true
  | .wmMgmt, .wm _ => true
  | .wmMgmt, .mgmt => true
  | .travo, .travo => true
  | .mgmt, .mgmt => true
  | _, _ => false

end Sys2Proof.Machine
end

