-- ==== Sys2Proof/Machine/Time.lean ====
section
/-! DEFINITION. The fabric timebase: ticks, samples and edges, holdover, source changes, turns and the FT_ registers (R72 to
R96, R556). -/

namespace Sys2Proof.Machine

/-- The array clock in MHz at each STEP (R541): 0 is nominal, 5 the safe clock. -/
def stepMhz (step : Nat) : Nat := nthD [2700, 2400, 2100, 1800, 1350, 675] step 675

/-- The clock step in force (R541, R551). -/
def State.clockStep (s : State) : Nat := s.fld Reg.PWR_STATUS Fld.PWR_STATUS_STEP

/-- FT_TICK: `n` ticks of 1.25 GHz in a row. Each adds the rate word to the accumulator (R72); elapsed time counts the
increments of its integer part (R75); array cycles pass at the clock's frequency (R541). -/
def State.tick (s : State) (n : Nat) : State :=
  let acc := s.tb.acc + BitVec.ofNat 96 (n * s.tb.rate.toNat)
  let ns := (s.tb.acc.toNat % 2 ^ 32 + n * s.tb.rate.toNat) / 2 ^ 32
  let c := s.clock.frac + n * stepMhz s.clockStep
  { s with tb := { s.tb with acc := acc },
           clock := ⟨s.clock.cycles + c / 1250, c % 1250, s.clock.elapsedNs + ns, s.clock.ticks + n⟩ }

def State.ftSrc (s : State) : Nat := s.fld Reg.FT_CTRL Fld.FT_CTRL_SRC

-- Turns ------------------------------------------------------------------------------------------------------------

def State.turnOrigin (s : State) : Int := signedOf 64 (s.reg Reg.FT_TURN_ORIGIN)
def State.turnLen (s : State) : Nat := s.fld Reg.FT_TURN_LEN Fld.FT_TURN_LEN_LEN

/-- The turn that holds fabric time `t` under an origin and a length in µs; none before the origin (R86). -/
def turnAt (origin : Int) (len t : Nat) : Option Nat :=
  if (t : Int) < origin then none else some (((t : Int) - origin).toNat / (len * 1000))

/-- The boundary of turn `n` (R86). -/
def boundaryAt (origin : Int) (len n : Nat) : Int := origin + ((n * (len * 1000) : Nat) : Int)

/-- The current turn; none while fabric time is not valid or below the origin. -/
def State.turnNow (s : State) : Option Nat :=
  if s.timeValid then turnAt s.turnOrigin s.turnLen s.now else none

def State.boundary (s : State) (n : Nat) : Int := boundaryAt s.turnOrigin s.turnLen n

/-- The in-force slot turn `n` uses (R447). -/
def State.planSlot (s : State) (n : Nat) : Nat :=
  let len := s.fld Reg.WM_PLAN_CTRL_IF Fld.WM_PLAN_CTRL_LEN_M1 + 1
  (((n : Int) - (s.fld Reg.WM_PLAN_ORIGIN_IF Fld.WM_PLAN_ORIGIN_ORIGIN : Int)) % (len : Int)).toNat

/-- The number before a number; none before 0. -/
def checkedPred : Nat → Option Nat
  | 0 => none
  | n + 1 => some n

-- Counter windows --------------------------------------------------------------------------------------------------

/-- What the close of a window does: buckets drain by N of their class, the per-window limits start again, and so do the fabric's counts of
the window (R92, R331, R492, R495). -/
def State.closeWindow (s : State) : State :=
  let drain (e : Nat × Bucket) : Nat × Bucket := (e.1, { e.2 with level := e.2.level - s.eccN (e.1 / 4 / 65536) })
  { s with
    ecc := { s.ecc with buckets := s.ecc.buckets.map drain, logCounts := [] }
    flt := { s.flt with limits := [] }
    fab := { s.fab with drift := [], slots := 0 }
    ports := s.ports.map fun e => (e.1, { e.2 with occ := 0, defl := 0, replays := 0, uncorr := 0 }) }

-- States -----------------------------------------------------------------------------------------------------------

/-- A TIME_UNLOCKED record and its event (R83). -/
def State.timeUnlocked (s : State) (state : Nat) : State :=
  let d := state + unsignedOf 32 s.tb.offset * 2 ^ 8
  (s.fault 0x4013 Code.timeUnlocked none d).emit (.event Code.timeUnlocked d)

/-- Fabric time becomes valid at `v`: it is set once (R80, R79); the cycle window in force ends, and the windows, the turns and the turn plan
start from those that hold `v`; a boundary equal to `v` is still to come (R92, R556). -/
def State.becomeValid (s : State) (v : Nat) : State :=
  let s := s.closeWindow
  let v := v % 2 ^ 64
  let turn := turnAt s.turnOrigin s.turnLen v
  let s : State := { s with tb := { s.tb with
    acc := BitVec.ofNat 96 (v * 2 ^ 32), mode := .locked, acqOffsets := [], inlierRun := 0, outlierRun := 0,
    lastSample := s.clock.elapsedNs, floor := v, lastTurn := turn.bind fun n => if s.boundary n = v then checkedPred n else some n,
    flipArmed := v, fwdArmed := v, planArmed := v, lenArmed := v } }
  { s with tb := { s.tb with lastWindow := s.window },
           sw := { s.sw with free := match turn with | some n => !bitAt (s.reg (Reg.WM_PLAN_IF (s.planSlot n))) 8 | none => false } }

/-- Enter HOLDOVER on the last rate word (R80, R82, R83). -/
def State.enterHoldover (s : State) : State :=
  let s : State := { s with tb := { s.tb with
    mode := .holdover, holdStart := s.clock.elapsedNs, inlierRun := 0, outlierRun := 0 } }
  (s.countSat Reg.FT_COUNT Fld.FT_COUNT_HOLDOVER_ENTRIES 1).timeUnlocked 3

/-- Return to LOCKED from HOLDOVER or LOST (R80, R83). -/
def State.returnLocked (s : State) : State :=
  let s : State := { s with tb := { s.tb with mode := .locked, inlierRun := 0, outlierRun := 0 } }
  s.timeUnlocked 2

/-- The greatest change of the rate word the servo may make (R72, R80). -/
def State.maxSlew (s : State) : Nat := Config.nominalRate * s.fld Reg.FT_CTRL Fld.FT_CTRL_SLEW_MAX / 1000000

/-- The rate at which the source runs, in the unit of the rate word, as the last two accepted samples show it; nominal when there is one. -/
def State.sourceRate (s : State) (source : Nat) : Int :=
  match s.tb.track with
  | some (t, v) => if t < s.clock.ticks && v ≤ source then (((source - v) * 2 ^ 32 / (s.clock.ticks - t) : Nat) : Int) else Config.nominalRate
  | none => Config.nominalRate

/-- Ticks in 1.5 s, the longest that LOCKED lasts without a sample (R80). -/
def lockTicks : Int := 1875000000

/-- The rate words the servo may take after a sample, lowest and highest: within SLEW_MAX of nominal (R72). In LOCKED it aims, at the rate the
source has shown, to stay within ±LOCK_NS until the next sample (R81); in HOLDOVER and LOST it slews toward the source, at SLEW_MAX for an
offset above 1 µs (R80, R96). The aim and the bound of a large offset are the model's (DESIGN CHOICE, log entry 41). -/
def State.servoRange (s : State) (source : Nat) (off : Int) : Int × Int :=
  let m : Int := s.maxSlew
  let least : Int := Config.nominalRate - m
  let most : Int := Config.nominalRate + m
  let hold (x : Int) : Int := max least (min most x)
  let lock : Int := s.fld Reg.FT_CTRL Fld.FT_CTRL_LOCK_NS
  if s.tb.mode = .locked then
    (hold (s.sourceRate source - (lock - off) * 2 ^ 32 / lockTicks), hold (s.sourceRate source + (lock + off) * 2 ^ 32 / lockTicks))
  else if 1000 < off then (most, most)
  else if off < -1000 then (least, least)
  else (if 0 < off then Config.nominalRate else least, if off < 0 then Config.nominalRate else most)

/-- The servo corrects by the rate word alone (R72); which of the words it may take is open. -/
def State.servo (s : State) (source : Nat) (off : Int) : State :=
  let (k, s) := s.takeFree .servoRate
  let (lo, hi) := s.servoRange source off
  { s with tb := { s.tb with rate := BitVec.ofInt 32 (lo + (k : Int) % (max lo hi - lo + 1)) } }

/-- Count an accepted sample. -/
def State.acceptSample (s : State) (source : Nat) : State :=
  { s with tb := { s.tb with samples := s.tb.samples + 1, lastSample := s.clock.elapsedNs, track := some (s.clock.ticks, source) } }

/-- Do the offsets agree within 1 µs (R80)? -/
def offsetsAgree (xs : List Int) : Bool := xs.all fun a => xs.all fun b => decide ((a - b).natAbs ≤ 1000)

/-- Take one sample: the source's fabric time of this moment (R80). -/
def State.takeSample (s : State) (source : Nat) : State :=
  let off : Int := (source : Int) - (s.now : Int)
  match s.tb.mode with
  | .unset =>
    { s with tb := { s.tb with mode := .acquiring, acqOffsets := [off] } }.acceptSample source
  | .acquiring =>
    let run := (off :: s.tb.acqOffsets).take 4
    let s := s.acceptSample source
    if run.length = 4 && offsetsAgree run then
      let s := s.becomeValid source
      { s with tb := { s.tb with lastSample := s.clock.elapsedNs } }
    else { s with tb := { s.tb with acqOffsets := run } }
  | .locked =>
    let s : State := { s with tb := { s.tb with offset := off } }
    if 1000 < off.natAbs then
      let s := s.countSat Reg.FT_COUNT Fld.FT_COUNT_SAMPLES_REJECTED 1
      let s : State := { s with tb := { s.tb with outlierRun := s.tb.outlierRun + 1 } }
      if 8 ≤ s.tb.outlierRun then s.enterHoldover else s
    else
      let t : State := (s.servo source off).acceptSample source
      { t with tb := { t.tb with outlierRun := 0 } }
  | _ =>
    let s : State := { s with tb := { s.tb with offset := off } }
    let inlier := decide (off.natAbs ≤ s.fld Reg.FT_CTRL Fld.FT_CTRL_LOCK_NS)
    let s := (s.servo source off).acceptSample source
    let s : State := { s with tb := { s.tb with inlierRun := if inlier then s.tb.inlierRun + 1 else 0 } }
    if 16 ≤ s.tb.inlierRun then s.returnLocked else s

/-- PTP_SAMPLE: a PTP time as TAI nanoseconds, under SRC 0 (R76, R77). A time before the epoch is no sample. -/
def State.ptpSample (s : State) (tai : Nat) : State :=
  if s.ftSrc != 0 then s
  else
    let epoch := s.reg Reg.FT_EPOCH_TAI
    if tai < epoch then s.countSat Reg.FT_COUNT Fld.FT_COUNT_SAMPLES_REJECTED 1
    else s.takeSample (tai - epoch)

/-- The expected edge nearest to now: whole seconds after the previous one, at least one (R78). -/
def expectedEdge (last now : Nat) : Nat := last + max 1 ((now + 500000000 - last) / 1000000000) * 1000000000

def absDiff (a b : Nat) : Nat := a - b + (b - a)

/-- Expected PPS edges that have gone by since the last one without an edge inside PPS_WINDOW (R95). -/
def State.missedEdges (s : State) : Nat :=
  match s.tb.lastEdge with
  | some l =>
    if s.ftSrc = 1 && s.tb.mode = .locked then (s.now - (l + s.fld Reg.FT_PPS_CFG Fld.FT_PPS_CFG_PPS_WINDOW + 1)) / 1000000000 else 0
  | none => 0

/-- The source's fabric time of a PPS edge that comes now (R76, R78): whole seconds after the previous edge, or as announced when there is
none; before acquisition an announcement rules. -/
def State.edgeTime (s : State) : Option Nat :=
  if s.timeValid then
    match s.tb.lastEdge with
    | some l => some (expectedEdge l s.now)
    | none => s.tb.announced
  else match s.tb.announced with
    | some t => some t
    | none => s.tb.lastEdge.map (· + 1000000000)

/-- PPS_EDGE: a rising edge of the PPS input at this moment (R78, R80). The fabric time of the previous edge is the source's expected time of
it (DESIGN CHOICE, log entry 41); in LOCKED an edge outside PPS_WINDOW of the expected value is ignored. -/
def State.ppsEdge (s : State) : State :=
  let win := s.fld Reg.FT_PPS_CFG Fld.FT_PPS_CFG_PPS_WINDOW
  let reject (s : State) : State := s.countSat Reg.FT_COUNT Fld.FT_COUNT_PPS_REJECTED 1
  match s.ftSrc with
  | 0 =>
    if s.timeValid && s.flag Reg.FT_CTRL Fld.FT_CTRL_PPS_CHECK then
      let r := s.now % 1000000000
      let p := s.fld Reg.FT_PPS_CFG Fld.FT_PPS_CFG_PPS_PHASE % 1000000000
      if win < min (absDiff r p) (1000000000 - absDiff r p) then reject s else s
    else s
  | 1 =>
    match s.edgeTime with
    | none => s
    | some t =>
      if s.tb.mode = .locked && decide (win < absDiff s.now t) then reject s
      else
        let s : State := { s with tb := { s.tb with outlierRun := s.tb.outlierRun + s.missedEdges, lastEdge := some t, announced := none } }
        s.takeSample t
  | _ => s

/-- SAMPLE_TIMEOUT: in LOCKED under PTP or PPS, no accepted sample or edge for 1.5 s (R80). -/
def State.sampleTimeout (s : State) : State :=
  if s.tb.mode = .locked && decide (s.ftSrc < 2) && decide (s.tb.lastSample + 1500000000 ≤ s.clock.elapsedNs) then
    s.enterHoldover
  else s

/-- HOLDOVER_LIMIT: the error bound LOCK_NS + HOLD_DRIFT × elapsed exceeds HOLD_LIMIT, so HOLDOVER becomes LOST (R80, R82). -/
def State.holdoverLimit (s : State) : State :=
  let e := s.clock.elapsedNs - s.tb.holdStart
  if s.tb.mode = .holdover &&
      decide (s.fld Reg.FT_CTRL Fld.FT_CTRL_HOLD_LIMIT * 1000000000 <
        s.fld Reg.FT_CTRL Fld.FT_CTRL_LOCK_NS * 1000000000 + s.fld Reg.FT_CTRL Fld.FT_CTRL_HOLD_DRIFT * e) then
    let s : State := { s with tb := { s.tb with mode := .lost } }
    (s.countSat Reg.FT_COUNT Fld.FT_COUNT_LOST_ENTRIES 1).timeUnlocked 4
  else s

/-- What a change of FT_CTRL.SRC does to the timebase (R79). The spec leaves open, and the model chooses (DESIGN CHOICE, log entry 41): a change
before fabric time is valid returns the timebase to UNSET and forgets its samples; after a change to PPS, edges count from a new
TIME_ANNOUNCE on; and the run of samples within LOCK_NS goes on across a change in HOLDOVER or LOST. -/
def State.sourceChanged (s : State) (old new : Nat) : State :=
  if old = new then s
  else if !s.timeValid then
    { s with tb := { s.tb with mode := .unset, acqOffsets := [], track := none, lastEdge := none, announced := none } }
  else
    let s : State := { s with tb := { s.tb with track := none, lastEdge := none, announced := none } }
    if 2 ≤ new then
      match s.tb.mode with
      | .locked => s
      | _ => s.returnLocked
    else
      match s.tb.mode with
      | .locked => s.enterHoldover
      | _ => s

/-- TIME_ANNOUNCE as the timebase takes it (R76, R79): under free-run it sets fabric time once; under PPS it gives the fabric
time of the next edge. -/
def State.timeAnnounced (s : State) (t : Nat) : State :=
  match s.ftSrc with
  | 0 => s
  | 1 => { s with tb := { s.tb with announced := some t } }
  | _ =>
    if s.timeValid then s
    else
      let s := s.becomeValid t
      { s with tb := { s.tb with rate := BitVec.ofNat 32 Config.nominalRate } }

-- Boundaries -------------------------------------------------------------------------------------------------------

/-- The number of the next boundary the device recognises: the one after the last, or boundary 0 while no turn has begun (R88, R90, R556). -/
def State.nextBoundary (s : State) : Nat := match s.tb.lastTurn with | some n => n + 1 | none => 0

/-- Does an arming that arrived at fabric time `armed` for turn `target` act at boundary `n` (R87, R89)? -/
def State.armedFor (s : State) (armed target n : Nat) : Bool :=
  decide (target ≤ n) && decide ((armed : Int) + 10000 ≤ s.boundary n)

/-- The armed turn-length change takes effect at boundary(n) (R87). -/
def State.changeTurnLen (s : State) (n : Nat) : State :=
  let next := s.fld Reg.FT_TURN_LEN Fld.FT_TURN_LEN_NEXT_LEN
  if next != 0 && s.armedFor s.tb.lenArmed (s.reg Reg.FT_TURN_CHANGE) n then
    let o := s.boundary n - ((n * (next * 1000) : Nat) : Int)
    let s := s.setReg Reg.FT_TURN_ORIGIN (unsignedOf 64 o)
    let s := s.setFld Reg.FT_TURN_LEN Fld.FT_TURN_LEN_LEN next
    s.setFld Reg.FT_TURN_LEN Fld.FT_TURN_LEN_NEXT_LEN 0
  else s

-- Writes of FT_ registers with rules of their own (R88) -------------------------------------------------------------

/-- The moment an arming write arrives, as R89 counts it: fabric time now, or 0 until fabric time becomes valid, which then
moves it there. -/
def State.armTime (s : State) : Nat := if s.timeValid then s.now else 0

/-- FT_TURN_ORIGIN: while fabric time is valid, only a write that keeps the current turn number (R88). -/
def State.writeTurnOrigin (s : State) (v : Nat) : State :=
  if s.timeValid && turnAt (signedOf 64 v) s.turnLen s.now != s.turnNow then s.setupLocked Reg.FT_TURN_ORIGIN
  else s.setReg Reg.FT_TURN_ORIGIN v

/-- FT_TURN_LEN: LEN only while fabric time is not valid; NEXT_LEN always, held to its range (R86, R88, R89). -/
def State.writeTurnLen (s : State) (v : Nat) : State :=
  let len := min (max (bitsOf v 0 20) 1000) 1000000
  let nx := bitsOf v 20 20
  let nx := if nx = 0 then 0 else min (max nx 1000) 1000000
  let locked := s.timeValid && bitsOf v 0 20 != s.turnLen
  let s := if s.timeValid then s else s.setFld Reg.FT_TURN_LEN Fld.FT_TURN_LEN_LEN len
  let s := s.setFld Reg.FT_TURN_LEN Fld.FT_TURN_LEN_NEXT_LEN nx
  let s : State := if nx = 0 then s else { s with tb := { s.tb with lenArmed := s.armTime } }
  if locked then s.setupLocked Reg.FT_TURN_LEN else s

/-- FT_TURN_CHANGE: part of arming a turn-length change (R87, R89). -/
def State.writeTurnChange (s : State) (v : Nat) : State :=
  let s := s.setReg Reg.FT_TURN_CHANGE v
  { s with tb := { s.tb with lenArmed := s.armTime } }

/-- FT_EPOCH_TAI: refused while fabric time is valid and the device is partitioned (R88). -/
def State.writeEpoch (s : State) (v : Nat) : State :=
  if s.timeValid && s.fld Reg.FWD_IDENT Fld.FWD_IDENT_PTAG != 0 then s.setupLocked Reg.FT_EPOCH_TAI
  else s.setReg Reg.FT_EPOCH_TAI v

-- Views ------------------------------------------------------------------------------------------------------------

def TbMode.code : TbMode → Nat
  | .unset => 0
  | .acquiring => 1
  | .locked => 2
  | .holdover => 3
  | .lost => 4

/-- FT_STATUS: OUTLIER_RUN counts the missed PPS edges with the outliers (R95). -/
def State.ftStatus (s : State) : Nat :=
  s.tb.mode.code + b2n s.timeValid * 8 + min (s.tb.outlierRun + s.missedEdges) 255 * 2 ^ 8
def State.ftNow (s : State) : Nat := if s.timeValid then s.now else 0
/-- FT_OFFSET: the low 32 bits of an offset that does not fit (DESIGN CHOICE, log entry 41). -/
def State.ftOffset (s : State) : Nat := unsignedOf 32 s.tb.offset + s.tb.samples.toNat * 2 ^ 32
def State.ftTurnNow (s : State) : Nat :=
  if s.timeValid then s.turnNow.getD (2 ^ 64 - 1) else 0

/-- Where the scrub slot of turn `n` begins and ends, in ns of fabric time (R93). -/
def State.scrubSlot (s : State) (n : Nat) : Int × Int :=
  let o := s.fld Reg.FT_SCRUB_SLOT Fld.FT_SCRUB_SLOT_SCRUB_OFFSET
  let o := if o < s.turnLen then o else s.turnLen / 2
  let b := s.boundary n
  let stop := b + ((o + s.fld Reg.FT_SCRUB_SLOT Fld.FT_SCRUB_SLOT_SCRUB_LEN) * 1000 : Nat)
  (b + (o * 1000 : Nat), min stop (s.boundary (n + 1)))

end Sys2Proof.Machine
end

