-- ==== Sys2Proof/Machine/HgTables.lean ====
section
/-! DEFINITION. The Headgate's tables: layer descriptors, zone entries and the placement table with its loads and flips (R135
to R139, R175 to R179, R189). -/

namespace Sys2Proof.Machine

/-- Engines in service, in rank order (R165). -/
def State.enginesUp (s : State) : List Nat := [0, 1, 2, 3].filter fun e => !s.hg.retired.contains e

/-- The lowest-ranked engine in service. -/
def State.firstEngine (s : State) : Nat := s.enginesUp.headD 0

/-- UNIT of the placement table and layer descriptors of the lowest-numbered Headgate die in service (R558). -/
def State.tableUnit (s : State) : Nat := 0x2020 + s.firstEngine / 2 * 0x100

/-- Address of word `w` of shadow layer descriptor `n`, and of its in-force copy (R135). -/
def layerAddr (n w : Nat) : Nat := Reg.HG_LAYER0 n + 8 * w
def layerInAddr (n w : Nat) : Nat := Reg.HG_LAYER0_IF n + 8 * w

-- Layer descriptors ------------------------------------------------------------------------------------------------

/-- The fields of a layer descriptor (R136, R137). -/
structure Layer where
  valid : Bool
  mode : Nat
  norm : Nat
  inFmt : Nat
  keySel : Bool
  compete : Bool
  overflow : Nat
  k : Nat
  shared : Nat
  nextMax : Nat
  renorm : Bool
  capTable : Bool
  groupsLog : Nat
  groupSel : Nat
  groupRule : Bool
  e : Nat
  cf : Nat
  spillC : Nat
  hBlks : Nat
  predR : Nat
  gateW : Nat
  vecAddr : Nat
  loadAddr : Nat
  salt : Nat
  weightScale : Nat
  sharedScale : Nat
  deriving DecidableEq, Repr

/-- Read a descriptor's fields out of its eight words. -/
def Layer.ofWords (ws : List Nat) : Layer :=
  let w0 := nthD ws 0 0
  let w1 := nthD ws 1 0
  let w6 := nthD ws 6 0
  { valid := bitAt w0 0, mode := bitsOf w0 1 2, norm := bitsOf w0 3 1, inFmt := bitsOf w0 4 2, keySel := bitAt w0 6,
    compete := bitAt w0 7, overflow := bitsOf w0 8 2, k := bitsOf w0 10 5, shared := bitsOf w0 15 2,
    nextMax := bitsOf w0 17 3, renorm := bitAt w0 20, capTable := bitAt w0 21, groupsLog := bitsOf w0 22 3,
    groupSel := bitsOf w0 25 7, groupRule := bitAt w0 32, e := bitsOf w0 40 16 + 1, cf := bitsOf w1 0 16,
    spillC := bitsOf w1 16 16, hBlks := bitsOf w1 32 8, predR := bitsOf w1 40 8, gateW := nthD ws 2 0,
    vecAddr := nthD ws 3 0, loadAddr := nthD ws 4 0, salt := nthD ws 5 0, weightScale := bitsOf w6 0 32,
    sharedScale := bitsOf w6 32 32 }

def State.layerWords (s : State) (n : Nat) : List Nat := (List.range 8).map fun w => s.reg (layerAddr n w)
def State.layerWordsIn (s : State) (n : Nat) : List Nat := (List.range 8).map fun w => s.reg (layerInAddr n w)

/-- An address the Headgate may use: 256-byte aligned, in local HBM or the Reservoir region view (R138 kind 5). -/
def hgAddrOk (a : Nat) : Bool :=
  a % 256 == 0 && (decide (a < hbmSize) || (decide (rsvRegionBase ≤ a) && decide (a < rsvRegionBase + 0x40_0000_0000)))

/-- The lowest kind a descriptor fails under, of kinds 0 to 5 (R138). -/
def Layer.fails (l : Layer) : Option Nat :=
  let g := l.groupsLog
  if l.mode == 3 || l.inFmt == 3 || l.overflow == 3 || l.shared == 3 then some 0
  else if l.k == 0 || 16 < l.k || (l.overflow == 1 && (l.nextMax == 0 || 4 < l.nextMax)) then some 1
  else if (l.mode != 1 && 16384 < l.e) || l.e < l.k then some 2
  else if g != 0 && (6 < g || l.e % 2 ^ g != 0 || l.groupSel == 0 || 2 ^ g < l.groupSel
      || l.groupSel * l.e / 2 ^ g < l.k || l.mode == 1) then some 3
  else if (l.cf == 0 && !l.capTable) || l.hBlks == 0 || 128 < l.hBlks || 128 < l.predR then some 4
  else if !hgAddrOk l.gateW || !hgAddrOk l.vecAddr || !hgAddrOk l.loadAddr then some 5
  else none

/-- A write of word `w` of shadow descriptor `n` (R138): words 1 to 7 clear VALID; word 0 with VALID set is checked, and a
failing one is applied with VALID clear and a LAYER_INVALID record. -/
def State.layerWrite (s : State) (n w v : Nat) : State :=
  let s := s.writePlain (layerAddr n w) v
  let clear (s : State) : State := s.setFlag (layerAddr n 0) Fld.HG_LAYER0_VALID false
  if w != 0 then clear s
  else if v % 2 = 0 then s
  else match (Layer.ofWords (s.layerWords n)).fails with
    | none => s
    | some kind => (clear s).fault s.tableUnit Code.layerInvalid none (n + kind * 2 ^ 12)

/-- The in-force placement entry of expert number `x` of a layer (shared expert `i` is E + i) (R176). -/
def State.placeIndex (s : State) (layer x : Nat) : Nat :=
  (s.fld (Reg.HG_PLACE_BASE_IF layer) Fld.HG_PLACE_BASE_BASE + x) % 262144

/-- Replica words of the layer's experts and shared experts from the in-force table, keyed 8 × expert + replica (R61, R176). -/
def State.takePlace (s : State) (l : Layer) (layer : Nat) : List (Nat × Nat) :=
  (List.range (l.e + l.shared)).foldl (fun t x =>
    (List.range 8).foldl (fun t j =>
      tblPut (8 * x + j) 0 (tblGetD (8 * s.placeIndex layer x + j) 0 s.hg.placeIn) t) t) []

/-- The tables in force for a routing step of a layer (R61, R135). -/
def State.gateTables (s : State) (layer : Nat) : GateTables :=
  let ws := s.layerWordsIn layer
  ⟨ws, s.placeIndex layer 0, s.takePlace (Layer.ofWords ws) layer⟩

/-- Keep the tables of the gate regions that are sealed, before a flip changes them (R61, R135). -/
def State.keepTables (s : State) : State :=
  let gates := [16, 24].map fun b => bitsOf (s.reg Reg.HG_XCH_REGIONS) b 8
  gates.foldl (fun s g =>
    match s.sealedLayer g, tblFind g s.rsv.tables with
    | some layer, none => { s with rsv := { s.rsv with tables := tblSet g (s.gateTables layer) s.rsv.tables } }
    | _, _ => s) s

-- Zone entries -----------------------------------------------------------------------------------------------------

/-- A zone entry (R189). -/
structure Zone where
  z : Nat
  node : Nat
  inTokens : Nat
  outTokens : Nat
  valid : Bool
  gateway : Bool
  relaySrc : Bool
  dz : Nat
  rz : Nat
  list : Nat
  peerDz : Nat
  peerRz : Nat
  deriving DecidableEq, Repr

def State.zone (s : State) (z : Nat) : Zone :=
  let w0 := s.reg (Reg.HG_ZONE0 z)
  let w1 := s.reg (Reg.HG_ZONE1 z)
  let w2 := s.reg (Reg.HG_ZONE2 z)
  { z := z, node := bitsOf w0 0 16, inTokens := bitsOf w0 16 16, outTokens := bitsOf w0 32 16, valid := bitAt w0 48,
    gateway := bitAt w0 49, relaySrc := bitAt w0 50, dz := bitsOf w1 0 18, rz := bitsOf w1 18 18, list := bitsOf w1 36 18,
    peerDz := bitsOf w2 0 18, peerRz := bitsOf w2 18 18 }

/-- The valid zone entries, in zone order. -/
def State.zones (s : State) : List Zone :=
  (((s.regRange (Reg.HG_ZONE0 0) 0x8000).filter fun e => e.1 % 32 == 0 && bitAt e.2 48).map fun e => s.zone (e.1 / 32))

/-- The valid zone entry of a peer node. -/
def State.zoneOf (s : State) (node : Nat) : Option Zone := s.zones.find? fun z => z.node == node

/-- A write of word `w` of HG_ZONE_z (R189): refused when two valid entries would name one node. -/
def State.zoneWrite (s : State) (z w v : Nat) : State :=
  let a := Reg.HG_ZONE0 z + 8 * w
  if w = 0 then
    let node := bitsOf v 0 16
    match s.zones.find? fun y => bitAt v 48 && y.z != z && y.node == node with
    | some y => s.fault s.tableUnit Code.zoneInvalid none (z + y.z * 2 ^ 10 + node * 2 ^ 20)
    | none => s.writePlain a v
  else s.writePlain a v

/-- Read `n` 64-bit words one after another up to the first bad one: the status and address of that word, and the bytes read
before it (R142). -/
def State.readWords (s : State) (who : Requester) : Nat → Nat → Nat × Nat × List Byte × State
  | 0, a => (0, a, [], s)
  | n + 1, a =>
    let (st, bs, s) := s.readLocal who a 8
    if st = 0 then
      let (st2, a2, rest, s) := State.readWords s who n (a + 8)
      (st2, a2, bs ++ rest, s)
    else (st, a, [], s)

/-- The address a record names for a word of the local map: die view for Reservoir storage (R488). -/
def State.namedAt (s : State) (a : Nat) : Nat := ((s.decode a).canon).getD a

-- The placement table ----------------------------------------------------------------------------------------------

/-- Copy one 32-byte entry of an image into the shadow table; false when a source word reads bad, which a POISONED record names as
storage knows it (R37, R178); for one that reads uncorrectable storage has written the record already (R488). -/
def State.placeEntry (s : State) (src e : Nat) : Bool × State :=
  let (st, a, bs, s) := s.readWords (.engine s.firstEngine 1) 4 src
  if st = 0 then
    let put (t : List (Nat × Nat)) (j : Nat) : List (Nat × Nat) := tblPut (8 * e + j) 0 (leNat (sliceOf bs (4 * j) 4)) t
    (true, { s with hg := { s.hg with placeSh := (List.range 8).foldl put s.hg.placeSh } })
  else (false, if st = Code.poisoned then s.fault s.tableUnit Code.poisoned (some (s.namedAt a)) 0 else s)

/-- Copy `n` further entries of a load; the entries done, and whether it stopped on a bad word. -/
def State.placeCopy (src first : Nat) : Nat → Nat → State → Nat × Bool × State
  | 0, done, s => (done, false, s)
  | n + 1, done, s =>
    let (ok, s) := s.placeEntry (src + 32 * done) ((first + done) % 262144)
    if ok then State.placeCopy src first n (done + 1) s else (done, true, s)

/-- Start the oldest waiting load, when nothing is in progress (R178). -/
def State.placeStart (s : State) : State :=
  if s.hg.copying || s.hg.load.isSome then s
  else match s.hg.waitLoads with
    | [] => s
    | l :: rest => { s with hg := { s.hg with load := some { l with since := s.clock.cycles }, waitLoads := rest } }

/-- HG_PLACE_CTRL (R178): FIRST and COUNT_M1 are stored; GO starts a load with the values as they stand, or queues it while BUSY
is set. -/
def State.placeCtrlWrite (s : State) (v : Nat) : State :=
  let s := s.setReg Reg.HG_PLACE_CTRL (v % 2 ^ 36)
  if bitAt v 36 then
    let l : PlaceLoad := ⟨s.reg Reg.HG_PLACE_SRC, bitsOf v 0 18, bitsOf v 18 18 + 1, 0, 0⟩
    let t : State := { s with hg := { s.hg with waitLoads := s.hg.waitLoads ++ [l] } }
    t.placeStart
  else s

def State.placeBusy (s : State) : Bool := s.hg.load.isSome || s.hg.copying

/-- PLACE_LOAD_DONE: the remaining entries are copied, or the load stops on a bad word (R178); a load suspended by a flip does
not end (R179). -/
def State.placeLoadDone (s : State) : State :=
  match s.hg.load with
  | none => s
  | some l =>
    if s.hg.copying then s
    else
      let (_, _, s) := State.placeCopy l.src l.first (l.count - l.done) l.done s
      let t : State := { s with hg := { s.hg with load := none } }
      t.placeStart

/-- Move what a running load has copied by now, at 8 entries per cycle (R178). -/
def State.placeProgress (s : State) : State :=
  match s.hg.load with
  | none => s
  | some l =>
    let n := min (l.count - l.done) (8 * (s.clock.cycles - l.since))
    let (done, stopped, s) := State.placeCopy l.src l.first n l.done s
    if stopped then { s with hg := { s.hg with load := none } }
    else { s with hg := { s.hg with load := some { l with done := done } } }

/-- Copy every listed register of one range over another, as a table flip does. -/
def State.copyRange (s : State) (src dst n : Nat) : State :=
  let moved := (s.regs.filter fun e => decide (src ≤ e.1) && decide (e.1 < src + n)).map fun e => (e.1 - src + dst, e.2)
  let rest := s.regs.filter fun e => !(decide (dst ≤ e.1) && decide (e.1 < dst + n))
  { s with regs := moved.foldl (fun t e => tblSet e.1 e.2 t) rest }

/-- The placement flip (R179): the in-force tables take their shadow copies, and the post-flip copy begins; a gate region that is sealed
keeps those it sealed under. -/
def State.placementFlip (s : State) : State :=
  let s := s.placeProgress.keepTables
  let s : State := { s with hg := { s.hg with placeIn := s.hg.placeSh, copying := true } }
  let s := s.copyRange (Reg.HG_PLACE_BASE 0) (Reg.HG_PLACE_BASE_IF 0) 0x4000
  let s := s.copyRange (Reg.HG_LAYER0 0) (Reg.HG_LAYER0_IF 0) 0x40000
  s.setFlag Reg.HG_PLACE_FLIP Fld.HG_PLACE_FLIP_ARMED false

/-- PLACE_COPY_DONE: the post-flip copy ends; a suspended load resumes, or a waiting one starts (R179). -/
def State.placeCopyDone (s : State) : State :=
  if s.hg.copying then
    let s : State := { s with hg := { s.hg with copying := false } }
    match s.hg.load with
    | some l => { s with hg := { s.hg with load := some { l with since := s.clock.cycles } } }
    | none => s.placeStart
  else s

/-- HG_PLACE_FLIP: the write that sets ARMED arms the flip (R89, R179). -/
def State.placeFlipWrite (s : State) (v : Nat) : State :=
  let s := s.setReg Reg.HG_PLACE_FLIP v
  if bitAt v 63 then { s with tb := { s.tb with flipArmed := s.armTime } } else s

/-- A replica word (R175). -/
structure Replica where
  idx   : Nat
  node  : Nat
  slot  : Nat
  spill : Bool
  load  : Nat
  deriving DecidableEq, Repr

end Sys2Proof.Machine
end

