-- ==== Sys2Proof/Machine/HgScore.lean ====
section
/-! DEFINITION. The start of a routing step: the gate region is read and checked, tokens are scored, and the load board and
placement entries are taken (R50, R59 to R61, R70, R140 to R146, R150, R169, R181). -/

namespace Sys2Proof.Machine

/-- The fields of HG_XCH_REGIONS for a parity (R203). -/
def State.landRegion (s : State) (p : Nat) : Nat := bitsOf (s.reg Reg.HG_XCH_REGIONS) (8 * p) 8
def State.gateRegion (s : State) (p : Nat) : Nat := bitsOf (s.reg Reg.HG_XCH_REGIONS) (16 + 8 * p) 8
def State.outRegion (s : State) (p : Nat) : Nat := bitsOf (s.reg Reg.HG_XCH_REGIONS) (32 + 8 * p) 8
def State.loadRegion (s : State) : Nat := s.fld Reg.HG_XCH_REGIONS Fld.HG_XCH_REGIONS_LOAD_REGION

/-- The width of an input element in bytes, and its format (R136). -/
def inBytes (fmt : Nat) : Nat := if fmt = 0 then 2 else 1
def inFormat (fmt : Nat) : FFormat := if fmt = 0 then bf16 else if fmt = 1 then e4m3 else e5m2

/-- Output rows of the layer: bytes of one row (R203). -/
def State.outRowBytes (s : State) (l : Layer) : Nat :=
  128 * l.hBlks * (if s.flag Reg.HG_XCH_CFG Fld.HG_XCH_CFG_OUT_FMT then 4 else 2)

def State.outRowAddr (s : State) (p slot : Nat) : Nat :=
  regionAddr (s.outRegion p) (s.fld Reg.HG_XCH_OUT Fld.HG_XCH_OUT_OUT_OFFSET +
    slot * s.fld Reg.HG_XCH_OUT Fld.HG_XCH_OUT_OUT_STRIDE)

/-- Mark the output row of a slot poisoned (R70, R142). -/
def State.poisonRow (s : State) (l : Layer) (p slot : Nat) : State :=
  (s.writeLocal (.engine s.firstEngine 3) (s.outRowAddr p slot) (List.replicate (s.outRowBytes l) 0) true).2

/-- The slots whose output row fits in the output region. -/
def State.outSlots (s : State) (l : Layer) (p : Nat) : Nat :=
  let size := (s.region (s.outRegion p)).size * 4096
  let off := s.fld Reg.HG_XCH_OUT Fld.HG_XCH_OUT_OUT_OFFSET
  let stride := s.fld Reg.HG_XCH_OUT Fld.HG_XCH_OUT_OUT_STRIDE
  if size < off + s.outRowBytes l then 0
  else if stride = 0 then 1 else min 65536 ((size - off - s.outRowBytes l) / stride + 1)

/-- Every engine in service seals a region (R54). -/
def State.enginesSeal (s : State) (region layer : Nat) : State :=
  s.enginesUp.foldl (fun s e => s.sealAll (.engine e 3) region layer) s

/-- What a routing step's failure does at use (R142): every output row that fits is poisoned and the region sealed, and no
further routing step starts until the LAND regions are reset. -/
def State.failStep (s : State) (l : Layer) (p layer : Nat) : State :=
  let n := s.outSlots l p
  let s := (List.range n).foldl (fun s k => s.poisonRow l p k) s
  let s := s.countWrap Reg.HG_CNT_COMBINE Fld.HG_CNT_COMBINE_POISON_ROWS n
  let s := s.enginesSeal (s.outRegion p) layer
  { s with hg := { s.hg with faulted := true, landReset := [] } }

/-- A LAYER_INVALID record at use, kinds 6 to 8 (R138, R558). -/
def State.layerInvalid (s : State) (layer kind : Nat) : State :=
  s.fault (engineUnit s.firstEngine 0) Code.layerInvalid none (layer + kind * 2 ^ 12)

/-- The UNCORRECTABLE record that names a word which read poisoned (R139, R142); for one that reads uncorrectable storage has
written it already (R488). -/
def State.nameBad (s : State) (st a : Nat) : State :=
  if st = Code.poisoned then
    let c := s.namedAt a
    let (d, s) := s.uncorrectableDetail (b2n (isHbm c)) 0
    s.fault (engineUnit s.firstEngine 0) Code.uncorrectable (some c) d
  else s

/-- Elements of a byte list in the layer's input format. -/
def elements (fmt : Nat) (bs : List Byte) : List Nat :=
  if fmt = 0 then (List.range (bs.length / 2)).map fun i => leNat (sliceOf bs (2 * i) 2) else bs.map BitVec.toNat

/-- Does a word of a stored range read uncorrectable or poisoned? -/
def State.badAt (s : State) (c n : Nat) : Bool :=
  s.marks.any fun e => decide (c < e.1 + wordSize e.1) && decide (e.1 < c + n) &&
    (match (if isHbm e.1 then judgeHbm e.2 else judgeSram e.2) with
      | .good => false
      | .corrected _ _ => false
      | _ => true)

/-- Does a local-map range hold a word that cannot be read, looking granule by granule (R142, R174)? Nothing is changed by looking; the
errors of a tile are reported once, when its step starts. -/
def State.rangeBad (s : State) : Nat → Nat → Nat → Bool
  | 0, _, _ => false
  | fuel + 1, a, n =>
    if n = 0 then false
    else
      let m := min n (granuleLeft a)
      (match (s.decode a).canon with
        | some c => s.badAt c m
        | none => true) || State.rangeBad s fuel (a + m) (n - m)

/-- The bytes of a local-map range as they stand, granule by granule. -/
def State.peekLocal (s : State) : Nat → Nat → Nat → List Byte
  | 0, _, _ => []
  | fuel + 1, a, n =>
    if n = 0 then []
    else
      let m := min n (granuleLeft a)
      (match (s.decode a).canon with
        | some c => memBytes s.mem c m
        | none => List.replicate m 0) ++ State.peekLocal s fuel (a + m) (n - m)

/-- One tile's sum for a column: exact products of 128 hidden elements and weights through the fixed tree (R144). -/
def tileSum (f : FFormat) (hidden weights : List Nat) : Nat :=
  productTree 6 (List.zipWith (fun a b => (fdecode f a).mul (fdecode f b)) hidden weights)

/-- A column of a tile as elements. -/
def State.tileColumn (s : State) (l : Layer) (j i c : Nat) : List Nat :=
  let esz := inBytes l.inFmt
  let base := l.gateW + (j * l.hBlks + i) * 16384 * esz
  (List.range 128).map fun r => leNat (s.peekLocal 2 (base + (r * 128 + c) * esz) esz)

/-- The score of a hidden row for column `c` of block `j`: tile sums added in ascending tile index (R144); NaN when a tile is
bad (R174). -/
def State.score (s : State) (l : Layer) (row : List Nat) (j c : Nat) : Nat :=
  (List.range l.hBlks).foldl (fun acc i =>
    let base := l.gateW + (j * l.hBlks + i) * 16384 * inBytes l.inFmt
    if s.rangeBad 10 base (16384 * inBytes l.inFmt) then nan32
    else add32 acc (tileSum (inFormat l.inFmt) (sliceOf row (128 * i) 128) (s.tileColumn l j i c))) 0

/-- Expert blocks of a layer (R143). -/
def Layer.blocks (l : Layer) : Nat := (l.e + 127) / 128

/-- Read the tiles of a layer's weights, once per routing step: their errors are corrected or reported (R174, R483), and the read is charged
(R450). -/
def State.reportTiles (s : State) (l : Layer) : State :=
  let size := 16384 * inBytes l.inFmt
  let n := (if l.mode = 1 then 0 else l.blocks) + (if 0 < l.predR then 1 else 0)
  let first := if l.mode = 1 then l.blocks else 0
  (List.range (n * l.hBlks)).foldl (fun s t =>
    (s.readLocal (.engine s.firstEngine 0) (l.gateW + (first * l.hBlks + t) * size) size).2.2) s

/-- The token entries of a gate region (R140, R141), read up to the first bad one (R142): its status and word, and the entries. -/
def State.readTokenEntries (s : State) (region : Nat) : Nat → Nat → Nat × Nat × List (List Byte) × State
  | 0, t => (0, regionAddr region (64 + 16 * t), [], s)
  | n + 1, t =>
    let (st, a, e, s) := s.readWords (.engine s.firstEngine 0) 2 (regionAddr region (64 + 16 * t))
    if st = 0 then
      let (st2, a2, rest, s) := State.readTokenEntries s region n (t + 1)
      (st2, a2, e :: rest, s)
    else (st, a, [], s)

/-- The hidden rows of the tokens (R140, R142): a row with a bad word takes its token out of the step, and one record names that
word. -/
def State.readTokenRows (s : State) (region hidOff stride rowBytes : Nat) (keySel : Bool) :
    List (List Byte) → Nat → List (TokenInfo × List Byte) × State
  | [], _ => ([], s)
  | e :: es, t =>
    let (st, a, row, s) := s.readWords (.engine s.firstEngine 0) (rowBytes / 8) (regionAddr region (hidOff + t * stride))
    let s := if st = Code.poisoned then
        s.fault (engineUnit s.firstEngine 0) Code.poisoned (some (s.namedAt a)) 0 else s
    let tok : TokenInfo :=
      { slot := leNat (sliceOf e 0 2), id := leNat (sliceOf e 4 4),
        key := if keySel then leNat (sliceOf e 8 8) else leNat (sliceOf e 4 4), bad := st != 0 }
    let (rest, s) := State.readTokenRows s region hidOff stride rowBytes keySel es (t + 1)
    ((tok, row) :: rest, s)

/-- Read one 8-byte entry of the expert vector; the record of one that reads bad names the entry (R139). -/
def State.readVecEntry (s : State) (a : Nat) : Nat × List Byte × State :=
  let who : Requester := .engine s.firstEngine 0
  match (s.decode a).canon with
  | some c =>
    if isHbm c then
      let (st, s) := (s.chargeHbm who 8).checkWord (wordKey c) 0 c
      (st, memBytes s.mem c 8, s.nameBad st a)
    else
      let (st, bs, s) := s.readLocal who a 8
      (st, bs, s.nameBad st a)
  | none => s.readLocal who a 8

/-- The expert-vector entries a layer needs (R139): a bad entry gives a NaN BIAS and a CAP_ABS of 0. -/
def State.readVector (s : State) (l : Layer) : List (Nat × Nat) × State :=
  if l.mode = 2 || l.capTable then
    (List.range l.e).foldl (fun (acc : List (Nat × Nat) × State) x =>
      let (st, bs, s) := acc.2.readVecEntry (l.vecAddr + 8 * x)
      (tblSet x (if st = 0 then leNat bs else nan32) acc.1, s)) ([], s)
  else ([], s)

/-- The load-board words of the layer's entries (R181), keyed 8 × expert + replica: 32 bytes an entry, read as 64-bit words; both words
of one that reads bad read as 65,535. -/
def State.takeBoard (s : State) (l : Layer) (base : Nat) : List (Nat × Nat) × State :=
  (List.range (4 * (l.e + l.shared))).foldl (fun (acc : List (Nat × Nat) × State) k =>
    let s := acc.2
    let a := regionAddr s.loadRegion (32 * ((base + k / 4) % 262144) + 8 * (k % 4))
    let (st, bs, s) := s.readLocal (.engine s.firstEngine 1) a 8
    let word (i : Nat) : Nat := if st = 0 then leNat (sliceOf bs (4 * i) 4) else 65535
    (tblPut (2 * k + 1) 0 (word 1) (tblPut (2 * k) 0 (word 0) acc.1), s)) ([], s)

/-- The selection value of an expert from its score (R147): sigmoid layers take sig; the bias is added when candidates are
ranked. -/
def Layer.value (l : Layer) (score : Nat) : Nat := if l.norm = 1 then sig32 score else score

/-- Is a value known to pass a test? A value of a word that cannot be read passes none. -/
def known (v : Option Nat) (f : Nat → Bool) : Bool := match v with | some x => f x | none => false

/-- Does what can be read of the step header break the layout of R140, or do entries or rows reach past the region (R138 kind 7)? -/
def headerBad (t hidOff stride : Option Nat) (rowBytes size : Nat) : Bool :=
  known t (fun t => decide (size < 64 + 16 * t)) || known hidOff (fun h => h % 256 != 0) || known stride (fun d => d % 256 != 0) ||
  known t (fun t => known stride fun d => decide (1 < t) && decide (d < rowBytes)) ||
  known t (fun t => known hidOff fun h => decide (0 < t) && (decide (h < 64 + 16 * t) ||
    known stride fun d => decide (size < h + (t - 1) * d + rowBytes)))

/-- A header word of a gate region, when it can be read. -/
def State.headerWord (s : State) (region i : Nat) : Option Nat :=
  let a := regionAddr region (8 * i)
  if s.rangeBad 2 a 8 then none else some (leNat (s.peekLocal 2 a 8))

/-- A routing step starts once the seal signal of its gate region has reached the engines, which was at cycle `at_` and fabric time `time`
(R59 stage 2, R61, R70). It uses the tables in force when the region sealed. A header that breaks its layout in the words that can be read
fails with kind 7 whether or not another reads bad (R138). -/
def State.startStep (s : State) (p region layer at_ time : Nat) : State :=
  let n := s.hg.nextStep
  let tables := tblGetD region (s.gateTables layer) s.rsv.tables
  let l := Layer.ofWords tables.desc
  let sealTime := tblGetD region s.now s.rsv.sealTimes
  let s : State := { s with hg := { s.hg with nextStep := n + 1 } }
  let fail (s : State) (kind : Nat) : State := (s.layerInvalid layer kind).failStep l p layer
  if !l.valid then fail s 6
  else
    let word := s.headerWord region
    let (hst, ha, _, s) := s.readWords (.engine s.firstEngine 0) 8 (regionAddr region 0)
    let s := s.nameBad hst ha
    let t := ((word 0).getD 0) % 2 ^ 16
    let hidOff := (word 1).getD 0
    let stride := ((word 2).getD 0) % 2 ^ 32
    let rowBytes := 128 * l.hBlks * inBytes l.inFmt
    if headerBad ((word 0).map (· % 2 ^ 16)) (word 1) ((word 2).map (· % 2 ^ 32)) rowBytes ((s.region region).size * 4096) then fail s 7
    else if hst != 0 then fail s 8
    else
      let (est, ea, entries, s) := s.readTokenEntries region t 0
      if est != 0 then fail (s.nameBad est ea) 8
      else
        let (toks, s) := s.readTokenRows region hidOff stride rowBytes l.keySel entries 0
        let s := if t = 0 then s else s.reportTiles l
        let (vec, s) := s.readVector l
        let (board, s) := s.takeBoard l tables.base
        let rows := toks.map fun e => if e.1.bad then [] else elements l.inFmt e.2
        let scores := rows.map fun row =>
          if l.mode = 1 || row.isEmpty then [] else (List.range l.e).map fun x => s.score l row (x / 128) (x % 128)
        let preds := rows.map fun row =>
          if row.isEmpty then [] else (List.range l.predR).map fun c => toBf16 (s.score l row l.blocks c)
        let step : HgStep :=
          { number := n, parity := p, layer := layer, desc := tables.desc, tokens := toks.map fun e => e.1, hidOffset := hidOff,
            hidStride := stride, scores := scores, preds := preds, vec := vec, base := tables.base, place := tables.place, board := board,
            engines := s.enginesUp, sealCycle := at_, sealTime := time,
            deadline := sealTime + s.fld Reg.HG_EXCH_CTRL Fld.HG_EXCH_CTRL_T_EXCH * 1000, decided := 0, used := [],
            spillUsed := [], refused := [], nextIn := [], qNext := [], prio := none, records := [], dropped := 0,
            spilled := 0, nextTaken := 0, nanTokens := 0, tiesHash := 0, tiesExpert := 0, stage := .selecting,
            lists := [], unsent := [], relayN := [] }
        { s with hg := { s.hg with steps := s.hg.steps ++ [step] } }

end Sys2Proof.Machine
end

