-- ==== Sys2Proof/Machine/HgSelect.lean ====
section
/-! DEFINITION. Selection: candidate lists, ties, capacity, the first-come walk and the score-priority rounds, weights and the
choice of replicas (R147 to R168, R170 to R173, R180, R183, R185). -/

namespace Sys2Proof.Machine

def HgStep.lay (p : HgStep) : Layer := Layer.ofWords p.desc
def HgStep.token (p : HgStep) (t : Nat) : TokenInfo := nthD p.tokens t ⟨0, 0, 0, true⟩
def HgStep.scoreOf (p : HgStep) (t x : Nat) : Nat := nthD (nthD p.scores t []) x nan32

/-- The selection score of token `t` for expert `x` (R147). -/
def HgStep.selScore (p : HgStep) (t x : Nat) : Nat :=
  let l := p.lay
  let v := l.value (p.scoreOf t x)
  if l.mode = 2 then add32 v (bitsOf (tblGetD x 0 p.vec) 0 32) else v

/-- The tie key of token `t` for expert `x` (R153). -/
def HgStep.tieKey (p : HgStep) (t x : Nat) : Nat :=
  th64 (p.token t).key (0x4000000000000000 ||| (p.layer * 2 ^ 16) ||| x)

/-- An expert with its ranking keys for a token (R154). -/
structure Rank where
  score : Nat
  tie   : Nat
  x     : Nat
  deriving DecidableEq, Repr

/-- Does the first rank above the second: score, then lower tie key, then lower expert number (R154)? -/
def Rank.above (a b : Rank) : Bool :=
  decide (rankKey b.score < rankKey a.score) ||
  (rankKey a.score == rankKey b.score && (decide (a.tie < b.tie) || (a.tie == b.tie && decide (a.x < b.x))))

/-- The best of a list. -/
def bestRank : List Rank → Option Rank
  | [] => none
  | a :: rest => match bestRank rest with
    | none => some a
    | some b => if a.above b then some a else some b

/-- The best `n` of a list in rank order. -/
def topRanks : Nat → List Rank → List Rank
  | 0, _ => []
  | n + 1, xs => match bestRank xs with
    | none => []
    | some a => a :: topRanks n (xs.filter fun b => b.x != a.x)

/-- The score of a group: its best member's, or the sum of its two best, the larger first (R155). -/
def groupScore (rule : Bool) (members : List Nat) : Nat :=
  match sortBy (fun a b => decide (rankKey b ≤ rankKey a)) members with
  | [] => nan32
  | [a] => a
  | a :: b :: _ => if rule then add32 a b else a

/-- The experts a token's list draws from: all, or those of the kept groups (R155). -/
def HgStep.eligible (p : HgStep) (t : Nat) : List Nat :=
  let l := p.lay
  if l.groupsLog = 0 then List.range l.e
  else
    let size := l.e / 2 ^ l.groupsLog
    let group (g : Nat) : List Nat := rangeFrom (g * size) size
    let ranks := (List.range (2 ^ l.groupsLog)).map fun g =>
      (⟨groupScore l.groupRule ((group g).map fun x => p.selScore t x), g, g⟩ : Rank)
    let kept := (topRanks l.groupSel ranks).map fun r => r.x
    (List.range l.e).filter fun x => kept.contains (x / size)

/-- Extras a list has beyond the primaries (R154). -/
def Layer.extras (l : Layer) : Nat := if l.overflow = 1 then l.nextMax else 0

/-- The distinct hash-route draws of a token, in order of first appearance, up to `want` (R156). -/
def HgStep.draws (p : HgStep) (t want : Nat) : Nat → Nat → List Nat → List Nat
  | 0, _, acc => acc
  | n + 1, j, acc =>
    if want ≤ acc.length then acc
    else
      let x := th64 (p.token t).key ((p.lay.salt + j) % 2 ^ 64) % p.lay.e
      HgStep.draws p t want n (j + 1) (if acc.contains x then acc else acc ++ [x])

/-- The candidate list of a token, and the ties over its rank boundaries decided by tie key and by expert number (R154 to
R156). -/
def HgStep.candidates (p : HgStep) (t : Nat) : List Nat × Nat × Nat :=
  let l := p.lay
  if l.mode = 1 then
    let want := min (l.k + l.extras) l.e
    let drawn := p.draws t want 64 0 []
    let fill := (List.range (want + drawn.length)).filter fun x => decide (x < l.e) && !drawn.contains x
    ((drawn ++ fill).take want, 0, 0)
  else
    let ranks := (p.eligible t).map fun x => (⟨p.selScore t x, p.tieKey t x, x⟩ : Rank)
    let n := l.k + l.extras
    let top := topRanks (n + 1) ranks
    let pairs := top.zip (top.drop 1)
    let tied := pairs.filter fun ab => ties32 ab.1.score ab.2.score
    ((top.take n).map fun r => r.x, (tied.filter fun ab => ab.1.tie != ab.2.tie).length,
      (tied.filter fun ab => ab.1.tie == ab.2.tie).length)

-- Capacity ---------------------------------------------------------------------------------------------------------

/-- Replica words of an expert of one kind, VALID ones only (R175), with their load-board values (R181). -/
def HgStep.replicas (p : HgStep) (x : Nat) (spill : Bool) : List Replica :=
  ((List.range 8).map fun j =>
    let w := tblGetD (8 * x + j) 0 p.place
    (bitAt w 28, (⟨j, bitsOf w 0 16, bitsOf w 16 12, bitAt w 29, bitsOf (tblGetD (8 * x + j) 0 p.board) 0 16⟩ : Replica)))
  |>.filterMap fun e => if e.1 && e.2.spill == spill then some e.2 else none

/-- The capacity formula of R158. -/
def Layer.capFormula (l : Layer) (t : Nat) : Nat :=
  min ((ceilDiv (l.cf * t * l.k) (256 * l.e) + 7) / 8 * 8) 65528

/-- The capacity C of each ordinary replica of an expert (R158). -/
def HgStep.capC (p : HgStep) (x : Nat) : Nat :=
  let l := p.lay
  if l.capTable then (if tblGetD x 0 p.vec = nan32 then 0 else bitsOf (tblGetD x 0 p.vec) 32 16)
  else l.capFormula p.tokens.length

/-- Ordinary and spillway capacity of an expert at the origin (R159). -/
def HgStep.cap (p : HgStep) (x : Nat) : Nat := p.capC x * (p.replicas x false).length
def HgStep.spillCap (p : HgStep) (x : Nat) : Nat := p.lay.spillC * (p.replicas x true).length

def bump (k n : Nat) (t : List (Nat × Nat)) : List (Nat × Nat) := tblSet k (tblGetD k 0 t + n) t

-- The first-come walk (R160) ----------------------------------------------------------------------------------------

/-- Try the token's unused extras in rank order from rank `nx` (R160): the rank served, if any, and the next unused rank. -/
def HgStep.tryExtras (p : HgStep) (cand : List Nat) : Nat → Nat → Option Nat × Nat × HgStep
  | 0, nx => (none, nx, p)
  | n + 1, nx =>
    if nx < cand.length then
      let y := nthD cand nx 0
      if tblGetD y 0 p.used < p.cap y then
        (some nx, nx + 1, { p with used := bump y 1 p.used, nextIn := bump y 1 p.nextIn })
      else HgStep.tryExtras { p with refused := bump y 1 p.refused } cand n (nx + 1)
    else (none, nx, p)

/-- Decide the primaries of a token from rank `r` on (R160). -/
def HgStep.walkToken (cand : List Nat) (t : Nat) : Nat → Nat → Nat → List Claim → HgStep → List Claim × HgStep
  | 0, _, _, acc, p => (acc, p)
  | n + 1, r, nx, acc, p =>
    let x := nthD cand r 0
    if tblGetD x 0 p.used < p.cap x then
      HgStep.walkToken cand t n (r + 1) nx (acc ++ [⟨t, r, x, 0⟩]) { p with used := bump x 1 p.used }
    else
      let p : HgStep := { p with refused := bump x 1 p.refused }
      let ov := p.lay.overflow
      if ov = 1 then
        let (got, nx, p) := p.tryExtras cand 16 nx
        match got with
        | some e => HgStep.walkToken cand t n (r + 1) nx (acc ++ [⟨t, e, nthD cand e 0, 1⟩]) { p with nextTaken := p.nextTaken + 1 }
        | none => HgStep.walkToken cand t n (r + 1) nx acc { p with dropped := p.dropped + 1 }
      else if ov = 2 && decide (tblGetD x 0 p.spillUsed < p.spillCap x) then
        HgStep.walkToken cand t n (r + 1) nx (acc ++ [⟨t, r, x, 2⟩])
          { p with spillUsed := bump x 1 p.spillUsed, spilled := p.spilled + 1 }
      else HgStep.walkToken cand t n (r + 1) nx acc { p with dropped := p.dropped + 1 }

-- Score priority (R161) --------------------------------------------------------------------------------------------

/-- The order of claims on one expert: score, tie key, position (R161); in hash-route the tie key alone ranks (R156). -/
def HgStep.claimAbove (p : HgStep) (a b : Claim) : Bool :=
  let sa := if p.lay.mode = 1 then 0 else rankKey (p.selScore a.pos a.expert)
  let sb := if p.lay.mode = 1 then 0 else rankKey (p.selScore b.pos b.expert)
  let ta := p.tieKey a.pos a.expert
  let tb := p.tieKey b.pos b.expert
  decide (sb < sa) || (sa == sb && (decide (ta < tb) || (ta == tb && decide (a.pos ≤ b.pos))))

/-- The primary claims of every token that makes claims, before the first round. -/
def HgStep.prioStart (p : HgStep) : PrioState :=
  let claims := ((List.range p.tokens.length).map fun t =>
    if (p.token t).bad then []
    else (List.range p.lay.k).map fun r => (⟨t, r, nthD (p.candidates t).1 r 0, 0⟩ : Claim)).flatten
  ⟨0, claims, [], [], [], false⟩

/-- Accept claims, best first per expert, while capacity lasts (R161): accepted and refused. -/
def acceptBest (cap : Nat → Nat) : List Claim → List (Nat × Nat) → List Claim × List Claim × List (Nat × Nat)
  | [], used => ([], [], used)
  | c :: cs, used =>
    if tblGetD c.expert 0 used < cap c.expert then
      let (a, r, u) := acceptBest cap cs (bump c.expert 1 used)
      (c :: a, r, u)
    else
      let (a, r, u) := acceptBest cap cs used
      (a, c :: r, u)

/-- The next pending claims: each refused claim, in its token's rank order, takes the token's next unused extra; those without
one are refused for good (R161). -/
def HgStep.nextClaims (p : HgStep) : List Claim → List (Nat × Nat) → List Claim × List Claim × List (Nat × Nat)
  | [], nx => ([], [], nx)
  | c :: cs, nx =>
    let r := tblGetD c.pos p.lay.k nx
    let cand := (p.candidates c.pos).1
    if r < cand.length then
      let (pend, bad, nx) := HgStep.nextClaims p cs (tblSet c.pos (r + 1) nx)
      (⟨c.pos, r, nthD cand r 0, 1⟩ :: pend, bad, nx)
    else
      let (pend, bad, nx) := HgStep.nextClaims p cs nx
      (pend, c :: bad, nx)

/-- End of the rounds (R161): spillway serves the best of the claims refused for good; the rest are dropped. -/
def HgStep.prioEnd (p : HgStep) (q : PrioState) : HgStep :=
  if p.lay.overflow = 2 then
    let (a, r, u) := acceptBest p.spillCap (sortBy p.claimAbove q.refused) p.spillUsed
    { p with spillUsed := u, spilled := p.spilled + a.length, dropped := p.dropped + r.length,
             prio := some { q with accepted := q.accepted ++ a.map (fun c => { c with kind := 2 }), done := true } }
  else { p with dropped := p.dropped + q.refused.length, prio := some { q with done := true } }

/-- One rank round (R161). -/
def HgStep.prioRound (p : HgStep) (q : PrioState) : HgStep :=
  let (acc, ref, used) := acceptBest p.cap (sortBy p.claimAbove q.pending) p.used
  let isNext := decide (0 < q.round)
  let p : HgStep := { p with used := used, refused := ref.foldl (fun t c => bump c.expert 1 t) p.refused }
  let p : HgStep := if isNext then
      { p with nextIn := acc.foldl (fun t c => bump c.expert 1 t) p.nextIn, nextTaken := p.nextTaken + acc.length }
    else p
  let q : PrioState := { q with accepted := q.accepted ++ acc }
  if p.lay.overflow = 1 && decide (q.round < p.lay.nextMax) then
    let order := sortBy (fun (a b : Claim) => decide (a.pos < b.pos) || (a.pos == b.pos && decide (a.rank ≤ b.rank))) ref
    let (pend, bad, nx) := p.nextClaims order q.nextRank
    let q : PrioState := { q with round := q.round + 1, pending := pend, refused := q.refused ++ bad, nextRank := nx }
    if pend.isEmpty then p.prioEnd q else { p with prio := some q }
  else p.prioEnd { q with refused := q.refused ++ ref, pending := [] }

-- Weights (R150, R151) ---------------------------------------------------------------------------------------------

def sub32 (a b : Nat) : Nat := add32 a (neg32 b)

/-- One block of 64 scores folded into the running maximum and sum (R150). -/
def softmaxBlock (mz : Nat × Nat) (xs : List Nat) : Nat × Nat :=
  let m2 := xs.foldl max32 mz.1
  (m2, add32 (mul32 mz.2 (exp32 (sub32 mz.1 m2))) (tree64 (xs.map fun x => exp32 (sub32 x m2))))

/-- The maximum and the sum over all scores, in blocks of 64 (R150). -/
def softmaxFold : Nat → List Nat → Nat × Nat → Nat × Nat
  | 0, _, mz => mz
  | n + 1, xs, mz => if xs.isEmpty then mz else softmaxFold n (xs.drop 64) (softmaxBlock mz (xs.take 64))

/-- The value of an expert that enters weights: exp(s − m), or n (R151). -/
def HgStep.weightValue (p : HgStep) (t x m : Nat) : Nat :=
  if p.lay.norm = 1 then sig32 (p.scoreOf t x) else exp32 (sub32 (p.scoreOf t x) m)

/-- The FP32 weight of a served routed claim (R151). -/
def HgStep.weight (p : HgStep) (t x : Nat) (cand : List Nat) : Nat :=
  let l := p.lay
  if l.mode = 1 then mul32 (div32 one32 (toF32 (FVal.ofInt l.k))) l.weightScale
  else
    let xs := nthD p.scores t []
    let mz := if l.norm = 1 then (0, 0) else softmaxFold (xs.length / 64 + 1) xs (0xFF800000, 0)
    let v := p.weightValue t x mz.1
    if l.renorm then
      let d := (cand.take l.k).foldl (fun d y => add32 d (p.weightValue t y mz.1)) 0
      mul32 (div32 v d) l.weightScale
    else if l.norm = 1 then mul32 v l.weightScale
    else mul32 (div32 v mz.2) l.weightScale

-- Choosing a replica (R180, R183) ----------------------------------------------------------------------------------

/-- Where a claim goes. -/
inductive Choice where
  | device (node slot idx : Nat)
  | rack (rack idx : Nat)
  | nowhere
  deriving DecidableEq, Repr

def sortReplicas (rs : List Replica) : List Replica :=
  sortBy (fun a b => decide (a.load < b.load) || (a.load == b.load && decide (a.idx ≤ b.idx))) rs

/-- The racks, other than the own one, that hold replicas: rack, key (smallest load) and count, in order (R180, R182). -/
def otherRacks (rack : Nat) (rs : List Replica) : List (Nat × Nat × Nat) :=
  let nums := ((rs.map fun r => r.node / 256).filter fun r => r != rack).eraseDups
  let keyed := nums.map fun r =>
    let mine := rs.filter fun q => q.node / 256 == r
    (r, (mine.map fun q => q.load).foldl min 65535, mine.length)
  sortBy (fun a b => decide (a.2.1 < b.2.1) || (a.2.1 == b.2.1 && decide (a.1 ≤ b.1))) keyed

/-- Walk the other racks for claim number `q2` (R180). -/
def rackWalk (lim : Nat) : List (Nat × Nat × Nat) → Nat → Option Nat
  | [], _ => none
  | (r, _, b) :: rest, q2 => if q2 < lim * b then some r else rackWalk lim rest (q2 - lim * b)

def lowestIn (rack : Nat) (rs : List Replica) : Nat :=
  ((rs.filter fun q => q.node / 256 == rack).map fun q => q.idx).foldl min 7

/-- The replica of claim number `q` of a kind with limit `lim` (R180). -/
def choose (node : Nat) (rs : List Replica) (lim q : Nat) : Choice :=
  let loc := sortReplicas (rs.filter fun r => r.node / 256 == node / 256)
  if q < lim * loc.length then
    let r := nthD loc (q % loc.length) ⟨0, 0, 0, false, 0⟩
    .device r.node r.slot r.idx
  else match rackWalk lim (otherRacks (node / 256) rs) (q - lim * loc.length) with
    | some r => .rack r (lowestIn r rs)
    | none => .nowhere

/-- The replica of a shared claim (R183). -/
def chooseShared (node : Nat) (rs : List Replica) (q : Nat) : Choice :=
  match rs.find? fun r => r.node == node with
  | some r => .device r.node r.slot r.idx
  | none =>
    let loc := sortReplicas (rs.filter fun r => r.node / 256 == node / 256)
    if loc.isEmpty then
      match otherRacks (node / 256) rs with
      | [] => .nowhere
      | (r, _, _) :: _ => .rack r (lowestIn r rs)
    else
      let r := nthD loc (q % loc.length) ⟨0, 0, 0, false, 0⟩
      .device r.node r.slot r.idx

/-- The numbering table's key for an expert and a kind of replica. -/
def qKey (x kind : Nat) : Nat := x * 4 + (if kind = 2 then 1 else if kind = 3 then 2 else 0)

/-- The gateway this device uses in a rack (R196). -/
def State.gateway (s : State) (rack : Nat) : Option Nat :=
  let w := s.reg (Reg.HG_GATEWAY rack)
  if bitAt w 16 then some (bitsOf w 0 16) else none

/-- The route record of a served claim (R180, R185), or the rack whose gateway entry is missing (R196). -/
def State.routeRecord (s : State) (p : HgStep) (c : Claim) (cand : List Nat) : Except Nat (Option RouteRec × HgStep) :=
  let l := p.lay
  let x := c.expert
  let key := qKey x c.kind
  let q := tblGetD key 0 p.qNext
  let p : HgStep := { p with qNext := tblSet key (q + 1) p.qNext }
  let ch := if c.kind = 3 then chooseShared s.node (p.replicas (l.e + x) false) q
            else if c.kind = 2 then choose s.node (p.replicas x true) l.spillC q
            else choose s.node (p.replicas x false) (p.capC x) q
  let w := if c.kind = 3 then l.sharedScale else p.weight c.pos x cand
  let r : RouteRec := ⟨c.pos, (p.token c.pos).slot, 0, 0, 0, c.kind, (if c.kind = 3 then 24 + x else c.rank), false, w, s.node, 0, x⟩
  match ch with
  | .device n slot idx => .ok (some { r with expertSlot := slot, replica := idx, dest := n }, p)
  | .rack rk idx => match s.gateway rk with
    | some g => .ok (some { r with expertSlot := 0xFFF, replica := idx, dest := g }, p)
    | none => .error rk
  | .nowhere => .ok (none, p)

/-- The route records of a token's claims in rank order. -/
def State.routeAll (s : State) (cand : List Nat) : List Claim → HgStep → Except Nat HgStep
  | [], p => .ok p
  | c :: cs, p => match s.routeRecord p c cand with
    | .error rk => .error rk
    | .ok (some r, p) => State.routeAll s cand cs { p with records := p.records ++ [r] }
    | .ok (none, p) => State.routeAll s cand cs p

/-- The rank of the engine whose share holds position `t` (R60, R165). -/
def HgStep.engineOf (p : HgStep) (t : Nat) : Nat :=
  nthD p.engines (p.engines.length * t / max p.tokens.length 1) 0

-- The end of selection ---------------------------------------------------------------------------------------------

/-- The load vector (R170). -/
def State.writeLoadVector (s : State) (p : HgStep) : State :=
  let l := p.lay
  let sat (x : Nat) (t : List (Nat × Nat)) : List Byte := leBytes 2 (min (tblGetD x 0 t) 65535)
  let bytes := ((List.range l.e).map fun x => sat x p.used ++ sat x p.refused ++ sat x p.spillUsed ++ sat x p.nextIn).flatten
  (s.writeLocal (.engine s.firstEngine 1) (l.loadAddr + p.number % 2 * (8 * l.e)) bytes false).2

def sumTbl (t : List (Nat × Nat)) : Nat := (t.map fun e => e.2).foldl (· + ·) 0

/-- The step summary (R171). -/
def State.stepSummary (s : State) (p : HgStep) : State :=
  if !s.flag Reg.HG_SEL_CTRL Fld.HG_SEL_CTRL_STAT_ENABLE then s
  else
    let l := p.lay
    let t := p.tokens.length
    let top := (List.range l.e).foldl (fun (m : Nat × Nat) x => if m.1 < tblGetD x 0 p.used then (tblGetD x 0 p.used, x) else m) (0, 0)
    let bytes := leBytes 8 p.number ++
      leBytes 2 (p.layer + p.parity * 2 ^ 12 + b2n l.compete * 2 ^ 13 + l.overflow * 2 ^ 14) ++ leBytes 2 t ++
      leBytes 1 (if p.dropped = 0 then 0 else Code.capacityRefused) ++ leBytes 1 s.jobNum ++
      leBytes 2 (if l.capTable then 0 else l.capFormula t) ++ leBytes 4 (t * l.k) ++ leBytes 4 (sumTbl p.refused) ++
      leBytes 4 p.dropped ++ leBytes 4 p.spilled ++ leBytes 4 p.nextTaken ++ leBytes 2 (min top.1 65535) ++
      leBytes 2 top.2 ++ leBytes 2 (min p.nanTokens 65535) ++ leBytes 2 (min p.tiesHash 65535) ++
      leBytes 2 (min p.tiesExpert 65535) ++ leBytes 2 0 ++ leBytes 8 (if t = 0 then p.sealTime else s.now) ++
      leBytes 4 (if t = 0 then 0 else s.clock.cycles - p.sealCycle) ++ leBytes 4 0
    let (ok, s) := s.pushNow (.engine s.firstEngine 1) (s.fld Reg.HG_SEL_CTRL Fld.HG_SEL_CTRL_STAT_CHANNEL) true bytes
    if ok then s else s.countWrap (Reg.HG_CNT_MISC 0) Fld.HG_CNT_MISC_SUMMARY_LOST 1

def HgState.setStep (h : HgState) (p : HgStep) : HgState :=
  { h with steps := h.steps.map fun q => if q.number == p.number then p else q }

def State.setStep (s : State) (p : HgStep) : State := { s with hg := s.hg.setStep p }

/-- The last token is decided: load vector, step summary, and the step waits for its sort (R170, R171). -/
def State.endSelection (s : State) (p : HgStep) : State :=
  let s := s.writeLoadVector p
  let s := s.stepSummary p
  s.setStep { p with stage := .selected }

/-- Count a token's claims in its engine's instance (R173). -/
def State.countToken (s : State) (p q : HgStep) (e claims nan th ex : Nat) : State :=
  let s := s.countWrap (Reg.HG_CNT_TOKENS e) Fld.HG_CNT_TOKENS_TOKENS 1
  let s := s.countWrap (Reg.HG_CNT_CLAIMS e) Fld.HG_CNT_CLAIMS_CLAIMS claims
  let s := s.countWrap (Reg.HG_CNT_REFUSED e) Fld.HG_CNT_REFUSED_REFUSED (sumTbl q.refused - sumTbl p.refused)
  let s := s.countWrap (Reg.HG_CNT_DROPPED e) Fld.HG_CNT_DROPPED_DROPPED (q.dropped - p.dropped)
  let s := s.countWrap (Reg.HG_CNT_SPILLED e) Fld.HG_CNT_SPILLED_SPILLED (q.spilled - p.spilled)
  let s := s.countWrap (Reg.HG_CNT_NEXT e) Fld.HG_CNT_NEXT_NEXT_TAKEN (q.nextTaken - p.nextTaken)
  let s := s.countWrap (Reg.HG_CNT_TIES e) Fld.HG_CNT_TIES_TIES_TH64 th
  let s := s.countWrap (Reg.HG_CNT_TIES e) Fld.HG_CNT_TIES_TIES_EXPERT ex
  s.countWrap (Reg.HG_CNT_MISC e) Fld.HG_CNT_MISC_NAN_TOKENS nan

/-- The claims of one token's outcome: those of the walk, or those the rounds accepted, by rank, then its shared claims
(R157, R160, R161, R186). -/
def HgStep.decide (p : HgStep) (t : Nat) (cand : List Nat) : List Claim × HgStep :=
  let l := p.lay
  let (routed, p) := match p.prio with
    | some q => (q.accepted.filter fun (c : Claim) => c.pos == t, p)
    | none => HgStep.walkToken cand t l.k 0 l.k [] p
  let sorted := sortBy (fun (a b : Claim) => Nat.ble a.rank b.rank) routed
  (sorted ++ ((List.range l.shared).map fun i => (⟨t, i, i, 3⟩ : Claim)), p)

/-- The routing step whose selection is under way: the oldest. -/
def State.selecting (s : State) : Option HgStep :=
  if s.sw.stopped then none else s.hg.steps.find? fun p => p.stage = .selecting

/-- A routing step fails after it started (R142, R194). -/
def State.abandonStep (s : State) (p : HgStep) : State :=
  (s.failStep p.lay p.parity p.layer).setStep { p with stage := .failed }

/-- A ZONE_OVERFLOW record (R194, R558). -/
def State.zoneOverflow (s : State) (zone kind layer peer : Nat) : State :=
  let s := s.countSat Reg.HG_CNT_FAULTS Fld.HG_CNT_FAULTS_ZONE_OVERFLOWS 1
  s.fault (engineUnit s.firstEngine 2) Code.zoneOverflow none (zone + kind * 2 ^ 10 + layer * 2 ^ 14 + peer * 2 ^ 26)

/-- ROUTE_DECISION: the next token of the oldest routing step in selection is decided, in token-list order (R160, R165); a token
whose hidden row read bad makes no claim (R142). With the last one, selection ends. -/
def State.routeDecision (s : State) : State :=
  match s.selecting with
  | none => s
  | some p =>
    let t := p.decided
    let waits := match p.prio with | some q => !q.done | none => false
    if waits || p.tokens.length ≤ t then s
    else
      let (q, s, err) : HgStep × State × Option Nat :=
        if (p.token t).bad then ({ p with decided := t + 1 }, s.countToken p p (p.engineOf t) 0 0 0 0, none)
        else
          let (cand, th, ex) := p.candidates t
          let (claims, q) := p.decide t cand
          match s.routeAll cand claims q with
          | .error rk => (p, s, some rk)
          | .ok r =>
            let nan := b2n ((r.records.drop q.records.length).any fun c => isNan32 c.weight)
            let r : HgStep := { r with decided := t + 1, nanTokens := r.nanTokens + nan, tiesHash := r.tiesHash + th,
                                       tiesExpert := r.tiesExpert + ex }
            (r, s.countToken p r (p.engineOf t) p.lay.k nan th ex, none)
      match err with
      | some rk => (s.zoneOverflow 0 3 p.layer (rk * 256)).abandonStep p
      | none => if q.decided = q.tokens.length then s.endSelection q else s.setStep q

/-- Count what a round of score-priority ranking did to the claims of each engine's own share (R161, R173): `gained` are the claims it
accepted, `refused` those it refused, `lost` those dropped for good. -/
def State.countRound (s : State) (p : HgStep) (gained refused lost : List Claim) : State :=
  p.engines.foldl (fun s e =>
    let own (cs : List Claim) : Nat := (cs.filter fun c => p.engineOf c.pos == e).length
    let s := s.countWrap (Reg.HG_CNT_REFUSED e) Fld.HG_CNT_REFUSED_REFUSED (own refused)
    let s := s.countWrap (Reg.HG_CNT_DROPPED e) Fld.HG_CNT_DROPPED_DROPPED (own lost)
    let s := s.countWrap (Reg.HG_CNT_SPILLED e) Fld.HG_CNT_SPILLED_SPILLED (own (gained.filter fun c => c.kind == 2))
    s.countWrap (Reg.HG_CNT_NEXT e) Fld.HG_CNT_NEXT_NEXT_TAKEN (own (gained.filter fun c => c.kind == 1))) s

/-- RANK_ROUND: one round of score-priority ranking ends (R161, R167). -/
def State.rankRound (s : State) : State :=
  match s.selecting with
  | none => s
  | some p => match p.prio with
    | none => s
    | some q =>
      if q.done then s
      else
        let r := p.prioRound q
        let q' := r.prio.getD q
        let gained := q'.accepted.drop q.accepted.length
        let among (cs : List Claim) (c : Claim) : Bool := cs.any fun a => a.pos == c.pos && a.rank == c.rank
        let refused := q.pending.filter fun c => !among (gained.filter fun a => a.kind != 2) c
        let lost := if q'.done then q'.refused.filter fun c => !among (gained.filter fun a => a.kind == 2) c else []
        (s.countRound p gained refused lost).setStep r

/-- A routing step starts on the gate region of its parity, which is sealed (R59, R142). A step without tokens has its selection
done at once (R174). -/
def State.startGate (s : State) (p region layer at_ time : Nat) : State :=
  let n := s.hg.nextStep
  let s := s.startStep p region layer at_ time
  match s.hg.steps.find? fun q => q.number == n with
  | none => s
  | some q =>
    if q.tokens.isEmpty then s.endSelection q
    else if q.lay.compete then s.setStep { q with prio := some q.prioStart }
    else s

/-- Start the routing steps that can start: a step waits for the seal signal of the gate region of its parity, for the steps before
it, for what holds the Headgate (R375, R455), and after a failure for the LAND regions' reset (R70, R142). -/
def State.startGates : Nat → State → State
  | 0, s => s
  | fuel + 1, s =>
    let p := s.hg.nextStep % 2
    let region := s.gateRegion p
    match s.sealedLayer region, tblFind region s.col.seals with
    | some layer, some (at_, time) =>
      if s.hgHeld || s.hg.faulted
          || s.hg.steps.any (fun q => q.parity == p && (q.stage = .selecting || q.stage = .selected)) then s
      else
        let t : State := { s with col := { s.col with seals := tblErase region s.col.seals } }
        State.startGates fuel (t.startGate p region layer at_ time)
    | _, _ => s

/-- Start what can start of the gate regions whose signals have arrived; a region no longer sealed has no signal left. -/
def State.startHeld (s : State) : State :=
  if s.col.seals.isEmpty then s
  else
    let t : State := { s with col := { s.col with seals := s.col.seals.filter fun e => (s.sealedLayer e.1).isSome } }
    State.startGates 2 t

/-- SEAL_SIGNAL: the seal signal of a region reaches the engines that wait on it (R55); for a gate region the Headgate starts its
routing step (R59), at once or when what holds it ends. -/
def State.sealSignal (s : State) (region : Nat) : State :=
  match s.sealedLayer region with
  | none => s
  | some layer =>
    let t := s.emit (.sealSignal region layer)
    if region != t.gateRegion 0 && region != t.gateRegion 1 then t
    else
      let came := tblGetD region (t.clock.cycles, t.now) t.col.seals
      let u : State := { t with col := { t.col with seals := tblSet region came t.col.seals } }
      u.startHeld

end Sys2Proof.Machine
end

