-- ==== Sys2Proof/Machine/HgLanding.lean ====
section
/-! DEFINITION. Landing at the owner and at the origin: zones in the LAND regions, counted stores and seals, index areas and
runs (R62, R63, R70, R71, R189 to R194, R199, R557). -/

namespace Sys2Proof.Machine

/-- `n` rounded up to a multiple of 256. -/
def up256 (n : Nat) : Nat := (n + 255) / 256 * 256

/-- Bytes of a dispatched row: hidden row and predictor values (R190). -/
def Layer.rowBytes (l : Layer) : Nat := up256 (128 * l.hBlks * inBytes l.inFmt + 2 * l.predR)

/-- Are returns FP8 with a row scale (R203)? -/
def State.retFp8 (s : State) : Bool := s.fld Reg.HG_XCH_CFG Fld.HG_XCH_CFG_RET_FMT == 1

/-- Bytes of a return row (R190). -/
def State.retRowBytes (s : State) (l : Layer) : Nat := up256 (128 * l.hBlks * (if s.retFp8 then 1 else 2))

/-- Region offsets inside a dispatch zone of `cap` tokens that starts at granule `g` (R190). -/
def dzEntry (g i : Nat) : Nat := g * 4096 + 256 + 32 * i
def dzRow (g cap i rowBytes : Nat) : Nat := g * 4096 + 256 + up256 (32 * cap) + i * rowBytes

/-- Region offsets inside a return zone of `cap` tokens that starts at granule `g` (R190). -/
def rzScale (g i : Nat) : Nat := g * 4096 + 256 + 4 * i
def rzRow (g cap i retBytes : Nat) : Nat := g * 4096 + 256 + up256 (4 * cap) + i * retBytes

/-- Landing keys: zone, dispatch or return, parity. -/
def landKey (z : Nat) (ret : Bool) (par : Nat) : Nat := (2 * z + b2n ret) * 2 + par

/-- The descriptor that routing step `n` of a layer uses here: the step's own where it is under way, else the one in force (R135). -/
def State.layerFor (s : State) (n layer : Nat) : Layer :=
  match s.hg.steps.find? fun p => p.number == n && p.layer == layer with
  | some p => Layer.ofWords p.desc
  | none => Layer.ofWords (s.layerWordsIn layer)

def State.landing (s : State) (k : Nat) : Landing := tblGetD k ⟨0, none, false, false⟩ s.hg.landings
def State.setLanding (s : State) (k : Nat) (x : Landing) : State :=
  { s with hg := { s.hg with landings := tblPut k ⟨0, none, false, false⟩ x s.hg.landings } }

/-- The fields of a landed seal (R192). -/
def Landing.step (x : Landing) : Nat := nthD (x.sealWord.getD []) 0 0
def Landing.tokens (x : Landing) : Nat := nthD (x.sealWord.getD []) 1 0
def Landing.expected (x : Landing) : Nat := nthD (x.sealWord.getD []) 2 0
def Landing.layer (x : Landing) : Nat := nthD (x.sealWord.getD []) 3 0
def Landing.lines (x : Landing) : Nat := nthD (x.sealWord.getD []) 4 0

/-- The parity of a LAND region. -/
def State.landParity (s : State) (region : Nat) : Option Nat :=
  if region = s.landRegion 0 then some 0 else if region = s.landRegion 1 then some 1 else none

/-- Where the zones, lists and the work area begin: region offset, and zone and kind for zones (R189, R190). -/
def State.landMarks (s : State) : List (Nat × Option (Zone × Bool)) :=
  (s.fld Reg.HG_XCH_WORK Fld.HG_XCH_WORK_WORK_GRAN * 4096, none) ::
  (s.zones.map fun z => [(z.dz * 4096, some (z, false)), (z.rz * 4096, some (z, true)), (z.list * 4096, none)]).flatten

/-- The zone that holds a region offset: the mark with the greatest start at or below it (R189). -/
def State.zoneAt (s : State) (o : Nat) : Option (Zone × Bool) :=
  (s.landMarks.foldl (fun (best : Nat × Option (Zone × Bool)) m =>
    if m.1 ≤ o && decide (best.1 ≤ m.1) then m else best) (0, none)).2

-- Slots and the work area ------------------------------------------------------------------------------------------

/-- The valid slots of a layer, ascending (R198, R199). -/
def State.slotsOf (s : State) (layer : Nat) : List Nat :=
  ((s.regRange (Reg.HG_SLOT0 0) 0x10000).filter fun e =>
    e.1 % 16 == 0 && bitAt e.2 0 && bitsOf e.2 2 12 == layer).map fun e => e.1 / 16

def State.workStart (s : State) : Nat := s.fld Reg.HG_XCH_WORK Fld.HG_XCH_WORK_WORK_GRAN * 4096

/-- Region offset of the index area of zone `z`, and of the first run table (R199). -/
def State.indexStart (s : State) (z : Nat) : Nat :=
  s.workStart + sumNats ((s.zones.filter fun y => decide (y.z < z)).map fun y => up256 (2 * y.inTokens))
def State.runsStart (s : State) : Nat := s.workStart + sumNats (s.zones.map fun y => up256 (2 * y.inTokens))
def State.runTable (s : State) (k : Nat) : Nat := s.runsStart + k * up256 (8 * s.zones.length)

/-- Where the result areas begin, after the run tables of `slots` slots. -/
def State.resultsStart (s : State) (slots : Nat) : Nat := s.runTable slots

/-- The valid zones in ascending node order: run k belongs to the k-th (R199). -/
def State.zonesByNode (s : State) : List Zone := sortBy (fun a b => decide (a.node ≤ b.node)) s.zones

/-- A dispatch-zone token entry as read (R191): its words, or none when it reads bad. -/
def State.readEntry (s : State) (par : Nat) (z : Zone) (i : Nat) : Option Nat × State :=
  let (st, bs, s) := s.readLocal (.engine s.firstEngine 2) (regionAddr (s.landRegion par) (dzEntry z.dz i)) 32
  (if st = 0 then some (leNat bs) else none, s)

def entrySlot (e : Nat) : Nat := bitsOf e 0 12
def entryLayer (e : Nat) : Nat := bitsOf e 48 12

/-- All entries of a zone, in order. -/
def State.readEntries (s : State) (par : Nat) (z : Zone) (n : Nat) : List (Option Nat) × State :=
  (List.range n).foldl (fun (acc : List (Option Nat) × State) i =>
    let (e, s) := acc.2.readEntry par z i
    (acc.1 ++ [e], s)) ([], s)

/-- The entry numbers of a zone's entries that name a slot, in entry order. -/
def entriesOf (es : List (Option Nat)) (slot : Nat) : List Nat :=
  (List.range es.length).filter fun i => match nthD es i none with | some e => entrySlot e == slot | none => false

/-- Position of a zone among those in node order. -/
def State.runNumber (s : State) (z : Nat) : Nat := (s.zonesByNode.takeWhile fun y => y.z != z).length

/-- Write one slot's share of a zone's index area and its run (R199); answers the next free index entry. -/
def State.writeRun (s : State) (par : Nat) (z : Zone) (es : List (Option Nat)) (rowsLine k slot start : Nat) : Nat × State :=
  let who : Requester := .engine s.firstEngine 2
  let mine := entriesOf es slot
  let area := s.indexStart z.z
  let first := (area - s.workStart) / 2 + start
  let s := (s.writeLocal who (regionAddr (s.landRegion par) (area + 2 * start)) (mine.map (leBytes 2)).flatten false).2
  let run := mine.length + first % 2 ^ 24 * 2 ^ 16 + rowsLine % 2 ^ 24 * 2 ^ 40
  let s := (s.writeLocal who (regionAddr (s.landRegion par) (s.runTable k + 8 * s.runNumber z.z)) (leBytes 8 run) false).2
  (start + mine.length, s)

/-- A zone is complete: its index area and runs are written (R199), unless the work area leaves the LAND region (R194 kind 4); a step that
has failed here for that already is not recorded again. -/
def State.buildRuns (s : State) (par : Nat) (z : Zone) (x : Landing) : State :=
  let l := s.layerFor x.step x.layer
  let slots := s.slotsOf x.layer
  if (s.region (s.landRegion par)).size * 4096 < s.runTable slots.length then
    match s.hg.steps.find? fun p => p.number == x.step with
    | some p => if p.stage = .failed then s else (s.zoneOverflow z.z 4 x.layer z.node).abandonStep p
    | none => s.zoneOverflow z.z 4 x.layer z.node
  else
    let (es, s) := s.readEntries par z x.tokens
    let rowsLine := dzRow z.dz z.inTokens 0 l.rowBytes / 256
    ((List.range slots.length).foldl (fun (acc : Nat × State) k =>
      acc.2.writeRun par z es rowsLine k (nthD slots k 0) acc.1) (0, s)).2

/-- Are all valid zones of one kind complete in a parity? -/
def State.allComplete (s : State) (ret : Bool) (par : Nat) : Bool :=
  s.zones.all fun z => (s.landing (landKey z.z ret par)).complete

/-- A zone completes when its seal has landed and the stores match (R63). -/
def State.zoneCheck (s : State) (z : Zone) (ret : Bool) (par : Nat) : State :=
  let k := landKey z.z ret par
  let x := s.landing k
  if x.sealWord.isSome && !x.complete && !x.dead && decide (x.expected ≤ x.stores) then
    let s := s.setLanding k { x with complete := true }
    if ret then s
    else
      let s := s.countWrap Reg.HG_CNT_LANDED Fld.HG_CNT_LANDED_LANDED x.tokens
      let s := s.buildRuns par z x
      if s.allComplete false par then { s with hg := { s.hg with swapDue := s.hg.swapDue ++ [par] } } else s
  else s

/-- The layer that the bytes of a DISPATCH_SEAL or RETURN_SEAL name (R192). -/
def sealLayer (data : List Byte) : Nat := leNat (sliceOf data 18 2) % 4096

/-- A DISPATCH_SEAL or RETURN_SEAL lands (R63, R192, R194 kind 1). Stores that have already landed beyond the count it brings give one
SEAL_LATE record of kind 2 without an address, by the die that takes the seal (DESIGN CHOICE, log entry 14). -/
def State.landSeal (s : State) (z : Zone) (ret : Bool) (par die region : Nat) (data : List Byte) : State :=
  let k := landKey z.z ret par
  let x := s.landing k
  let at_ (i n : Nat) : Nat := leNat (sliceOf data i n)
  let layer := sealLayer data
  let words := [at_ 0 8, at_ 8 4, at_ 12 4, layer, at_ 20 2]
  let bad := !ret && (decide (z.inTokens < at_ 8 4) || (s.layerFor (at_ 0 8) layer).rowBytes / 256 != at_ 20 2)
  let s := s.setLanding k { x with sealWord := some words, dead := bad }
  let s := if bad then s.zoneOverflow z.z 1 layer z.node else s
  let s := if at_ 12 4 < x.stores then s.sealLate die region layer 2 z.node 0x3F 0 none else s
  s.zoneCheck z ret par

/-- Why a store or atomic into a landing zone of this device is not performed, with its status (R63, R70, R71, R557); `carries` is the layer
that a DISPATCH_SEAL or RETURN_SEAL carries. A zone that is complete refuses with kind 2 until every zone of its parity is complete and
with kind 3 after; a second seal of a zone that is not complete is of kind 1, with no seal source (DESIGN CHOICE, log entry 14). -/
def State.landRefusal (s : State) (node die x region o : Nat) (carries : Option Nat) : Option (Nat × State) :=
  match s.landParity region, s.zoneAt o with
  | some par, some (z, ret) =>
    let l := s.landing (landKey z.z ret par)
    let late (kind layer : Nat) : Option (Nat × State) :=
      some (Code.sealLate, s.sealLate die region layer kind node 0x3F 0 (some (rsvBase + die * 2 ^ 32 + x)))
    if s.hg.missed.contains par then
      some (Code.deadlineMissed, s.countSat Reg.HG_CNT_FAULTS Fld.HG_CNT_FAULTS_LATE_DISCARDS 1)
    else if l.complete then late (if s.allComplete ret par then 3 else 2) l.layer
    else if l.sealWord.isSome then
      match carries with
      | some layer => late 1 layer
      | none => if l.expected ≤ l.stores then late 2 l.layer else none
    else none
  | _, _ => none

/-- Count a store or atomic that has landed in a zone (R63). -/
def State.landCount (s : State) (region o : Nat) : State :=
  match s.landParity region, s.zoneAt o with
  | some par, some (z, ret) =>
    let k := landKey z.z ret par
    (s.setLanding k { s.landing k with stores := (s.landing k).stores + 1 }).zoneCheck z ret par
  | _, _ => s

/-- A store to a region of this device from node `node` through the die view (R63, R71, R557): its status, and the state. -/
def State.landStore (s : State) (who : Requester) (node die x region o be : Nat) (data : List Byte) (poison isSeal : Bool) :
    Nat × State :=
  match s.landRefusal node die x region o (if isSeal then some (sealLayer data) else none) with
  | some r => r
  | none =>
    let (st, s) := s.rsvStore s.clock.cycles who node false (rsvBase + die * 2 ^ 32 + x) die x (some (region, o)) be data poison
    if st != 0 then (st, s)
    else if isSeal then
      match s.landParity region, s.zoneAt o with
      | some par, some (z, ret) => (0, s.landSeal z ret par die region data)
      | _, _ => (0, s)
    else (0, s.landCount region o)

end Sys2Proof.Machine
end

