-- ==== Sys2Proof/Machine/FabricBase.lean ====
section
/-! DEFINITION. Fabric operations at their source and at their target: address reduction, window checks, the outstanding table,
injection, local service, atomics and outcomes (R41 to R43, R335 to R351, R354 to R361). -/

namespace Sys2Proof.Machine

-- Addresses --------------------------------------------------------------------------------------------------------

/-- A fabric address reduced to its target (R337): node, target offset, and the offset and form of the window check. -/
structure Target where
  node : Nat
  off  : Nat
  woff : Nat
  rack : Bool
  deriving DecidableEq, Repr

/-- Is a target offset inside the table of R42? -/
def offsetOk (off : Nat) : Bool :=
  decide (off < hbmSize) || (decide (0xC0_0000_0000 ≤ off) && decide (off < 0xC4_0000_0000) && bitsOf off 28 4 == 0)

/-- The local address a target offset selects (R42). -/
def offsetLocal (off : Nat) : Nat := if off < hbmSize then off else rsvBase + (off - 0xC0_0000_0000)

/-- The target offset of a die-view Reservoir place, and a node-mode address (R42). -/
def dieOffset (die x : Nat) : Nat := 0xC0_0000_0000 + die * 2 ^ 32 + x
def nodeAddr (node off : Nat) : Nat := 2 ^ 63 + node * 2 ^ 40 + off

/-- Reduce a fabric address (R41, R42, R337); none when it is unmapped or no fabric address. -/
def State.target (s : State) (a len : Nat) : Option Target :=
  match s.decode a with
  | .node n off => if offsetOk off then some ⟨n, off, off, false⟩ else none
  | .rack o =>
    let g := s.fld Reg.JT_RACKWIN Fld.JT_RACKWIN_G
    let m := s.fld Reg.JT_RACKWIN Fld.JT_RACKWIN_M_M1 + 1
    let k := o / 2 ^ g
    let inside := k / m * 2 ^ g + o % 2 ^ g
    if inside + len ≤ s.reg Reg.JT_EXPORT_SIZE && decide (s.reg Reg.JT_EXPORT + inside + len ≤ hbmSize) then
      some ⟨s.reg (Reg.JT_MEMBER (k % m)), s.reg Reg.JT_EXPORT + inside, o, true⟩
    else none
  | _ => none

-- Requests ---------------------------------------------------------------------------------------------------------

/-- A fabric operation as an engine issues it (R335, R340). -/
structure OpReq where
  who    : Requester
  op     : Nat
  mgmt   : Bool
  addr   : Nat
  len    : Nat
  be     : Nat
  aop    : Nat
  signed : Bool
  seal_  : Bool
  poison : Bool
  data   : List Byte
  sink   : Sink
  deriving DecidableEq, Repr

def OpReq.kind (q : OpReq) : AccessKind :=
  if q.op = Op.load then .read else if q.op = Op.store then .write else .atomic

/-- Is the operation aligned, whole and inside one 256-byte line (R335, R336)? -/
def OpReq.aligned (q : OpReq) : Bool :=
  if q.op = Op.atomic then (q.len == 4 || q.len == 8) && q.addr % q.len == 0
  else q.addr % 8 == 0 && q.len % 8 == 0 && decide (0 < q.len) && decide (q.addr % 256 + q.len ≤ 256)

/-- LEN_W of an operation: its payload words, or those of its answer, less one (R338, R340). -/
def OpReq.lenW (q : OpReq) : Nat := if q.op = Op.atomic then (if q.aop = 7 then 1 else 0) else ceilDiv q.len 8 - 1

/-- Does entry `w` of the job's window table pass the operation (R343)? -/
def State.windowPasses (s : State) (q : OpReq) (t : Target) (w : Nat) : Bool :=
  let a := Reg.JT_WIN2 w
  let right := if q.op = Op.load then s.flag a Fld.JT_WIN2_R else if q.op = Op.store then s.flag a Fld.JT_WIN2_W
               else s.flag a Fld.JT_WIN2_A
  s.flag a Fld.JT_WIN2_VALID && s.fld a Fld.JT_WIN2_FORM == b2n t.rack &&
  decide (s.fld (Reg.JT_WIN0 w) Fld.JT_WIN0_BASE ≤ t.woff) &&
  decide (t.woff + q.len - 1 ≤ s.fld (Reg.JT_WIN1 w) Fld.JT_WIN1_LIMIT) &&
  decide (s.fld a Fld.JT_WIN2_NODE_LO ≤ t.node) && decide (t.node ≤ s.fld a Fld.JT_WIN2_NODE_HI) && right

/-- The window check of an operation (R343, R344). -/
def State.windowOk (s : State) (q : OpReq) (t : Target) : Bool :=
  if q.mgmt then
    let right := if q.op = Op.load then 0 else if q.op = Op.store then 1 else 2
    decide (s.fld Reg.JT_MGMT_WIN Fld.JT_MGMT_WIN_NODE_LO ≤ t.node) &&
    decide (t.node ≤ s.fld Reg.JT_MGMT_WIN Fld.JT_MGMT_WIN_NODE_HI) &&
    bitAt (s.fld Reg.JT_MGMT_WIN Fld.JT_MGMT_WIN_RIGHTS) right
  else (List.range 256).any fun w => s.windowPasses q t w

/-- A WINDOW_VIOLATION record (R343, R344): a MGMT operation's carries no job. -/
def State.windowViolation (s : State) (q : OpReq) (t : Target) : State :=
  let s := s.countWrap Reg.JT_CNT_MISC Fld.JT_CNT_MISC_WINDOW 1
  let d := t.node + q.kind.code * 2 ^ 16 + q.lenW * 2 ^ 24
  s.faultFor (if q.mgmt then none else s.job) (s.unitOf q.who) Code.windowViolation (some q.addr) d

-- Routing ----------------------------------------------------------------------------------------------------------

/-- What the in-force tables say of a destination (R315). -/
inductive Route where
  | masks (pref alt : Nat)
  | egress (pref : Nat)
  | invalid (cause : Nat)
  deriving DecidableEq, Repr

def State.posRoute (s : State) (p : Nat) : Route :=
  let a := Reg.FWD_POS_IF p
  if s.flag a Fld.FWD_POS_VALID then .masks (s.fld a Fld.FWD_POS_PREF_MASK) (s.fld a Fld.FWD_POS_ALT_MASK) else .invalid 1

/-- Resolve a destination node (R315, R322). -/
def State.route (s : State) (dest : Nat) : Route :=
  if dest / 256 = s.node / 256 then s.posRoute (dest % 256)
  else
    let a := Reg.FWD_RACK_IF (dest / 256)
    match s.fld a Fld.FWD_RACK_MODE with
    | 0 => .invalid 2
    | 1 => s.posRoute (s.fld a Fld.FWD_RACK_GW_POS)
    | 2 => .masks (s.fld a Fld.FWD_RACK_PREF_MASK) (s.fld a Fld.FWD_RACK_ALT_MASK)
    | _ => if s.flag (Reg.FWD_PREFIX1 (dest / 256)) Fld.FWD_PREFIX1_VALID then .egress (s.fld a Fld.FWD_RACK_PREF_MASK)
           else .invalid 2

/-- The lowest set bit of a mask among the 16 ports. -/
def lowestPort (mask : Nat) : Option Nat := (List.range 16).find? fun p => bitAt mask p

/-- The resolved PREF_MASK of a node (R315): an egress rack's names its switched ports whether or not its prefix is valid (R318). -/
def State.prefMask (s : State) (node : Nat) : Nat :=
  match s.route node with
  | .masks p _ => p
  | .egress p => p
  | .invalid _ =>
    let a := Reg.FWD_RACK_IF (node / 256)
    if node / 256 != s.node / 256 && s.fld a Fld.FWD_RACK_MODE == 3 then s.fld a Fld.FWD_RACK_PREF_MASK else 0

/-- The port die whose agent sources operations to a node (R348). -/
def State.sourceDie (s : State) (node : Nat) : Nat := (lowestPort (s.prefMask node)).getD 0 / 4

-- The atomic unit --------------------------------------------------------------------------------------------------

/-- The new value of an atomic (R354): width in bits, signedness, old value, operand and swap value. -/
def atomicValue (aop w : Nat) (signed : Bool) (old opnd swap : Nat) : Nat :=
  let less (a b : Nat) : Bool := if signed then decide (signedOf w a < signedOf w b) else decide (a < b)
  match aop with
  | 0 => (old + opnd) % 2 ^ w
  | 1 => if less opnd old then opnd else old
  | 2 => if less old opnd then opnd else old
  | 3 => old &&& opnd
  | 4 => old ||| opnd
  | 5 => old ^^^ opnd
  | 6 => opnd
  | 7 => if old = opnd then swap else old
  | 8 => add32 old opnd
  | _ => let h (i : Nat) : Nat := fencode bf16 false ((fdecode bf16 (bitsOf old i 16)).add (fdecode bf16 (bitsOf opnd i 16)))
         h 0 + h 16 * 2 ^ 16

/-- Does R354 permit the operation at this width? -/
def aopOk (aop len : Nat) : Bool := decide (aop < 8) || (decide (aop < 10) && len == 4)

/-- The error value (R350). -/
def errorValue : Nat := 2 ^ 64 - 1

/-- Perform an atomic on a word of HBM or the Reservoir (R355), which no requester may do in a SLUICE region (R108): status, old
value and state. One that arrives in die view through the fabric (`land`) comes under the landing rules of its zone (R107, R349). -/
def State.atomicAt (s : State) (who : Requester) (node : Nat) (land : Bool) (a len aop : Nat) (signed : Bool) (opnd swap : Nat) :
    Nat × Nat × State :=
  if !aopOk aop len then (Code.addressUnmapped, errorValue, s) else
  let w := 8 * len
  let run (c : Nat) (put : State → Nat → Nat × State) (s : State) : Nat × Nat × State :=
    let (st, bs, s) := s.readStore c len 3
    if st != 0 then (st, errorValue, s)
    else
      let old := leNat bs
      let new := atomicValue aop w signed old (opnd % 2 ^ w) (swap % 2 ^ w)
      if aop = 7 && old != opnd % 2 ^ w then (0, old, s)
      else
        let (st, s) := put s new
        (st, if st = 0 then old else errorValue, s)
  match s.decode a with
  | .hbm c => run c (fun s v => (0, s.writeStore c (leBytes len v) false)) ((s.chargeHbm who len).chargeHbm who len)
  | .rsv d x reg =>
    let c := rsvBase + d * 2 ^ 32 + x
    let apply (s : State) : Nat × Nat × State :=
      run c (fun s v => s.rsvWrite who node false a d x reg (2 ^ len - 1) (leBytes len v) false) (s.takeBank d x s.clock.cycles 8)
    match reg with
    | none => apply s
    | some (n, o) =>
      if (s.region n).type = 3 then (Code.addressUnmapped, errorValue, s.unmapped who a .atomic)
      else match s.sealedLayer n with
      | some layer => (Code.sealLate, errorValue, s.sealLate d n layer 0 node 0x3F 0 (some c))
      | none =>
        if !land then apply s
        else match s.landRefusal node d x n o none with
          | some (st, s) => (st, errorValue, s)
          | none =>
            let (st, v, s) := apply s
            (st, v, if st = 0 then s.landCount n o else s)
  | _ => (Code.addressUnmapped, errorValue, s.unmapped who a .atomic)

-- Service at the target --------------------------------------------------------------------------------------------

/-- Read for a LOAD (R349): status and data, the error value when it fails. -/
def State.serveLoad (s : State) (off len : Nat) : Nat × List Byte × State :=
  match (s.decode (offsetLocal off)).canon with
  | some c =>
    let (st, bs, s) := (if isHbm c then s.chargeHbm (.port 0) len else s).fetch c len 0 s.clock.cycles
    (st, if st = 0 then bs else List.replicate len (255 : Byte), s)
  | none => (Code.addressUnmapped, List.replicate len (255 : Byte), s)

/-- Apply a STORE (R349, R107): status. -/
def State.serveStore (s : State) (who : Requester) (node off be : Nat) (data : List Byte) (poison isSeal : Bool) :
    Nat × State :=
  match s.decode (offsetLocal off) with
  | .hbm c => (0, (s.chargeHbm who data.length).writeStoreBe (data.length / 8 + 2) c be data poison)
  | .rsv d x (some (n, o)) => s.landStore who node d x n o be data poison isSeal
  | .rsv d x none => s.rsvStore s.clock.cycles who node false (rsvBase + d * 2 ^ 32 + x) d x none be data poison
  | _ => (Code.addressUnmapped, s)

-- Outcomes ---------------------------------------------------------------------------------------------------------

/-- A core's FENCE retires once its operations have closed: a failed store since the last one gives a store/AMO access fault
(R350, R353). -/
def State.fenceCheck (s : State) (who : Requester) : State :=
  match coreKey who with
  | none => s
  | some i =>
    let c := s.core i
    if c.fencing && !s.opsOpen who then
      match c.storeFail with
      | some a => (s.setCore i { c with storeFail := none }).trapCore i 7 a
      | none => s.setCore i { c.advance 4 with fencing := false }
    else s

/-- The pieces of a transfer between aligned 256-byte boundaries of its address (R336); `fuel` bounds them. -/
def pieces256 : Nat → Nat → List Byte → List (Nat × List Byte)
  | 0, _, _ => []
  | fuel + 1, a, bs =>
    if bs.isEmpty then []
    else
      let n := 256 - a % 256
      (a, bs.take n) :: pieces256 fuel (a + n) (bs.drop n)

/-- Data of a DMA descriptor has arrived: it is written to a local destination, or waits, cut at the 256-byte boundaries of a fabric
destination, for the rest of its operation (R336); a CRC descriptor keeps it (R221). -/
def State.dmaData (s : State) (n e dst off : Nat) (data : List Byte) (poison : Bool) : State :=
  let c := s.cluster n
  match tblFind e c.dmaRun with
  | none => s
  | some r =>
    let crc := bitAt (nthD r.words 2 0) 50
    let fabric := decide (2 ^ 63 ≤ dst) || decide (rackBase ≤ dst)
    let parts := (pieces256 (data.length / 256 + 2) dst data).map fun p => (p.1, (poison, p.2))
    let r : DmaRun := { r with pieces := if crc then r.pieces ++ [(off, data)] else r.pieces,
                               unsent := if fabric then r.unsent ++ parts else r.unsent }
    let s := s.setCluster n { c with dmaRun := tblSet e r c.dmaRun }
    if fabric then s else (s.writeData (.dma n e) dst data poison).2

/-- A piece of SRC has been read for the collective program (R374); one that failed reads as poisoned. -/
def State.colGot (s : State) (off : Nat) (bad : Bool) (data : List Byte) : State :=
  { s with col := { s.col with run := { s.col.run with src := s.col.run.src ++ [(off, (bad, data))] } } }

/-- A store of a chunk has closed with TARGET_LOST (R389). -/
def State.colLost (s : State) (peer t : Nat) : State :=
  let f (x : ColSend) : ColSend := if x.peer = peer ∧ x.t = t then { x with lost := true } else x
  { s with col := { s.col with run := { s.col.run with sends := s.col.run.sends.map f } } }

/-- The closing store to a slot has closed: the record stands there, or is to be sent again (R392). -/
def State.colClosed (s : State) (slot : Nat) (ok : Bool) : State :=
  let r := s.col.run
  { s with col := { s.col with run := { r with out := r.out.filter (· != slot), closed := if ok then r.closed ++ [slot] else r.closed } } }

/-- The requester sees an operation's outcome (R350). -/
def State.deliver (s : State) (o : OpenOp) (status : Nat) (data : List Byte) : State :=
  let ok := status == 0
  let s := match o.who with
    | .dma n e => match o.sink with
      | .dma dst off =>
        if ok then s.dmaData n e dst off data false
        else
          let s := s.dmaData n e dst off (List.replicate o.len 255) false
          let b := match tblFind e (s.cluster n).dmaRun with
            | some r => bitsOf (nthD r.words 2 0) 40 8
            | none => 255
          if b = 255 then s else s.setBufPoison n b true
      | .colSrc off => s.colGot off (!ok) (if ok then data else List.replicate o.len 255)
      | .colChunk peer t => if status = Code.targetLost then s.colLost peer t else s
      | .colClosing slot => s.colClosed slot ok
      | _ => s
    | .control => match o.sink with
      | .mgmt => { s with mg := { s.mg with got := some (if ok then data else List.replicate o.len 255) } }
      | _ => s
    | .port _ => if ok then s else s.countSat Reg.FWD_DRIFT Fld.FWD_DRIFT_DRIFT_LOST 1
    | _ => match coreKey o.who with
      | none => s
      | some i => match o.sink with
        | .reg rd n =>
          if ok then
            let v := leNat (data.take 8)
            let v := if o.op = Op.atomic && !o.width8 then unsignedOf 64 (signedOf 32 v) else v
            s.onCore i fun c => (c.writeX rd v).advance n
          else (s.onCore i fun c => c.writeX rd errorValue).trapCore i (if o.op = Op.load then 5 else 7) o.addr
        | .atomPort =>
          let v := if ok then leNat (data.take 8) else errorValue
          let s := (s.setReg (Reg.CL_ATOM_RESULT (i / 4) (i % 4)) v).setReg (Reg.CL_ATOM_STATUS (i / 4) (i % 4)) status
          if (s.core i).atomWait.isEmpty then
            s.loadsReturn (i / 4) fun off =>
              if off = Reg.CL_ATOM_RESULT (i / 4) (i % 4) then some v
              else if off = Reg.CL_ATOM_STATUS (i / 4) (i % 4) then some status else none
          else s
        | _ => if ok || o.op != Op.store then s else s.onCore i fun c => { c with storeFail := some (c.storeFail.getD o.addr) }
  s.fenceCheck o.who

/-- Close an entry with an outcome. -/
def State.closeOp (s : State) (tag status : Nat) (data : List Byte) : State :=
  match tblFind tag s.fab.opens with
  | none => s
  | some o =>
    let t : State := { s with fab := { s.fab with opens := tblErase tag s.fab.opens } }
    t.deliver o status data

/-- The key of a record limited to one per counter window: code and two numbers (R92, R322, R351). -/
def limitKey (code a b : Nat) : Nat := (code * 65536 + a) * 65536 + b

/-- A record of R351, at most one per code, issuing unit and target node in a counter window. -/
def State.opRecord (s : State) (who : Requester) (code node detail : Nat) : State :=
  s.faultOncePerWindow (limitKey code (s.unitOf who) node) (s.unitOf who) code none detail

/-- DETAIL of TARGET_LOST and LATE_APPLIED (R358, R361). -/
def lostDetail (node tag op : Nat) : Nat := node + tag * 2 ^ 16 + op * 2 ^ 32

/-- The record of a target status other than OK and TARGET_LOST (R351). -/
def State.refusedRecord (s : State) (who : Requester) (node tag status : Nat) : State :=
  if status = 0 || status = Code.targetLost then s
  else s.opRecord who Code.remoteRefused node (node + status * 2 ^ 16 + tag * 2 ^ 24)

-- Issue ------------------------------------------------------------------------------------------------------------

/-- Append to a queue of cells. -/
def pushCell (k : Nat) (c : Cell) (t : List (Nat × List Cell)) : List (Nat × List Cell) := tblSet k (tblGetD k [] t ++ [c]) t

/-- Put a cell into a die's injection queue (R318, R324). -/
def State.injectCell (s : State) (die : Nat) (c : Cell) : State :=
  { s with fab := { s.fab with inject := pushCell (4 * die + c.cls) c s.fab.inject } }

/-- The class of an operation (R335). -/
def opClass (op : Nat) (mgmt : Bool) : Nat := if mgmt then Cls.mgmt else if op = Op.store then Cls.bulk else Cls.req

/-- INJ_TIME of an operation accepted now (R310, R341). -/
def State.injTime (s : State) : Nat := if s.timeValid then s.now % 2 ^ 48 else 0

/-- LIFE of an operation accepted now (R359, R360). -/
def State.life (s : State) : Nat :=
  if s.timeValid then s.fld Reg.JT_CTRL Fld.JT_CTRL_T_DEAD - s.fld Reg.JT_CTRL Fld.JT_CTRL_RET_GUARD else 0

/-- The cell of an operation (R310, R338), before it has a tag. -/
def State.opCell (s : State) (q : OpReq) (t : Target) : Cell :=
  { dest := t.node, src := s.node, ptag := s.fld Reg.FWD_IDENT Fld.FWD_IDENT_PTAG, cls := opClass q.op q.mgmt, hops := 0,
    injTime := 0, injSeq := 0, op := q.op,
    lenW := q.lenW, aop := q.aop,
    aw := q.op == Op.atomic && q.len == 8, signed := q.signed, seal_ := q.seal_, poison := q.poison, status := 0,
    be := if q.op = Op.store && q.len == 8 then q.be % 256 else 255, life := 0, tag := 0, offset := t.off,
    job := if q.mgmt then 0 else s.jobNum, payload := q.data }

/-- The lowest free entry of a die's outstanding table (R348). -/
def State.freeEntry (s : State) (die : Nat) : Option Nat :=
  let used := (s.fab.opens.filter fun e => e.1 / 16384 == die).map fun e => e.1 % 16384
  if used.length < 16384 then (List.range (used.length + 1)).find? fun i => !used.contains i else none

/-- The agent accepts an operation (R341, R348): it takes an entry and an issue time; a cell to another node is injected, one to
the own node is served through the local map and closes (R345). From the drain point of a switch on, an operation of the outgoing job
closes at once with TARGET_LOST (R457). Payload bytes are charged to the running job (R450). -/
def State.acceptOp (s : State) (die : Nat) (c : Cell) (o : OpenOp) : State :=
  match s.freeEntry die with
  | none => { s with fab := { s.fab with waiting := s.fab.waiting ++ [⟨c, o, die⟩] } }
  | some i =>
    let tag := die * 16384 + i
    let o : OpenOp := { o with t0 := if s.timeValid || !o.mgmt then s.clock.elapsedNs else s.clock.cycles, timed := s.timeValid || !o.mgmt }
    let s := s.countWrap Reg.JT_CNT_ISSUED Fld.JT_CNT_ISSUED_ISSUED 1
    let s := match s.job with
      | some j => if o.mgmt then s else s.countWrap (Reg.WM_ACCT2 j) Fld.WM_ACCT2_FABRIC_BYTES o.len
      | none => s
    let s : State := { s with fab := { s.fab with opens := tblSet tag o s.fab.opens } }
    if s.fab.stopJob.isSome && !o.mgmt then
      let s := s.countWrap Reg.JT_CNT_LOST Fld.JT_CNT_LOST_LOST 1
      let s := s.opRecord o.who Code.targetLost o.node (lostDetail o.node tag o.op)
      s.closeOp tag Code.targetLost (List.replicate o.len 255)
    else if o.node = s.node then
      let who := o.who
      if o.op = Op.load then
        let (st, bs, s) := s.serveLoad c.offset o.len
        (s.refusedRecord who s.node tag st).closeOp tag st bs
      else if o.op = Op.store then
        let be := if o.len = 8 then c.be else 2 ^ o.len - 1
        let (st, s) := s.serveStore who s.node c.offset be (c.payload.take o.len) c.poison c.seal_
        (s.refusedRecord who s.node tag st).closeOp tag st []
      else
        let (st, v, s) := s.atomicAt who s.node true (offsetLocal c.offset) o.len c.aop c.signed (leNat (c.payload.take 8))
          (leNat (sliceOf c.payload 8 8))
        (s.refusedRecord who s.node tag st).closeOp tag st (leBytes 8 v)
    else
      let c : Cell := { c with tag := tag, injTime := s.injTime, injSeq := s.fab.injSeq, life := s.life }
      let s : State := { s with fab := { s.fab with injSeq := (s.fab.injSeq + 1) % 2 ^ 16 } }
      s.injectCell die c

/-- Issue a fabric operation (R335 to R345): refused at the source, or accepted. A refused one gives its requester the failed
outcome (R350). -/
def State.issueOp (s : State) (q : OpReq) : State :=
  let open_ (node : Nat) : OpenOp := ⟨q.who, q.op, q.mgmt, q.addr, node, q.len, q.sink, q.len == 8, 0, false⟩
  match s.target q.addr q.len with
  | none => (s.unmapped q.who q.addr q.kind).deliver (open_ 0) Code.addressUnmapped []
  | some t =>
    if !q.aligned then (s.unmapped q.who q.addr q.kind).deliver (open_ t.node) Code.addressUnmapped []
    else if !s.windowOk q t then (s.windowViolation q t).deliver (open_ t.node) Code.windowViolation []
    else s.acceptOp (s.sourceDie t.node) (s.opCell q t) (open_ t.node)

/-- Operations that wait for an entry are accepted as entries come free, oldest first (R348). -/
def State.acceptWaiting (s : State) : State :=
  let ws := s.fab.waiting
  let s : State := { s with fab := { s.fab with waiting := [] } }
  ws.foldl (fun s w => s.acceptOp w.die w.cell w.op) s

end Sys2Proof.Machine
end

