-- ==== Sys2Proof/Machine/Companion.lean ====
section
/-! DEFINITION. Travo Link and the coherence agent: flits, snoops, line answers, engine reads and performed writes of companion memory
(R403 to R408). -/

namespace Sys2Proof.Machine

def travoUnit : Nat := 0x5000

/-- The lines that a range of companion memory touches. -/
def linesOf (a n : Nat) : List Nat := if n = 0 then [] else rangeFrom (a / 128) ((a + n - 1) / 128 - a / 128 + 1)

def State.lineHeld (s : State) (line : Nat) : Bool := (tblFind line s.tl.lines).isSome

/-- A requester's read of companion memory is answered with a status and its data (R350, R406, R407). -/
def State.companionAnswer (s : State) (r : CompanionRead) (st : Nat) : State :=
  let data := if st = 0 then memBytes s.tl.cmem r.addr r.len else List.replicate r.len (0 : Byte)
  match r.who, r.sink with
  | .dma n e, .dma dst off => s.dmaData n e dst off data (st != 0)
  | _, _ => s.deliver ⟨r.who, Op.load, false, companionBase + r.addr, s.node, r.len, r.sink, r.len == 8, 0, false⟩ st data

/-- Reads whose lines are all held are answered (R405). -/
def State.serveReads (s : State) : State :=
  let ready (r : CompanionRead) : Bool := (linesOf r.addr r.len).all s.lineHeld
  let t : State := { s with tl := { s.tl with reads := s.tl.reads.filter fun r => !ready r } }
  (s.tl.reads.filter ready).foldl (fun s r => s.companionAnswer r 0) t

/-- An engine reads companion memory: a line not held is asked for (R405); while the link is down the read completes as an
UNCORRECTABLE bus error (R406). -/
def State.companionLoad (s : State) (who : Requester) (a len : Nat) (sink : Sink) : State :=
  let r : CompanionRead := ⟨who, a, len, sink⟩
  if !s.travoUp then s.companionAnswer r Code.uncorrectable
  else
    let t : State := { s with tl := { s.tl with reads := s.tl.reads ++ [r] } }
    (((linesOf a len).filter fun l => !s.lineHeld l).foldl (fun s l => s.requestLine l false false) t).serveReads

/-- Fences of cores that waited for a companion write are looked at again (R353, R408). -/
def State.recheckFences (s : State) : State :=
  s.cores.foldl (fun s e => if e.2.fencing then
    s.fenceCheck (if e.1 < 128 then .core (e.1 / 4) (e.1 % 4) else .wm (e.1 - 128)) else s) s

/-- The lines the coherence agent can hold (R403). -/
def lineCapacity : Nat := 65536

/-- Make room for a line: the line that leaves is written back when dirty, else dropped (R403, R405). -/
def State.evictLine (s : State) : State :=
  if s.tl.lines.length < lineCapacity then s
  else match s.tl.lines with
    | [] => s
    | (l, h) :: rest =>
      let data := if h.dirty then memBytes s.tl.cmem (l * 128) 128 else []
      let t : State := { s with tl := { s.tl with lines := rest, nextTxn := (s.tl.nextTxn + 1) % 4096 } }
      t.sendFlit ⟨if h.dirty then 0x04 else 0x05, false, s.tl.nextTxn, 0, 0, l * 128, 0, data⟩

/-- Take a line answer: the request it carries the tag of leaves, and the line is held. -/
def State.holdLine (s : State) (q : LineRequest) (owned : Bool) : State :=
  let s : State := { s with tl := { s.tl with lineReqs := s.tl.lineReqs.filter fun x => x != q } }
  let s := if s.lineHeld q.line then s else s.evictLine
  let dirty := match tblFind q.line s.tl.lines with | some h => h.dirty | none => false
  { s with tl := { s.tl with lines := tblSet q.line ⟨owned, dirty⟩ s.tl.lines } }

/-- LINE: line data answers a request of the device (R405, R407): engine reads complete, POISONED when the line is poisoned, and
pending writes are performed once the line is held owned (R408). -/
def State.lineData (s : State) (txn : Nat) (poison : Bool) (data : List Byte) : State :=
  if !s.travoUp then s
  else match s.tl.lineReqs.find? fun q => q.txn == txn % 4096 with
    | none => s
    | some q =>
      let s := s.holdLine q q.own
      let s : State := { s with tl := { s.tl with cmem := memPutBytes s.tl.cmem (q.line * 128) ((data ++ List.replicate 128 0).take 128) } }
      let asked (r : CompanionRead) : Bool := poison && (linesOf r.addr r.len).contains q.line
      let bad := s.tl.reads.filter asked
      let s : State := { s with tl := { s.tl with reads := s.tl.reads.filter fun r => !asked r } }
      let s := bad.foldl (fun s r => s.companionAnswer r Code.poisoned) s
      s.serveReads.drainWrites.recheckFences

/-- GRANT: ownership of a line without data; pending writes to it are performed (R405, R408). -/
def State.grantLine (s : State) (txn : Nat) : State :=
  if !s.travoUp then s
  else match s.tl.lineReqs.find? fun q => q.txn == txn % 4096 with
    | none => s
    | some q => (s.holdLine q true).serveReads.drainWrites.recheckFences

/-- Answer a snoop: with the line's data when it is dirty (R405). -/
def State.snoopAnswer (s : State) (txn line : Nat) : State :=
  let dirty := match tblFind line s.tl.lines with | some h => h.dirty | none => false
  s.sendFlit ⟨0x0A, false, txn % 4096, 0, 0, line * 128, 0, if dirty then memBytes s.tl.cmem (line * 128) 128 else []⟩

/-- SNP_SHARED: the line is downgraded to shared and the snoop answered (R405). -/
def State.snoopShared (s : State) (txn line : Nat) : State :=
  if !s.travoUp then s
  else
    let t := s.snoopAnswer txn line
    if s.lineHeld line then { t with tl := { t.tl with lines := tblSet line ⟨false, false⟩ t.tl.lines } } else t

/-- SNP_INV: the line is dropped and the snoop answered; writes that wait for it ask again (R405, R408). -/
def State.snoopInv (s : State) (txn line : Nat) : State :=
  if !s.travoUp then s
  else
    let t := s.snoopAnswer txn line
    let u : State := { t with tl := { t.tl with lines := tblErase line t.tl.lines } }
    u.drainWrites

/-- The link goes down: engine reads of companion memory complete as UNCORRECTABLE bus errors (R406). -/
def State.travoDown (s : State) : State :=
  let s := s.setFlag Reg.TL_STATUS Fld.TL_STATUS_UP false
  let s := s.setFlag Reg.TL_STATUS Fld.TL_STATUS_LASTING true
  let s := s.setFld Reg.TL_STATUS Fld.TL_STATUS_LANES 0
  let rs := s.tl.reads
  let t : State := { s with tl := { s.tl with reads := [], lineReqs := [] } }
  (rs.foldl (fun s r => s.companionAnswer r Code.uncorrectable) (t.markLasting 8 travoUnit 0 0)).recheckFences

/-- Replay the flits after `ack` (R406): counted, and eight failed replays in a row take the link down. -/
def State.travoReplay (s : State) : State :=
  if 8 ≤ s.tl.txFails then s.travoDown
  else
    let n := s.tl.sent.length
    let s : State := { s with tl := { s.tl with txFails := s.tl.txFails + 1 } }
    let s := s.countWrap Reg.TL_CNT_LINK Fld.TL_CNT_LINK_REPLAYS n
    s.tl.sent.foldl (fun s e => s.emit (.travo e.2 e.1)) s

/-- The message types of R405 a companion may send. -/
def travoInbound (msg : Nat) : Bool := [0x08, 0x09, 0x10, 0x11, 0x18, 0x19].contains msg

/-- TRAVO_FLIT_RECEIVE: the link layer of a flit that arrives (R404 to R406): a bad CRC is answered with NAK; the ACK frees the
replay buffer and a NAK asks for replay; a reserved message is counted. What an accepted message does is its own command (log
entry 20). -/
def State.travoReceive (s : State) (msg seq ack : Nat) (nak crcOk : Bool) : State :=
  if !s.travoUp then s
  else if !crcOk then
    let s := s.eccEvent 8 travoUnit 0 false 0
    if 8 ≤ s.tl.rxFails then s.travoDown
    else
      let t : State := { s with tl := { s.tl with rxFails := s.tl.rxFails + 1 } }
      t.emit (.travoNak s.tl.rxSeq)
  else
    let late (n : Nat) : Bool := decide ((ack + 4096 - n) % 4096 < 2048)
    let freed := s.tl.sent.any fun e => late e.1
    let s : State := { s with tl := { s.tl with rxFails := 0, txFails := if freed then 0 else s.tl.txFails,
                                                sent := s.tl.sent.filter fun e => !late e.1 } }
    let s : State := if seq % 4096 = (s.tl.rxSeq + 1) % 4096 then { s with tl := { s.tl with rxSeq := seq % 4096 } } else s
    let s := if travoInbound msg then s else s.countWrap Reg.TL_CNT_LINK Fld.TL_CNT_LINK_MALFORMED 1
    if nak then s.travoReplay else s

end Sys2Proof.Machine
end

