-- ==== Sys2Proof/Machine/Ports.lean ====
section
/-! DEFINITION. Bringing ports up, neighbour identity, control frames and time transfer (R293 to R307, R327 to R330, R505). -/

namespace Sys2Proof.Machine

/-- The MAC address of a port, and of the chassis (R299). -/
def macAddr (node low : Nat) : Nat := 0x02474E000000 + node % 2 ^ 16 * 256 + low
def State.portMac (s : State) (p : Nat) : Nat := macAddr s.node (0x10 + p)

/-- Elapsed time has reached `t` (R75). -/
def State.elapsed (s : State) (t : Nat) : Bool := decide (t ≤ s.clock.elapsedNs)

/-- FP_CFG of a port is written (R300, R332): setting ENABLE starts bring-up from DOWN on a port die in service (R49), clearing it takes the
port down, and a port without a role is held down (R297). -/
def State.portEnable (s : State) (p v : Nat) : State :=
  let s := s.writePlain (Reg.FP_CFG p) v
  if s.leadPort p != p then s
  else if s.flag (Reg.FP_CFG p) Fld.FP_CFG_ENABLE then
    if s.portRole p = 0 then s.portDown p
    else if s.portStage p = 0 && s.portDieUp (p / 4) && !s.ecc.halted && !s.safeState then s.enterPort p 1
    else s
  else
    let s := (s.portDown p).onPort p fun x => { x with openL := 0, shortL := 0 }
    s.showLanes p

/-- Is the port in a bring-up phase, in its own state or again inside RETRAIN (R300), and its microcontroller at work (R307)? -/
def State.inPhase (s : State) (p k : Nat) : Bool :=
  (s.portStage p == k || s.portStage p == 7) && (s.port p).phase == k && s.elapsed (s.port p).pauseTo

/-- Move to the next bring-up phase; inside RETRAIN the STATE stays RETRAIN until IDENTITY (R300). -/
def State.nextPhase (s : State) (p k : Nat) : State :=
  if s.portStage p = 7 && k < 5 then s.onPort p fun x => { x with phase := k, since := s.clock.elapsedNs }
  else s.enterPort p k

/-- Physical lanes not counted open or shorted. -/
def State.goodLanes (s : State) (p : Nat) : List Nat :=
  let bad := (s.port p).openL ||| (s.port p).shortL
  (s.lanesOf p).filter fun k => !bitAt bad k

/-- CM_TEST_DONE: after 50 µs each lane still counted good is judged; with none good the port is FENCED (R300, R301). -/
def State.cmTestDone (s : State) (port : Nat) (found : List LaneTest) : State :=
  let p := s.leadPort port
  if !s.inPhase p 1 || !s.elapsed ((s.port p).since + 50000) then s
  else
    let marks (t : LaneTest) : Nat := maskOf (s.goodLanes p) fun k => nthD found k .pass == t
    let s := s.addLanes p (marks .open_) (marks .shorted)
    if (s.goodLanes p).isEmpty then s.portFenced p else s.nextPhase p 2

/-- TRAIN_DONE: lanes that fail CDR lock are open; the port goes on to LANE_ID (R300, R301). -/
def State.trainDone (s : State) (port : Nat) (failed : List Nat) : State :=
  let p := s.leadPort port
  if !s.inPhase p 2 then s
  else (s.addLanes p (maskOf (s.goodLanes p) fun k => failed.contains k) 0).nextPhase p 3

/-- The width for a count of agreed lanes and a mode's lanes (R302). -/
def agreedWidth (agreed lanes : Nat) : Nat :=
  let n := min agreed lanes
  if 8 ≤ n then 8 else if 4 ≤ n then 4 else if 2 ≤ n then 2 else n

/-- The physical receive lane of each logical lane, from the lane map of the seeds; exchanged halves are exchanged back (R302). -/
def laneOrder (lanes laneMap : Nat) (swap : Bool) : List Nat :=
  (List.range lanes).map fun l => 4 * ((l / 4) ^^^ b2n (swap && lanes == 8)) + bitsOf laneMap (2 * l) 2

/-- The agreed lanes (R302): logical lanes that this end receives well on their physical lane and that the far end receives well. -/
def State.agreedLanes (s : State) (p far : Nat) (order : List Nat) : List Nat :=
  (s.lanesOf p).filter fun l => (s.goodLanes p).contains (nthD order l l) && bitAt far l

/-- LANE_ID_DONE: after 20 µs the lane map, polarity and agreed lanes are known; the width follows, and the port runs on the
lowest-numbered agreed lanes (R296, R302). -/
def State.laneIdDone (s : State) (port laneMap polarity far : Nat) (swap : Bool) : State :=
  let p := s.leadPort port
  if !s.inPhase p 3 || !s.elapsed ((s.port p).since + 20000) then s
  else
    let order := laneOrder (s.modeLanes p) laneMap swap
    let agreed := s.agreedLanes p far order
    let w := agreedWidth agreed.length (s.modeLanes p)
    let s := (s.portPair p).zipIdx.foldl (fun s e =>
      let s := s.setFld (Reg.FP_STATUS e.1) Fld.FP_STATUS_LANE_MAP (laneMap / 256 ^ e.2)
      s.setFld (Reg.FP_STATUS e.1) Fld.FP_STATUS_POLARITY (polarity / 16 ^ e.2)) s
    let s := s.setFlag (Reg.FP_STATUS p) Fld.FP_STATUS_HALF_SWAP (swap && s.portMode p == 2)
    let s := (s.onPort p fun x => { x with order := order, used := maskOf (agreed.take w) fun _ => true }).showLanes p
    if w = 0 then s.portFenced p
    else if w < s.modeLanes p && (s.portRole p == 3 || !s.flag (Reg.FP_CFG p) Fld.FP_CFG_DEGRADE) then s.portDown p
    else (s.setLanes p w).nextPhase p 4

/-- ALIGN_DONE: alignment and FEC lock reached; the identity exchange begins (R300). -/
def State.alignDone (s : State) (port : Nat) : State :=
  let p := s.leadPort port
  if !s.inPhase p 4 then s
  else (s.nextPhase p 5).onPort p fun x => { x with lldpAt := s.clock.elapsedNs }

-- Identity ---------------------------------------------------------------------------------------------------------

/-- The information field of the identity TLV this port sends (R304). -/
def State.identityInfo (s : State) (p : Nat) : List Byte :=
  let h := s.reg (Reg.FP_HEARD p)
  let heard := s.fld (Reg.FP_STATUS p) Fld.FP_STATUS_ID_STATE != 0 && s.fld (Reg.FP_STATUS p) Fld.FP_STATUS_ID_STATE != 5
  leBytes 2 s.node ++ leBytes 1 p ++ leBytes 2 (if heard then bitsOf h 0 16 else 0) ++
  leBytes 1 (if heard then bitsOf h 16 4 + 16 else 0) ++ leBytes 2 (s.fld Reg.FWD_IDENT Fld.FWD_IDENT_PTAG) ++
  leBytes 1 (s.portRole p + s.fld (Reg.FP_CFG p) Fld.FP_CFG_DIR * 8 + s.fld (Reg.FP_STATUS p) Fld.FP_STATUS_WIDTH * 64) ++
  List.replicate 7 0

/-- The LLDP frame of a port (R304): chassis and port address, time-to-live, and the identity TLV with its OUI. -/
def State.lldpFrame (s : State) (p : Nat) : List Byte :=
  let ms := s.fld Reg.FWD_CTRL Fld.FWD_CTRL_LLDP_MS
  let ttl := if s.forwarding p then max 1 (4 * ms / 1000) else 1
  beBytes 6 0x0180C200000E ++ beBytes 6 (s.portMac p) ++ beBytes 2 0x88CC ++
  beBytes 2 (1 * 512 + 7) ++ leBytes 1 4 ++ beBytes 6 (macAddr s.node 0) ++
  beBytes 2 (2 * 512 + 7) ++ leBytes 1 3 ++ beBytes 6 (s.portMac p) ++
  beBytes 2 (3 * 512 + 2) ++ beBytes 2 ttl ++
  beBytes 2 (127 * 512 + 20) ++ beBytes 3 (s.reg Reg.FWD_OUI) ++ leBytes 1 1 ++ s.identityInfo p ++ beBytes 2 0

/-- Put a control frame in the queue of a port (R313). -/
def State.queueControl (s : State) (p : Nat) (b : CtlBody) : State := s.onPort p fun x => { x with ctl := x.ctl ++ [⟨b, 0⟩] }

/-- Does the port measure its peer delay: a torus or ring port in FORWARDING (R329)? -/
def State.measuresPeer (s : State) (p : Nat) : Bool := s.forwarding p && (s.portRole p == 1 || s.portRole p == 2)

/-- LLDP_SEND: the interval has expired (R304): 100 µs in IDENTITY, LLDP_MS in FORWARDING, where the frame waits for a slot
(R313). A Pdelay_Req goes with it, as the spec gives no interval for peer-delay measurement (R329; DESIGN CHOICE, log entry 18). -/
def State.lldpSend (s : State) (port : Nat) : State :=
  let p := s.leadPort port
  if !s.elapsed (s.port p).lldpAt || !s.elapsed (s.port p).pauseTo then s
  else if s.portStage p = 5 then
    (s.emit (.lldp p (s.lldpFrame p))).onPort p fun x => { x with lldpAt := s.clock.elapsedNs + 100000 }
  else if s.forwarding p then
    let t := (s.queueControl p .lldp).onPort p fun x =>
      { x with lldpAt := s.clock.elapsedNs + s.fld Reg.FWD_CTRL Fld.FWD_CTRL_LLDP_MS * 1000000 }
    if s.measuresPeer p then t.queueControl p .pdelayReq else t
  else s

/-- How an identity TLV compares with what this port expects: an ID_STATE (R305, R332). -/
def State.identityState (s : State) (p : Nat) (info : List Byte) : Nat :=
  let at_ (i n : Nat) : Nat := leNat (sliceOf info i n)
  let e := Reg.FP_EXPECT p
  if !s.flag e Fld.FP_EXPECT_VALID || at_ 0 2 != s.fld e Fld.FP_EXPECT_NODE || at_ 2 1 % 16 != s.fld e Fld.FP_EXPECT_PORT then 2
  else if !bitAt (at_ 5 1) 4 || at_ 3 2 != s.node || at_ 5 1 % 16 != p then 3
  else if at_ 6 2 != s.fld Reg.FWD_IDENT Fld.FWD_IDENT_PTAG then 4
  else 1

/-- Set ID_STATE; a change away from a match writes a record (R300), and so does a change to a mismatch, at which the port stays in
IDENTITY (R307). -/
def State.setIdState (s : State) (p v : Nat) : State :=
  let old := s.fld (Reg.FP_STATUS p) Fld.FP_STATUS_ID_STATE
  let s := s.setStatus p Fld.FP_STATUS_ID_STATE v
  if old != v && (old == 1 || v == 2 || v == 3 || v == 4) then s.portRecord p else s

/-- A new connection epoch (R370). -/
def State.newEpoch (s : State) (old : Option Nat) : Nat :=
  let e := bitsOf s.stamp 10 32
  if old = some e then (e + 1) % 2 ^ 32 else e

/-- A switched port has entered FORWARDING: each connection that sends on it starts a new epoch (R370). -/
def State.restartConns (s : State) (p : Nat) : State :=
  let f (e : Nat × TxConn) : Nat × TxConn :=
    if e.2.port = p then (e.1, { e.2 with epoch := s.newEpoch (some e.2.epoch), psn := 0, held := [] }) else e
  { s with fab := { s.fab with tx := s.fab.tx.map f,
                               epochs := tblSet p (s.newEpoch (tblFind p s.fab.epochs)) s.fab.epochs } }

/-- A port enters FORWARDING with a matched neighbour (R300, R303, R311): what it held is replayed to the same neighbour within
T_RETRAIN, and discarded otherwise; entering below the mode's width writes a record. -/
def State.enterForwarding (s : State) (p : Nat) (partner : Nat × Nat) : State :=
  let x := s.port p
  let same := x.partner == some partner
  let inTime := match x.retrainAt with
    | some t => decide (s.clock.elapsedNs ≤ t + s.fld Reg.FWD_CTRL Fld.FWD_CTRL_T_RETRAIN * 1000)
    | none => true
  let s := if same && inTime then s.onPort p fun x => { x with again := x.replay.map fun f => (f.seq, 0), retrainAt := none }
           else s.dropHeld p
  let s := s.enterPort p 6
  let s := s.onPort p fun x => { x with partner := some partner, slots := 0, lldpAt := s.clock.elapsedNs }
  let s := if s.portRole p = 3 then s.restartConns p else s
  if s.portLanes p < s.modeLanes p then s.portRecord p else s

/-- LLDP_RECEIVE: an identity frame is matched (R304, R305); TLVs with another OUI or subtype are ignored. -/
def State.lldpReceive (s : State) (port : Nat) (f : LldpFrame) : State :=
  let p := s.leadPort port
  if f.oui != s.reg Reg.FWD_OUI || f.subtype != 1 || !(s.portStage p == 5 || s.portStage p == 6) || !s.elapsed (s.port p).pauseTo then s
  else
    let heard := leNat (f.info.take 6) + leNat (sliceOf f.info 6 2) * 2 ^ 48
    let s := s.setReg (Reg.FP_HEARD p) heard
    let st := s.identityState p f.info
    let s := s.setIdState p st
    if st = 1 then
      let s := if s.portStage p = 5 then s.enterForwarding p (bitsOf heard 0 16, bitsOf heard 16 4) else s
      s.onPort p fun x => { x with expire := some (s.clock.elapsedNs + f.ttl * 1000000000) }
    else if s.forwarding p then (s.enterPort p 5).onPort p fun x => { x with lldpAt := s.clock.elapsedNs, ctl := [] }
    else s

/-- IDENTITY_EXPIRE: the last accepted frame's time-to-live has run out (R305). -/
def State.identityExpire (s : State) (port : Nat) : State :=
  let p := s.leadPort port
  match (s.port p).expire with
  | none => s
  | some t =>
    if !s.elapsed t then s
    else
      let s := s.setIdState p 5
      let s := s.onPort p fun x => { x with expire := none }
      if s.forwarding p then (s.enterPort p 5).onPort p fun x => { x with lldpAt := s.clock.elapsedNs, ctl := [] } else s

/-- CDR_LOSS: a lane of a forwarding port loses lock (R303). -/
def State.cdrLoss (s : State) (port lane : Nat) : State :=
  if s.forwarding (s.leadPort port) then s.laneOpen port lane else s

/-- RETRAIN_TIMEOUT: T_RETRAIN has passed without a return to FORWARDING (R300, R303). -/
def State.retrainTimeout (s : State) (port : Nat) : State :=
  let p := s.leadPort port
  match (s.port p).retrainAt with
  | none => s
  | some t =>
    if s.forwarding p || !s.elapsed (t + s.fld Reg.FWD_CTRL Fld.FWD_CTRL_T_RETRAIN * 1000) then s else s.portDown p

/-- LINK_MCU_RELOAD: while the microcontroller of a port die is reloaded for `ns`, training and LLDP of its ports pause; ports in
FORWARDING keep forwarding (R307, R505). -/
def State.mcuReload (s : State) (die ns : Nat) : State :=
  ([0, 1, 2, 3].map fun n => 4 * (die % 4) + n).foldl (fun s p =>
    s.onPort p fun x => { x with since := x.since + ns, lldpAt := x.lldpAt + ns, pauseTo := s.clock.elapsedNs + ns }) s

/-- PAUSE_RECEIVE: discarded and counted (R295). -/
def State.pauseReceive (s : State) (p : Nat) : State := s.countWrap (Reg.FP_CNT_FRAME p) Fld.FP_CNT_FRAME_PAUSE_RX 1

/-- The device's IPv6 address (R326). -/
def State.ownAddress (s : State) : Nat := s.reg Reg.FWD_SW_PREFIX * 2 ^ 64 + s.node

/-- NEIGHBOR_SOLICITATION: answered when it asks for the device's own address (R327). -/
def State.neighborSolicitation (s : State) (port target : Nat) : State :=
  let p := s.leadPort port
  if target = s.ownAddress && s.portRole p == 3 && s.forwarding p then s.emit (.advert p) else s

-- Time transfer ----------------------------------------------------------------------------------------------------

def State.timeRole (s : State) (p : Nat) : Nat := let r := s.fld (Reg.FP_CFG p) Fld.FP_CFG_TIME_ROLE; if r = 3 then 0 else r

/-- The time input: the lowest-numbered IN port in FORWARDING (R329). -/
def State.timeInput (s : State) : Option Nat :=
  (List.range 16).find? fun p => s.leadPort p == p && s.timeRole p == 1 && s.forwarding p

/-- The time outputs in FORWARDING (R329). -/
def State.timeOutputs (s : State) : List Nat :=
  (List.range 16).filter fun p => s.leadPort p == p && s.timeRole p == 2 && s.forwarding p

/-- The hardware timestamp of this moment, in 2^-16 ns of fabric time (R328). -/
def State.stamp16 (s : State) : Nat := s.tb.acc.toNat / 2 ^ 16

/-- ASYM of a port in 2^-16 ns: two's complement, stored in 2^-4 ns (R332). -/
def State.asym16 (s : State) (p : Nat) : Int := signedOf 16 (s.fld (Reg.FP_PTP p) Fld.FP_PTP_ASYM) * 4096

/-- The mean peer delay of a port in 2^-16 ns. -/
def State.peerDelay16 (s : State) (p : Nat) : Nat := s.fld (Reg.FP_PTP p) Fld.FP_PTP_PDELAY * 4096

/-- Whole nanoseconds of a time in 2^-16 ns, rounded down. -/
def ns16 (t : Int) : Int := t / 65536

/-- The source's time of this moment as a PTP sample, under SRC 0 (R76, R77): one before the epoch is counted as rejected. -/
def State.ptpTime (s : State) (tai16 : Int) : State :=
  if s.ftSrc = 0 && decide (tai16 < 0) then s.countSat Reg.FT_COUNT Fld.FT_COUNT_SAMPLES_REJECTED 1
  else s.ptpSample (ns16 tai16).toNat

/-- Send a Sync in as many steps as TWO_STEP of the port says (R328). -/
def State.emitSync (s : State) (p tai : Nat) (correction : Int) : State :=
  let udp := s.portRole p == 3
  let dom := s.fld Reg.FWD_CTRL Fld.FWD_CTRL_PTP_DOMAIN
  if s.flag (Reg.FP_CFG p) Fld.FP_CFG_TWO_STEP then
    (s.emit (.ptp p udp dom (.sync 0 0 true))).emit (.ptp p udp dom (.followUp tai correction))
  else s.emit (.ptp p udp dom (.sync tai correction false))

/-- A control frame leaves a port now (R304, R313, R328, R329): a relayed Sync adds its residence time; the device's own Sync tells its
fabric time as TAI. -/
def State.emitControl (s : State) (p : Nat) (b : CtlBody) : State :=
  let udp := s.portRole p == 3
  let dom := s.fld Reg.FWD_CTRL Fld.FWD_CTRL_PTP_DOMAIN
  match b with
  | .lldp => s.emit (.lldp p (s.lldpFrame p))
  | .relay tai corr came => s.emitSync p tai (corr + (s.stamp16 - came : Nat))
  | .sync => s.emitSync p (s.now + s.reg Reg.FT_EPOCH_TAI) (s.stamp16 % 65536 : Nat)
  | .delayReq =>
    (s.emit (.ptp p udp dom (.delayReq s.node))).onPort p fun x => { x with ptp := { x.ptp with delayAt := some s.stamp16 } }
  | .delayResp r t => s.emit (.ptpAnswer p udp dom r t s.stamp16)
  | .pdelayReq =>
    (s.emit (.ptp p udp dom (.pdelayReq s.node))).onPort p fun x => { x with ptp := { x.ptp with pdelayAt := some s.stamp16 } }
  | .pdelayResp r t => s.emit (.ptpAnswer p udp dom r t s.stamp16)

/-- Send a control frame: in a slot of a port in FORWARDING (R313), at once on one in IDENTITY. -/
def State.sendOrQueue (s : State) (p : Nat) (b : CtlBody) : State :=
  if s.forwarding p then s.queueControl p b else s.emitControl p b

/-- A Sync on the time input has told the master's time `tai` with its correction; it came in at `came` (R328, R329). On a torus or ring
port the device takes the sample and relays the Sync with the peer delay added; on a switched port it asks for the delay. ASYM is
added to the correction, as IEEE 1588 has it (PRESUMED, log entry 18). -/
def State.syncTold (s : State) (p tai : Nat) (correction : Int) (came : Nat) : State :=
  if s.portRole p == 3 then
    (s.onPort p fun x => { x with ptp := { x.ptp with syncAt := some ((tai * 65536 : Nat) + correction, came) } }).queueControl p .delayReq
  else
    let path : Int := correction + (s.peerDelay16 p : Nat) + s.asym16 p
    let s := s.ptpTime ((tai * 65536 : Nat) + path + (s.stamp16 - came : Nat))
    s.timeOutputs.foldl (fun s q => s.queueControl q (.relay tai path came)) s

/-- A Delay_Resp on the switched time input (R329): the device is ahead of the master by half the difference of the two ways, less ASYM,
and the sample is the master's time of this moment. The device, a boundary clock, then sends a Sync as master on its outputs (the
moment is a DESIGN CHOICE, log entry 18). -/
def State.delayTold (s : State) (p tai : Nat) (correction : Int) : State :=
  match (s.port p).ptp.syncAt, (s.port p).ptp.delayAt with
  | some (t1, t2), some t3 =>
    let there : Int := (t2 : Int) - t1
    let back : Int := (tai * 65536 : Nat) - correction - (t3 : Int)
    let ahead := (there - back) / 2 - s.asym16 p
    let s := s.onPort p fun x => { x with ptp := { x.ptp with syncAt := none, delayAt := none } }
    let s := s.ptpTime ((s.stamp16 : Int) - ahead)
    if s.timeValid then s.timeOutputs.foldl (fun s q => s.queueControl q .sync) s else s
  | _, _ => s

/-- PTP_EVENT_MESSAGE: a PTP message at a port (R328, R329), on a port whose link is up (R334), in the device's domain and on the transport
of the port's role. Every torus or ring port answers a Pdelay_Req and measures with the answers to its own; for the rest a TIME_ROLE
of 0 discards. -/
def State.ptpMessage (s : State) (port : Nat) (f : PtpFrame) : State :=
  let p := s.leadPort port
  let direct := s.portRole p == 1 || s.portRole p == 2
  let input := s.timeInput == some p
  if !(s.portStage p == 5 || s.forwarding p) || f.domain != s.fld Reg.FWD_CTRL Fld.FWD_CTRL_PTP_DOMAIN || f.udp == direct then s
  else match f.body with
    | .announce => s
    | .pdelayReq r => if direct then s.sendOrQueue p (.pdelayResp r s.stamp16) else s
    | .pdelayResp turn =>
      match (s.port p).ptp.pdelayAt with
      | some t1 =>
        if s.measuresPeer p then
          (s.setFld (Reg.FP_PTP p) Fld.FP_PTP_PDELAY ((s.stamp16 - t1 - turn) / 2 / 4096)).onPort p fun x =>
            { x with ptp := { x.ptp with pdelayAt := none } }
        else s
      | none => s
    | .delayReq r => if s.timeRole p == 2 && s.forwarding p && !direct then s.queueControl p (.delayResp r s.stamp16) else s
    | .sync tai corr twoStep =>
      if !input then s
      else if twoStep then s.onPort p fun x => { x with ptp := { x.ptp with await := some s.stamp16 } }
      else s.syncTold p tai corr s.stamp16
    | .followUp tai corr =>
      match (s.port p).ptp.await with
      | some came =>
        if input then (s.onPort p fun x => { x with ptp := { x.ptp with await := none } }).syncTold p tai corr came else s
      | none => s
    | .delayResp tai corr => if input && !direct then s.delayTold p tai corr else s

end Sys2Proof.Machine
end

