-- ==== Sys2Proof/Machine/Forward.lean ====
section
/-! DEFINITION. Cell frames, the deflection slot of the four forwarding stages, ejection, egress and link replay (R308 to R324,
R363 to R365). -/

namespace Sys2Proof.Machine

/-- Count for the drift record (R331): 0 to 3 refused ejections by class, 4 PTAG drops, 5 other drops, 6 injection-wait slots,
7 refused egress. -/
def State.driftCount (s : State) (k n : Nat) : State :=
  { s with fab := { s.fab with drift := tblSet k (tblGetD k 0 s.fab.drift + n) s.fab.drift } }

/-- UNIT of a forwarding stage (R27, R558). -/
def stageUnit (die : Nat) : Nat := 0x3010 + die * 0x100

/-- A cell is dropped in a stage (R322): counted, and reported once per cause and counter window. -/
def State.dropCell (s : State) (die cause : Nat) (c : Cell) : State :=
  let s := if cause = 3 then s.countWrap (Reg.FWD_CNT_DROP die) Fld.FWD_CNT_DROP_DROP_SIDE 1
           else s.countWrap (Reg.FWD_CNT_DROP die) Fld.FWD_CNT_DROP_DROP_ROUTE 1
  let s := s.driftCount 5 1
  s.faultOncePerWindow (limitKey Code.cellDropped cause 0) (stageUnit die) Code.cellDropped none
    (cause + c.dest * 2 ^ 3 + c.src * 2 ^ 19)

/-- Does a cell carry an acceptable partition tag (R322)? -/
def State.ptagOk (s : State) (c : Cell) : Bool :=
  c.ptag == s.fld Reg.FWD_IDENT Fld.FWD_IDENT_PTAG || (c.cls == Cls.mgmt && c.ptag == 0 && c.dest == s.node)

/-- A cell with another partition's tag is dropped on arrival (R322). -/
def State.dropPtag (s : State) (port : Nat) (c : Cell) : State :=
  let s := s.countWrap (Reg.FWD_CNT_DROP (port / 4)) Fld.FWD_CNT_DROP_DROP_PTAG 1
  let s := s.driftCount 4 1
  s.faultOncePerWindow (limitKey Code.partitionMismatch 0 0) (stageUnit (port / 4)) Code.partitionMismatch none
    (c.ptag + c.src * 2 ^ 16 + port * 2 ^ 32)

-- Link headers and replay ------------------------------------------------------------------------------------------

/-- A link header (R309). -/
def PortState.header (x : PortState) (seq : Nat) (empty : Bool) : Nat :=
  seq % 2 ^ 16 + x.rxAck * 2 ^ 16 + b2n x.rxAny * 2 ^ 32 + b2n x.nakDue * 2 ^ 33 + b2n empty * 2 ^ 34

/-- Has a sequence number been received, by ACK or by its mark (R364)? -/
def PortState.seen (x : PortState) (seq : Nat) : Bool :=
  decide ((x.rxAck + 2 ^ 16 - seq) % 2 ^ 16 < 2 ^ 15) || x.rxMarks.contains seq

/-- ACK advances over marked numbers; `fuel` bounds the run (R364). -/
def advanceAck : Nat → Nat → List Nat → Nat × List Nat
  | 0, ack, ms => (ack, ms)
  | fuel + 1, ack, ms =>
    let n := (ack + 1) % 2 ^ 16
    if ms.contains n then advanceAck fuel n (ms.filter (· != n)) else (ack, ms)

/-- Mark a sequence number as received (R364). -/
def PortState.mark (x : PortState) (seq : Nat) : PortState :=
  let r := advanceAck (x.rxMarks.length + 1) x.rxAck (x.rxMarks ++ [seq])
  { x with rxAck := r.1, rxMarks := r.2, rxAny := true, ackDue := true }

/-- Free the replay buffer up to an acknowledged number (R363). -/
def PortState.acked (x : PortState) (ack : Nat) : PortState :=
  let live (seq : Nat) : Bool := decide (2 ^ 15 ≤ (ack + 2 ^ 16 - seq) % 2 ^ 16)
  { x with replay := x.replay.filter fun f => live f.seq, again := x.again.filter fun e => live e.1 }

/-- A NAK asks for every buffered frame again, oldest first (R365). -/
def PortState.nakked (x : PortState) : PortState :=
  { x with again := x.replay.map fun f => (f.seq, tblGetD f.seq 0 (x.again.filter fun e => e.1 == f.seq)) }

/-- Take in the acknowledgement half of a link header (R363, R365). -/
def PortState.takeHeader (x : PortState) (h : Nat) : PortState :=
  let x := if bitAt h 32 then x.acked (bitsOf h 16 16) else x
  if bitAt h 33 then x.nakked else x

/-- A cell enters the next slot, unless its partition tag stops it (R318, R322). -/
def State.arrive (s : State) (p : Nat) (c : Cell) (stomp : Bool) : State :=
  if s.ptagOk c then { s with fab := { s.fab with arrived := s.fab.arrived ++ [⟨p, c, stomp⟩] } } else s.dropPtag p c

/-- A frame for this port's address (R308 to R312, R364): a stomped one is counted and marked, one with a bad check is counted,
answered with NAK and its cell forwarded stomped, a good one gives its cell once. -/
def State.frameArrives (s : State) (p : Nat) (f : CellFrame) : State :=
  let h := f.header.toNat
  let seq := bitsOf h 0 16
  let empty := bitAt h 34
  match f.fcs with
  | .bad =>
    let s := s.countWrap (Reg.FP_CNT_FRAME p) Fld.FP_CNT_FRAME_FCS_BAD 1
    let s := s.onPort p fun x => { x with nakDue := true }
    if empty then s else s.arrive p (Cell.ofBytes f.container) true
  | .stomped =>
    let s := s.countWrap (Reg.FP_CNT_FRAME p) Fld.FP_CNT_FRAME_STOMPED 1
    if empty || (s.port p).seen seq then s else s.onPort p fun x => x.mark seq
  | .good =>
    let s := s.onPort p fun x => x.takeHeader h
    if empty then s
    else if (s.port p).seen seq then
      let s := s.countWrap (Reg.FP_CNT_REPLAY p) Fld.FP_CNT_REPLAY_DUP 1
      s.onPort p fun x => { x with ackDue := true }
    else if 4096 ≤ (seq + 2 ^ 16 - (s.port p).rxAck) % 2 ^ 16 then s.onPort p fun x => { x with nakDue := true }
    else (s.onPort p fun x => x.mark seq).arrive p (Cell.ofBytes f.container) false

/-- CELL_FRAME_RECEIVE: a frame arrives at a port with its corrected codewords and the lanes of its uncorrectable ones (R303, R308, R332).
Codewords and bad check sequences count on every port whose link is up. A port not in FORWARDING discards the frame (R334), and so do a
switched port, which carries packets, and a port whose FWD_CTRL.ETYPE is another. -/
def State.cellFrameReceive (s : State) (port : Nat) (f : CellFrame) (corr : Nat) (uncorr : List Nat) : State :=
  let p := s.leadPort port
  if !(s.portStage p == 5 || s.forwarding p) then s
  else
    let s := s.countWrap (Reg.FP_CNT_FEC p) Fld.FP_CNT_FEC_FEC_CORR corr
    let s := s.countWrap (Reg.FP_CNT_UNCORR p) Fld.FP_CNT_UNCORR_FEC_UNCORR uncorr.length
    let s := s.onPort p fun x => { x with uncorr := x.uncorr + uncorr.length }
    let s :=
      if !s.forwarding p || s.portRole p == 3 || f.etype != s.fld Reg.FWD_CTRL Fld.FWD_CTRL_ETYPE then
        if f.fcs = .bad then s.countWrap (Reg.FP_CNT_FRAME p) Fld.FP_CNT_FRAME_FCS_BAD 1 else s
      else if f.dmac = s.portMac p then s.frameArrives p f
      else s.countWrap (Reg.FP_CNT_FRAME p) Fld.FP_CNT_FRAME_DMAC_BAD 1
    uncorr.foldl (fun s k => s.eccEvent 7 (portUnit (p + k / 4 % 2)) (k % 4) true 0) s

-- The slot ---------------------------------------------------------------------------------------------------------

/-- What is taken in a slot: cells sent on each port, and cells across each forwarding link, keyed 4 × from + to (R319). -/
structure SlotUse where
  taken : List (Nat × Nat)
  links : List (Nat × Nat)
  deriving DecidableEq, Repr

/-- Cell frames a port may send in this slot (R311): width, its slot number, and a control or replayed frame that has waited 256
slots (R313, R365). -/
def State.slotFrames (s : State) (p : Nat) : Nat :=
  if s.leadPort p != p || !s.forwarding p then 0
  else
    let x := s.port p
    match s.portLanes p with
    | 8 => 2
    | 4 => 1
    | 2 => if x.slots % 2 = 0 then 1 else 0
    | 1 => if x.slots % 4 = 0 then 1 else 0
    | _ => 0

/-- Has a control frame or replayed frame claimed the output (R313, R365)? -/
def State.claimed (s : State) (p : Nat) : Bool :=
  (s.port p).ctl.any (fun f => decide (256 ≤ f.waited)) || (s.port p).again.any (fun e => decide (256 ≤ e.2))

/-- Is output `q` free for a cell on die `d` (R319)? Switched ports carry packets, not cells, and a full replay buffer takes no more
(R363). -/
def State.outFree (s : State) (u : SlotUse) (d q : Nat) : Bool :=
  s.portRole q != 3 && !s.claimed q && decide (tblGetD q 0 u.taken < s.slotFrames q) && decide ((s.port q).replay.length < 4096) &&
  (q / 4 == d || decide (tblGetD (4 * d + q / 4) 0 u.links < 2))

/-- The lowest free output of a mask (R318). -/
def State.freeOutput (s : State) (u : SlotUse) (d mask : Nat) : Option Nat :=
  (List.range 16).find? fun q => bitAt mask q && s.outFree u d q

/-- Take an output. -/
def SlotUse.take (u : SlotUse) (d q : Nat) : SlotUse :=
  { taken := tblSet q (tblGetD q 0 u.taken + 1) u.taken,
    links := if q / 4 = d then u.links else tblSet (4 * d + q / 4) (tblGetD (4 * d + q / 4) 0 u.links + 1) u.links }

/-- The Ethernet header of a cell frame (R308): the address of the neighbour's port, of this port, and the EtherType. -/
def State.frameMac (s : State) (q : Nat) : List Byte :=
  let far := (s.port q).partner.getD (0, 0)
  beBytes 6 (macAddr far.1 (0x10 + far.2)) ++ beBytes 6 (s.portMac q) ++ beBytes 2 (s.fld Reg.FWD_CTRL Fld.FWD_CTRL_ETYPE)

/-- A frame with a cell leaves a port, stomped where its check is to fail downstream (R308, R312). -/
def State.emitCell (s : State) (q header : Nat) (c : Cell) (stomp : Bool) : State :=
  s.emit (if stomp then .stomped q (s.frameMac q) header c else .frame q (s.frameMac q) header (some c))

/-- Send a cell on a port in a new frame (R363): HOPS counts the stage, the frame takes the next SEQ and is kept for replay; a
full replay buffer sends the port into RETRAIN. -/
def State.sendCell (s : State) (q : Nat) (c : Cell) (stomp : Bool) : State :=
  let c : Cell := { c with hops := c.hops + 1 }
  let x := s.port q
  let s := s.onPort q fun x =>
    { x with txSeq := (x.txSeq + 1) % 2 ^ 16, replay := x.replay ++ [⟨x.txSeq, c, stomp⟩], nakDue := false, ackDue := false }
  let s := s.emitCell q (x.header x.txSeq false) c stomp
  if 4096 ≤ (s.port q).replay.length then s.portRetrain q else s

/-- A cell leaves on an output of a mask, or from outside its preferred mask, which counts as a deflection (R331, R333). -/
def State.sendFrom (s : State) (d q pref : Nat) (c : Cell) (stomp : Bool) : State :=
  let s := if bitAt pref q then s
    else (s.countWrap (Reg.FWD_CNT_DEFL d) Fld.FWD_CNT_DEFL_DEFLECTIONS 1).onPort q fun x => { x with defl := x.defl + 1 }
  s.sendCell q c stomp

/-- Has the ejection queue of a die and class room (R323)? While a job is torn down it refuses the job's classes. -/
def State.ejectRoom (s : State) (d cls : Nat) : Bool :=
  decide ((tblGetD (4 * d + cls) [] s.fab.eject).length < 256) && !(s.fab.refuse && (cls == Cls.req || cls == Cls.bulk))

/-- Eject a cell; a stomped one is discarded (R312). -/
def State.ejectCell (s : State) (d : Nat) (c : Cell) (stomp : Bool) : State :=
  if stomp then s else { s with fab := { s.fab with eject := pushCell (4 * d + c.cls) c s.fab.eject } }

/-- The egress port of a mask with the most free entries, the lower number on a tie (R323); none when all are full. -/
def State.egressPort (s : State) (mask : Nat) : Option Nat :=
  let free (p : Nat) : Nat := 4096 - (tblGetD p [] s.fab.egress).length
  let best := (List.range 16).foldl (fun (b : Option Nat) p =>
    if bitAt mask p && s.leadPort p == p && s.portRole p == 3 && decide (0 < free p) then
      match b with
      | none => some p
      | some q => if free q < free p then some p else b
    else b) none
  best

/-- Put a cell into an egress queue, with the time it came. -/
def State.egressCell (s : State) (p : Nat) (c : Cell) (stomp : Bool) : State :=
  if stomp then s
  else { s with fab := { s.fab with egress := tblSet p (tblGetD p [] s.fab.egress ++ [(c, s.clock.elapsedNs)]) s.fab.egress } }

/-- A transit cell without an output is held in its die's side buffer of 8, or dropped with cause 3 (R320). -/
def State.holdCell (s : State) (d : Nat) (c : Cell) (stomp : Bool) : State :=
  if stomp then s
  else if (tblGetD d [] s.fab.side).length < 8 then
    let s : State := { s with fab := { s.fab with side := pushCell d c s.fab.side } }
    s.countWrap (Reg.FWD_CNT_SW d) Fld.FWD_CNT_SW_SIDE_HELD 1
  else s.dropCell d 3 c

/-- Ask the masks in turn for an output, and every port when `all` (R318). -/
def State.pickOutput (s : State) (u : SlotUse) (d pref alt : Nat) (all : Bool) : Option Nat :=
  match s.freeOutput u d pref with
  | some q => some q
  | none => match s.freeOutput u d alt with
    | some q => some q
    | none => if all then s.freeOutput u d 0xFFFF else none

/-- One transit cell of the slot (R318). -/
def State.transitCell (s : State) (u : SlotUse) (a : Arrival) : SlotUse × State :=
  let d := a.port / 4
  let c := a.cell
  let place (s : State) (pref alt : Nat) : SlotUse × State :=
    match s.pickOutput u d pref alt true with
    | some q => (u.take d q, s.sendFrom d q pref c a.stomp)
    | none => (u, s.holdCell d c a.stomp)
  if s.fld Reg.FWD_CTRL Fld.FWD_CTRL_HOP_MAX ≤ c.hops then (u, s.dropCell d 0 c)
  else if c.dest = s.node then
    if s.ejectRoom d c.cls then (u, s.ejectCell d c a.stomp)
    else place ((s.countWrap (Reg.FWD_CNT_EJ d) Fld.FWD_CNT_EJ_EJ_REFUSE 1).driftCount (c.cls % 4) 1) 0 0
  else match s.route c.dest with
    | .invalid cause => (u, s.dropCell d cause c)
    | .masks pref alt => place s pref alt
    | .egress pref =>
      match s.egressPort pref with
      | some p => (u, s.egressCell p c a.stomp)
      | none => place (s.driftCount 7 1) 0 0

/-- What becomes of a waiting injection in a slot. -/
inductive InjectEnd where
  | gone | waits
  deriving DecidableEq, Repr

/-- One cell that waits for injection on die `d` (R318): it takes only outputs of its masks, or an egress queue, or, for a
gateway's cell to this device, the ejection queue; otherwise it waits and counts in INJ_WAIT. -/
def State.injectOne (s : State) (u : SlotUse) (d : Nat) (c : Cell) : InjectEnd × SlotUse × State :=
  let waits (s : State) : InjectEnd × SlotUse × State :=
    (.waits, u, (s.countWrap (Reg.FWD_CNT_EJ d) Fld.FWD_CNT_EJ_INJ_WAIT 1).driftCount 6 1)
  if c.dest = s.node then
    if s.ejectRoom d c.cls then (.gone, u, s.ejectCell d c false) else waits s
  else match s.route c.dest with
    | .invalid cause => (.gone, u, s.dropCell d cause c)
    | .egress pref =>
      match s.egressPort pref with
      | some p => (.gone, u, s.egressCell p c false)
      | none => waits s
    | .masks pref alt =>
      match s.pickOutput u d pref alt false with
      | some q => (.gone, u.take d q, s.sendFrom d q pref c false)
      | none => waits s

/-- A cell that waits for injection: its die, whether it came through the ingress buffer, and the cell. -/
structure WaitingCell where
  die     : Nat
  port    : Option Nat
  cell    : Cell
  deriving DecidableEq, Repr

/-- The cells of a class that wait for injection on the port dies in service, oldest first (R318, R327, R334). -/
def State.injections (s : State) (cls : Nat) : List WaitingCell :=
  let own := ((List.range 4).map fun d => (tblGetD (4 * d + cls) [] s.fab.inject).map fun c =>
    (⟨d, none, c⟩ : WaitingCell)).flatten
  let inn := (s.fab.ingress.filter fun e => e.2.cls == cls).map fun e => (⟨e.1 / 4, some e.1, e.2⟩ : WaitingCell)
  sortBy (fun a b => a.cell.older b.cell) ((own ++ inn).filter fun w => s.portDieUp w.die)

/-- Remove a cell from where it waited. -/
def State.unwait (s : State) (w : WaitingCell) : State :=
  match w.port with
  | none =>
    let k := 4 * w.die + w.cell.cls
    { s with fab := { s.fab with inject := tblSet k ((tblGetD k [] s.fab.inject).erase w.cell) s.fab.inject } }
  | some p => { s with fab := { s.fab with ingress := s.fab.ingress.erase (p, w.cell) } }

/-- The injections of a slot: MGMT, RSP, REQ, BULK, each oldest first (R318). -/
def State.injectAll (s : State) (u : SlotUse) : SlotUse × State :=
  ([Cls.mgmt, Cls.rsp, Cls.req, Cls.bulk].map fun k => s.injections k).flatten.foldl
    (fun (r : SlotUse × State) w =>
      let (e, u, s) := r.2.injectOne r.1 w.die w.cell
      (u, if e = .gone then s.unwait w else s)) (u, s)

/-- A replayed frame goes out with its sequence number (R365). -/
def State.sendAgain (s : State) (q seq : Nat) : State :=
  let x := s.port q
  let s := s.onPort q fun x => { x with again := x.again.filter (fun e => e.1 != seq), nakDue := false, ackDue := false,
                                        replays := x.replays + 1, occ := x.occ + 1 }
  let s := s.countWrap (Reg.FP_CNT_REPLAY q) Fld.FP_CNT_REPLAY_REPLAYED 1
  match x.replay.find? fun f => f.seq == seq with
  | none => s
  | some f => s.emitCell q (x.header seq false) f.cell f.stomp

/-- The oldest control frame of a port goes out (R313). -/
def State.sendControl (s : State) (q : Nat) (f : CtlFrame) : State :=
  (s.onPort q fun x => { x with ctl := x.ctl.drop 1 }).emitControl q f.body

/-- What a port sends in a slot that gives it no cell (R313, R363, R365): a control frame, a replayed frame, or an EMPTY frame
with an acknowledgement to return. A slot that carries a cell, new or replayed, counts as occupied (R331). -/
def State.idleSlot (s : State) (u : SlotUse) (q : Nat) : State :=
  let x := s.port q
  let open_ := decide (0 < s.slotFrames q)
  let s :=
    if !open_ then s
    else if 0 < tblGetD q 0 u.taken then s.onPort q fun x => { x with occ := x.occ + 1 }
    else match x.ctl, x.again with
      | f :: _, [] => s.sendControl q f
      | f :: _, e :: _ => if 256 ≤ e.2 && decide (f.waited < 256) then s.sendAgain q e.1 else s.sendControl q f
      | [], e :: _ => s.sendAgain q e.1
      | [], [] =>
        if x.ackDue || x.nakDue then
          (s.emit (.frame q (s.frameMac q) (x.header x.txSeq true) none)).onPort q fun x => { x with ackDue := false, nakDue := false }
        else s
  s.onPort q fun x =>
    { x with slots := x.slots + 1, ctl := x.ctl.map fun f => { f with waited := f.waited + 1 },
             again := x.again.map fun e => (e.1, e.2 + 1) }

/-- FORWARDING_SLOT: every cell that arrived in the previous slot or was held, oldest first, then the waiting injections, then
what the idle outputs send (R318). The cells of a fenced port die stay where they are (R49, R334). -/
def State.forwardingSlot (s : State) : State :=
  let up (a : Arrival) : Bool := s.portDieUp (a.port / 4)
  let held := (s.fab.side.map fun e => e.2.map fun c => (⟨4 * e.1, c, false⟩ : Arrival)).flatten
  let transit := sortBy (fun a b : Arrival => a.cell.older b.cell) ((s.fab.arrived ++ held).filter up)
  let s : State := { s with fab := { s.fab with
    arrived := s.fab.arrived.filter fun a => !up a, side := s.fab.side.filter fun e => !s.portDieUp e.1, slots := s.fab.slots + 1 } }
  let (u, s) := transit.foldl (fun (r : SlotUse × State) a => r.2.transitCell r.1 a) (⟨[], []⟩, s)
  let (u, s) := s.injectAll u
  ((List.range 16).filter fun q => s.leadPort q == q && s.forwarding q).foldl (fun s q => s.idleSlot u q) s

/-- The tables flip (R316): every in-force entry takes its shadow. The in-force
words of the fingerprint change, so it is no longer current (R528). -/
def State.forwardingFlip (s : State) : State :=
  let copy (s : State) (src dst n : Nat) : State :=
    let keep := s.regs.filter fun e => !(decide (dst ≤ e.1) && decide (e.1 < dst + n))
    let s' : State := { s with regs := keep }
    (s.regRange src n).foldl (fun t e => t.setReg (dst + e.1) e.2) s'
  let s := copy s (Reg.FWD_POS 0) (Reg.FWD_POS_IF 0) 2048
  let s := copy s (Reg.FWD_RACK 0) (Reg.FWD_RACK_IF 0) 2048
  (s.setFlag Reg.FWD_FLIP Fld.FWD_FLIP_ARMED false).setFlag Reg.SEC_FP_CTRL Fld.SEC_FP_CTRL_VALID false

end Sys2Proof.Machine
end

