-- ==== Sys2Proof/Machine/HgDispatch.lean ====
section
/-! DEFINITION. Sort and dispatch, gateway relaying, shape records, done items, the combine and the exchange deadline (R59 to R70,
R182, R185 to R188, R191 to R205). -/

namespace Sys2Proof.Machine

-- Stores into LAND regions -----------------------------------------------------------------------------------------

/-- Store 256 bytes or a seal at a region offset of a member's LAND region: locally for the own node, else by node-mode address
in die view (R62, R190). -/
def State.sendLine (s : State) (e : Nat) (node region o : Nat) (data : List Byte) (poison isSeal : Bool) : State :=
  let who : Requester := .engine e 2
  let p := (s.region region).place region o
  if node = s.node then
    (s.landStore who node p.1 p.2 region o (2 ^ data.length - 1) data poison isSeal).2
  else
    s.issueOp { who := who, op := Op.store, mgmt := false, addr := nodeAddr node (dieOffset p.1 p.2), len := data.length, be := 255,
                aop := 0, signed := false, seal_ := isSeal, poison := poison, data := data, sink := .none }

/-- Store bytes line by line; the last line is filled with zeros. -/
def State.sendLines (s : State) (e node region o : Nat) (data : List Byte) (poison : Bool) : State :=
  (List.range (ceilDiv data.length 256)).foldl (fun s i =>
    s.sendLine e node region (o + 256 * i) (((data.drop (256 * i)) ++ List.replicate 256 0).take 256) poison false) s

/-- The 64 bytes of a DISPATCH_SEAL or RETURN_SEAL (R192). -/
def sealBytes (step tokens stores sender layer parity lines : Nat) (ret : Bool) : List Byte :=
  leBytes 8 step ++ leBytes 4 tokens ++ leBytes 4 stores ++ leBytes 2 sender ++
  leBytes 2 (layer % 4096 + parity * 2 ^ 12 + b2n ret * 2 ^ 13) ++ leBytes 2 lines ++ List.replicate 42 0

-- Lists ------------------------------------------------------------------------------------------------------------

/-- The 16 bytes of a route record (R185). -/
def RouteRec.bytes (r : RouteRec) (own : Nat) : List Byte :=
  leBytes 8 (r.tokenSlot % 2 ^ 16 + r.expertSlot % 2 ^ 12 * 2 ^ 16 + r.replica % 8 * 2 ^ 28 + r.dest % 2 ^ 16 * 2 ^ 32 +
    r.kind % 4 * 2 ^ 48 + r.rank % 32 * 2 ^ 50 + b2n r.relayed * 2 ^ 55 + b2n (r.dest == own) * 2 ^ 56) ++
  leBytes 4 (if r.relayed then r.origin % 2 ^ 16 else r.weight) ++ leBytes 2 r.retIndex ++ leBytes 2 r.expert

/-- The 32 bytes of a dispatch-zone token entry (R191). -/
def RouteRec.entry (r : RouteRec) (p : HgStep) : List Byte :=
  leBytes 2 (r.expertSlot % 4096) ++ leBytes 2 (r.kind % 4 + r.rank % 32 * 4 + b2n r.relayed * 128) ++ leBytes 2 r.expert ++
  leBytes 2 (p.layer + p.parity * 2 ^ 12) ++ leBytes 8 p.number ++ leBytes 2 r.origin ++ List.replicate 14 0

/-- Number a list's records by position (R185). -/
def numbered (rs : List RouteRec) : List RouteRec := rs.zipIdx.map fun e => { e.1 with retIndex := e.2 }

/-- The dispatch list to a zone's node: the step's own records for it, in token and rank order (R186). -/
def HgStep.listFor (p : HgStep) (node : Nat) : List RouteRec := numbered (p.records.filter fun r => r.dest == node)

/-- The capacity failures found before the first store: zone, kind and peer (R190, R194 kinds 0, 3 and 4). -/
def State.dispatchFails (s : State) (p : HgStep) : List (Nat × Nat × Nat) :=
  let l := p.lay
  let size := (s.region (s.landRegion p.parity)).size * 4096
  let zs := s.zones
  let far := zs.filter fun z =>
    decide (size < dzRow z.peerDz z.outTokens z.outTokens l.rowBytes) ||
    decide (size < rzRow z.peerRz z.inTokens z.inTokens (s.retRowBytes l)) || decide (size < z.list * 4096 + 64 + 16 * z.outTokens)
  let work := (s.fld Reg.HG_XCH_WORK Fld.HG_XCH_WORK_WORK_GRAN + s.fld Reg.HG_XCH_WORK Fld.HG_XCH_WORK_WORK_GRANS) * 4096
  let laid := max work (s.runTable (s.slotsOf p.layer).length)
  (far.map fun z => (z.z, 4, z.node)) ++ (if size < laid then [(0, 4, s.node)] else []) ++
  ((p.records.filter fun r => !(zs.any fun z => z.node == r.dest)).map fun r => r.dest).eraseDups.map (fun n => (0, 3, n)) ++
  ((zs.filter fun z => decide (z.outTokens < (p.listFor z.node).length)).map fun z => (z.z, 0, z.node))

/-- Record capacity failures and give the step up (R142, R194). -/
def State.failDispatch (s : State) (p : HgStep) (fails : List (Nat × Nat × Nat)) : State :=
  (fails.foldl (fun s f => s.zoneOverflow f.1 f.2.1 p.layer f.2.2) s).abandonStep p

/-- Write a dispatch list with its header last (R188). -/
def State.writeList (s : State) (p : HgStep) (z : Zone) (rs : List RouteRec) : State :=
  let who : Requester := .engine s.firstEngine 2
  let base := regionAddr (s.landRegion p.parity) (z.list * 4096)
  let s := (s.writeLocal who (base + 64) (rs.map fun r => r.bytes s.node).flatten false).2
  (s.writeLocal who base (leBytes 8 p.number ++ leBytes 4 rs.length ++ leBytes 2 z.node ++
    leBytes 2 (p.layer + p.parity * 2 ^ 12) ++ List.replicate 48 0) false).2

/-- The row a record carries: the token's hidden row and predictor values, or for a relayed record the row as it landed; and
whether it is poisoned (R190, R197). -/
def State.recordRow (s : State) (p : HgStep) (r : RouteRec) : List Byte × Bool × State :=
  let l := p.lay
  let who : Requester := .engine (p.engineOf r.pos) 2
  if r.relayed then
    match s.zoneOf r.origin with
    | some z =>
      let a := regionAddr (s.landRegion p.parity) (dzRow z.dz z.inTokens r.tokenSlot l.rowBytes)
      let (st, bs, s) := s.readLocal who a l.rowBytes
      (bs, st != 0, s)
    | none => (List.replicate l.rowBytes 0, true, s)
  else
    let n := 128 * l.hBlks * inBytes l.inFmt
    let (st, bs, s) := s.readLocal who (regionAddr (s.gateRegion p.parity) (p.hidOffset + r.pos * p.hidStride)) n
    (bs ++ ((nthD p.preds r.pos []).map (leBytes 2)).flatten, st != 0, s)

/-- Send a list's entries, rows and DISPATCH_SEAL to a member (R62, R190 to R193). -/
def State.sendList (s : State) (p : HgStep) (z : Zone) (rs : List RouteRec) : State :=
  let l := p.lay
  let region := s.landRegion p.parity
  let s := s.writeList p z rs
  let e0 := match rs with | r :: _ => p.engineOf r.pos | [] => s.firstEngine
  let s := s.sendLines e0 z.node region (dzEntry z.peerDz 0) (rs.map fun r => r.entry p).flatten false
  let s := rs.foldl (fun s r =>
    let (row, bad, s) := s.recordRow p r
    s.sendLines (p.engineOf r.pos) z.node region (dzRow z.peerDz z.outTokens r.retIndex l.rowBytes)
      ((row ++ List.replicate l.rowBytes 0).take l.rowBytes) bad) s
  let stores := ceilDiv (32 * rs.length) 256 + rs.length * (l.rowBytes / 256)
  let s := s.sendLine s.firstEngine z.node region (z.peerDz * 4096)
    (sealBytes p.number rs.length stores s.node p.layer p.parity (l.rowBytes / 256) false) false true
  let own := (rs.filter fun r => !r.relayed).length
  let s := s.countWrap Reg.HG_CNT_RELAYED Fld.HG_CNT_RELAYED_RELAYED (rs.length - own)
  if z.node = s.node then s.countWrap Reg.HG_CNT_LOCAL Fld.HG_CNT_LOCAL_LOCAL own
  else s.countWrap Reg.HG_CNT_SENT Fld.HG_CNT_SENT_SENT own

/-- Load-board words of other-rack replicas: the claims sent to that rack for the expert in this step (R182). -/
def State.boardOtherRacks (s : State) (p : HgStep) : State :=
  let l := p.lay
  p.place.foldl (fun s e =>
    let w := e.2
    let rack := bitsOf w 8 8
    if bitAt w 28 && rack != s.node / 256 then
      let x := e.1 / 8
      let mine (r : RouteRec) : Bool :=
        r.expertSlot == 0xFFF && r.dest / 256 == rack && (if r.kind = 3 then l.e + r.expert else r.expert) == x
      let load := min (p.records.filter mine).length 65535
      (s.writeLocal (.engine s.firstEngine 1) (regionAddr s.loadRegion (32 * ((p.base + x) % 262144) + 4 * (e.1 % 8)))
        (leBytes 4 (load + p.number % 2 ^ 16 * 2 ^ 16)) false).2
    else s) s

/-- Own-rack load-board words when landing completes at this owner (R182): a swap into every own-rack node's board, a local
write for itself. -/
def State.boardSwaps (s : State) (par : Nat) : State :=
  let zs := s.zonesByNode
  match zs with
  | [] => s
  | z0 :: _ =>
    let x := s.landing (landKey z0.z false par)
    let (es, s) := zs.foldl (fun (acc : List (Option Nat) × State) z =>
      let (e, s) := acc.2.readEntries par z (s.landing (landKey z.z false par)).tokens
      (acc.1 ++ e, s)) ([], s)
    (s.slotsOf x.layer).foldl (fun s slot =>
      let m := (entriesOf es slot).length
      if m = 0 then s
      else
        let w := s.reg (Reg.HG_SLOT0 slot)
        let o := 32 * bitsOf w 26 18 + 4 * bitsOf w 44 3
        let v := min m 65535 + x.step % 2 ^ 16 * 2 ^ 16
        let p := (s.region s.loadRegion).place s.loadRegion o
        zs.foldl (fun s z =>
          if z.node = s.node then
            (s.writeLocal (.engine s.firstEngine 2) (regionAddr s.loadRegion o) (leBytes 4 v) false).2
          else if z.node / 256 = s.node / 256 then
            s.issueOp { who := .engine s.firstEngine 2, op := Op.atomic, mgmt := false, addr := nodeAddr z.node (dieOffset p.1 p.2),
                        len := 4, be := 255, aop := 6, signed := false, seal_ := false, poison := false, data := leBytes 8 v,
                        sink := .none }
          else s) s) s

/-- Do the load-board swaps that completed landings have called for. -/
def State.runSwaps (s : State) : State :=
  let due := s.hg.swapDue
  let s : State := { s with hg := { s.hg with swapDue := [] } }
  due.foldl State.boardSwaps s

-- Dispatch ---------------------------------------------------------------------------------------------------------

/-- The zones whose peers relay through this device. -/
def State.relayZones (s : State) : List Zone := sortBy (fun a b => decide (a.node ≤ b.node)) (s.zones.filter fun z => z.relaySrc)

/-- SORT_AND_DISPATCH: the oldest routing step whose selection has ended is sorted and sent (R59 stage 3, R62, R186 to R193).
A gateway holds what it sends inside its rack until its relay zones are complete (R65, R197). The gate region is released. -/
def State.sortAndDispatch (s : State) : State :=
  match s.hg.steps.find? fun p => p.stage = .selected && !s.hgHeld with
  | none => s
  | some p =>
    let fails := s.dispatchFails p
    if !fails.isEmpty then s.failDispatch p fails
    else
      let zs := s.zones
      let p : HgStep := { p with lists := zs.map fun z => (z.z, p.listFor z.node), stage := .dispatched }
      let hold (z : Zone) : Bool := !s.relayZones.isEmpty && z.node / 256 == s.node / 256
      let p : HgStep := { p with unsent := (zs.filter hold).map fun z => z.z }
      let s := s.boardOtherRacks p
      let s := s.setStep p
      let s := zs.foldl (fun s z => if hold z then s else s.sendList p z (p.listFor z.node)) s
      let s := s.regionRelease (s.gateRegion p.parity)
      s.runSwaps

/-- Relayed records of one relay zone (R197): chosen among own-rack replicas, numbered per origin and expert. -/
def State.relayRecords (s : State) (p : HgStep) (z : Zone) (es : List (Option Nat)) : List RouteRec × List Nat :=
  let r := (List.range es.length).foldl (fun (acc : List RouteRec × List Nat × List (Nat × Nat)) i =>
    match nthD es i none with
    | none => (acc.1, acc.2.1 ++ [i], acc.2.2)
    | some w =>
      let kind := bitsOf w 16 2
      let expert := bitsOf w 32 16
      let x := if kind = 3 then p.lay.e + expert else expert
      let key := qKey x kind
      let q := tblGetD key 0 acc.2.2
      let reps := (p.replicas x (kind == 2)).filter fun r => r.node / 256 == s.node / 256
      let loc := sortReplicas reps
      match loc[q % max loc.length 1]? with
      | none => (acc.1, acc.2.1 ++ [i], acc.2.2)
      | some r => (acc.1 ++ [⟨0, i, r.slot, r.idx, r.node, kind, bitsOf w 18 5, true, 0, z.node, 0, expert⟩], acc.2.1,
                   tblSet key (q + 1) acc.2.2)) ([], [], [])
  (r.1, r.2.1)

/-- GATEWAY_RELAY: once every relay zone of the step is complete, relayed records join the in-rack lists, which are sent
(R65, R186, R197). -/
def State.gatewayRelay (s : State) : State :=
  match s.hg.steps.find? fun p => p.stage = .dispatched && !p.unsent.isEmpty && !s.sw.stopped with
  | none => s
  | some p =>
    let rz := s.relayZones
    let ready (z : Zone) : Bool :=
      let x := s.landing (landKey z.z false p.parity)
      x.complete && x.step == p.number
    if !rz.all ready then s
    else
      let (recs, s) := rz.foldl (fun (acc : List RouteRec × State) z =>
        let (es, s) := acc.2.readEntries p.parity z (acc.2.landing (landKey z.z false p.parity)).tokens
        (acc.1 ++ (s.relayRecords p z es).1, s)) ([], s)
      let lists := p.lists.map fun e =>
        let node := ((s.zones.find? fun z => z.z == e.1).map fun z => z.node).getD 0
        (e.1, numbered (e.2 ++ recs.filter fun r => r.dest == node))
      let fails := ((s.zones.filter fun z => decide (z.outTokens < (tblGetD z.z [] lists).length)).map fun z => (z.z, 0, z.node)) ++
        ((recs.filter fun r => !(s.zones.any fun z => z.node == r.dest)).map fun r => r.dest).eraseDups.map (fun n => (0, 3, n))
      if !fails.isEmpty then s.failDispatch p fails
      else
        let counts := rz.map fun z => (z.z, (s.landing (landKey z.z false p.parity)).tokens)
        let p' : HgStep := { p with lists := lists, unsent := [], relayN := counts }
        let s := s.setStep p'
        let s := (s.zones.filter fun z => p.unsent.contains z.z).foldl (fun s z => s.sendList p' z (tblGetD z.z [] lists)) s
        s.runSwaps

-- The owner --------------------------------------------------------------------------------------------------------

/-- Send one return row, or a poisoned one (R201, R202). -/
def State.sendReturn (s : State) (o : OwnerStep) (z : Zone) (i : Nat) (row : List Byte) (poison : Bool) : State :=
  let n := s.retRowBytes (s.layerFor o.number o.layer)
  let s := s.sendLines s.firstEngine z.node (s.landRegion o.parity) (rzRow z.peerRz z.inTokens i n)
    ((row ++ List.replicate n 0).take n) poison
  s.countWrap Reg.HG_CNT_RETURNED Fld.HG_CNT_RETURNED_RETURNED 1

/-- Scale lines of a zone's returns (R193). -/
def OwnerStep.scaleBytes (o : OwnerStep) (z n : Nat) : List Byte :=
  ((List.range n).map fun i => leBytes 4 (tblGetD (65536 * z + i) 0 o.scales)).flatten

/-- Send a peer its scale lines and RETURN_SEAL (R68, R192, R193). -/
def State.sendReturnSeal (s : State) (o : OwnerStep) (z : Zone) (n : Nat) : State :=
  let l := s.layerFor o.number o.layer
  let rrb := s.retRowBytes l
  let region := s.landRegion o.parity
  let lines := if s.retFp8 then ceilDiv (4 * n) 256 else 0
  let s := if s.retFp8 then s.sendLines s.firstEngine z.node region (rzScale z.peerRz 0) (o.scaleBytes z.z n) false else s
  s.sendLine s.firstEngine z.node region (z.peerRz * 4096)
    (sealBytes o.number n (n * (rrb / 256) + lines) s.node o.layer o.parity (rrb / 256) true) false true

def HgState.setOwner (h : HgState) (o : OwnerStep) : HgState :=
  { h with owners := h.owners.map fun q => if q.number == o.number then o else q }

/-- Is routing step `n - 1` still held by dispatch zones here (R64)? -/
def State.earlierHeld (s : State) (n : Nat) : Bool :=
  n != 0 && (s.hg.owners.any (fun o => o.number + 1 == n) ||
    s.zones.any fun z => let x := s.landing (landKey z.z false ((n - 1) % 2)); x.sealWord.isSome && x.step + 1 == n)

/-- A step at the owner ends when every slot is done: its dispatch zones are released and each peer gets its RETURN_SEAL, relay
sources excepted (R64, R68, R197, R201). -/
def State.finishOwner (s : State) (o : OwnerStep) : State :=
  if !o.slots.all (fun w => w.pushed && (w.done || w.rows.isEmpty)) || s.earlierHeld o.number then s
  else
    let counts := s.zones.map fun z => (z, (s.landing (landKey z.z false o.parity)).tokens)
    let gone (k : Nat) : Bool := k % 2 == o.parity && k / 2 % 2 == 0
    let s : State := { s with hg := { s.hg with landings := s.hg.landings.filter fun e => !gone e.1,
                                                owners := s.hg.owners.filter fun q => q.number != o.number } }
    counts.foldl (fun s c => if c.1.relaySrc then s else s.sendReturnSeal o c.1 c.2) s

/-- End every step at the owner that can end, oldest first. -/
def State.finishOwners (s : State) : State :=
  (sortBy (fun (a b : OwnerStep) => decide (a.number ≤ b.number)) s.hg.owners).foldl State.finishOwner s

/-- A SLOT_UNKNOWN record (R202). -/
def State.slotUnknown (s : State) (slot sender kind layer : Nat) : State :=
  let s := s.countSat Reg.HG_CNT_FAULTS Fld.HG_CNT_FAULTS_SLOT_UNKNOWNS 1
  s.fault (engineUnit s.firstEngine 2) Code.slotUnknown none (slot % 4096 + sender * 2 ^ 12 + kind * 2 ^ 28 + layer * 2 ^ 32)

/-- Why an entry has no slot of the layer here, if so (R202 kinds 0 and 1); an entry that reads bad has kind 2 here and writes no
record. -/
def State.entryFault (s : State) (e : Option Nat) (layer : Nat) : Option Nat :=
  match e with
  | none => some 2
  | some w =>
    let v := s.reg (Reg.HG_SLOT0 (entrySlot w))
    if !bitAt v 0 then some 0
    else if bitsOf v 2 12 != entryLayer w || entryLayer w != layer then some 1 else none

/-- Result rows and scales of the slots with tokens, laid out in ascending slot order (R199 item 3): the slots' work and the end
offset. -/
def layoutResults (rrb : Nat) : List (Nat × List (Nat × Nat)) → Nat → List SlotWork × Nat
  | [], o => ([], o)
  | (slot, rows) :: rest, o =>
    let m := rows.length
    let scale := o + m * rrb
    let next := if m = 0 then o else scale + up256 (4 * m)
    let (ws, e) := layoutResults rrb rest next
    (⟨slot, rows, o, scale, false, false⟩ :: ws, e)

/-- The 64 bytes of a shape record (R200). -/
def State.shapeBytes (s : State) (o : OwnerStep) (w : SlotWork) (k : Nat) : List Byte :=
  let l := s.layerFor o.number o.layer
  let land := s.landRegion o.parity
  let m := w.rows.length
  leBytes 2 w.slot ++ leBytes 2 (o.layer + o.parity * 2 ^ 12) ++ leBytes 4 m ++ leBytes 8 o.number ++
  leBytes 8 (regionAddr land (s.runTable k)) ++ leBytes 8 (if m = 0 then 0 else regionAddr land w.result) ++
  leBytes 8 (s.reg (Reg.HG_SLOT1 w.slot)) ++ leBytes 2 s.zones.length ++
  leBytes 2 (l.rowBytes / 256 + s.retRowBytes l / 256 * 256) ++
  leBytes 2 (l.inFmt + s.fld Reg.HG_XCH_CFG Fld.HG_XCH_CFG_RET_FMT * 4 + l.predR * 16) ++ leBytes 1 land ++ leBytes 1 0 ++
  leBytes 8 (if m != 0 && s.retFp8 then regionAddr land w.scale else 0) ++ leBytes 8 (regionAddr land s.workStart)

/-- Push the shape records that have not left yet, in ascending slot order, until a channel is full (R200). -/
def State.pushShapes (s : State) (o : OwnerStep) : State :=
  let r := o.slots.zipIdx.foldl (fun (acc : List SlotWork × Bool × State) e =>
    if e.1.pushed || acc.2.1 then (acc.1 ++ [e.1], acc.2.1, acc.2.2)
    else
      let (ok, s) := acc.2.2.pushNow (.engine s.firstEngine 2) (s.fld (Reg.HG_SLOT0 e.1.slot) Fld.HG_SLOT0_CHANNEL) true
        (s.shapeBytes o e.1 e.2)
      (acc.1 ++ [{ e.1 with pushed := ok }], !ok, s)) ([], false, s)
  let t : State := r.2.2
  { t with hg := t.hg.setOwner { o with slots := r.1 } }

/-- Take up a step whose dispatch zones are all complete: group its tokens by slot in sender order, and return at once, poisoned,
the rows that have no slot or no room (R66, R67, R194 kind 2, R199, R202). A step that does not fit the work area pushes no shape
records (DESIGN CHOICE, log entry 14). -/
def State.takeOwner (s : State) (par : Nat) : State :=
  let zs := s.zonesByNode
  match zs with
  | [] => s
  | z0 :: _ =>
    let x := s.landing (landKey z0.z false par)
    let layer := x.layer
    let (per, s) := zs.foldl (fun (acc : List (Zone × List (Option Nat)) × State) z =>
      let (es, s) := acc.2.readEntries par z (s.landing (landKey z.z false par)).tokens
      (acc.1 ++ [(z, es)], s)) ([], s)
    let own := per.filter fun e => !e.1.relaySrc
    let slots := s.slotsOf layer
    let rowsOf (slot : Nat) : List (Nat × Nat) :=
      (own.map fun e => ((entriesOf e.2 slot).filter fun i => s.entryFault (nthD e.2 i none) layer == none).map
        fun i => (e.1.z, i)).flatten
    let (work, stop) := layoutResults (s.retRowBytes (s.layerFor x.step layer)) (slots.map fun k => (k, rowsOf k)) (s.resultsStart slots.length)
    let fits := decide (stop ≤ s.workStart + s.fld Reg.HG_XCH_WORK Fld.HG_XCH_WORK_WORK_GRANS * 4096)
    let o : OwnerStep := { number := x.step, parity := par, layer := layer, scales := [],
                           slots := if fits then work else work.map fun w => { w with pushed := true, done := true } }
    let s : State := { s with hg := { s.hg with owners := s.hg.owners ++ [o] } }
    let s := if fits then s else s.zoneOverflow 0 2 layer 0
    own.foldl (fun s e => (List.range e.2.length).foldl (fun s i =>
      match s.entryFault (nthD e.2 i none) layer with
      | some k =>
        let s := if k < 2 then s.slotUnknown (entrySlot ((nthD e.2 i none).getD 0)) e.1.node k (entryLayer ((nthD e.2 i none).getD 0))
                 else s
        s.sendReturn o e.1 i [] true
      | none => if fits then s else s.sendReturn o e.1 i [] true) s) s

/-- SHAPE_RECORDS: a step whose dispatch zones are all complete is taken up, and the shape records still to leave are pushed
(R66, R199, R200). -/
def State.shapeRecords (s : State) : State :=
  let ready := [0, 1].filter fun par =>
    !s.hgHeld && !s.zones.isEmpty && s.allComplete false par &&
    !(s.hg.owners.any fun o => o.parity == par)
  let stepOf (par : Nat) : Nat := match s.zones with | z :: _ => (s.landing (landKey z.z false par)).step | [] => 0
  let s := (sortBy (fun a b => decide (stepOf a ≤ stepOf b)) ready).foldl State.takeOwner s
  let s := if s.hgHeld then s else s.hg.owners.foldl State.pushShapes s
  s.finishOwners.runSwaps

/-- Take the return rows of a done slot: each row from the result area into its origin's return zone, with its scale (R201). -/
def State.returnRows (s : State) (o : OwnerStep) (w : SlotWork) (fault : Bool) : OwnerStep × State :=
  let rrb := s.retRowBytes (s.layerFor o.number o.layer)
  let land := s.landRegion o.parity
  w.rows.zipIdx.foldl (fun (acc : OwnerStep × State) e =>
    let s := acc.2
    match s.zones.find? fun z => z.z == e.1.1 with
    | none => acc
    | some z =>
      let who : Requester := .engine s.firstEngine 2
      let (st, row, s) := s.readLocal who (regionAddr land (w.result + e.2 * rrb)) rrb
      let (st2, sc, s) := if s.retFp8 then s.readLocal who (regionAddr land (w.scale + 4 * e.2)) 4 else (0, [], s)
      let o := { acc.1 with scales := if s.retFp8 then tblSet (65536 * z.z + e.1.2) (leNat sc) acc.1.scales else acc.1.scales }
      (o, s.sendReturn o z e.1.2 row (fault || st != 0 || st2 != 0))) (o, s)

/-- DONE_ITEM: the Headgate pops its done channel (R201); a stray or miscounted item is discarded (R202 kind 2). -/
def State.doneItem (s : State) : State :=
  if s.sw.stopped then s else
  let (item, s) := s.popNow (.engine s.firstEngine 2) (s.fld Reg.HG_XCH_WORK Fld.HG_XCH_WORK_DONE_CHANNEL)
  match item with
  | none => s
  | some (bs, _, bad) =>
    let slot := leNat (sliceOf bs 0 2) % 4096
    let rows := leNat (sliceOf bs 4 4)
    let number := leNat (sliceOf bs 8 8)
    let fault := bitAt (leNat (sliceOf bs 16 1)) 0
    match s.hg.owners.find? fun o => o.number == number with
    | none => s.slotUnknown slot s.node 2 0
    | some o => match o.slots.find? fun w => w.slot == slot && w.pushed && !w.done && !w.rows.isEmpty with
      | none => s.slotUnknown slot s.node 2 o.layer
      | some w =>
        if bad || rows != w.rows.length then s.slotUnknown slot s.node 2 o.layer
        else
          let (o, s) := s.returnRows o w fault
          let o : OwnerStep := { o with slots := o.slots.map fun v => if v.slot == slot then { v with done := true } else v }
          let s : State := { s with hg := s.hg.setOwner o }
          s.finishOwners.runSwaps

-- The combine ------------------------------------------------------------------------------------------------------

/-- The return row of a record as FP32 elements, or none when it reads bad (R204). -/
def State.returnRow (s : State) (p : HgStep) (r : RouteRec) : Option (List Nat) × State :=
  let l := p.lay
  let h := 128 * l.hBlks
  let who : Requester := .engine (p.engineOf r.pos) 3
  match s.zoneOf r.dest with
  | none => (none, s)
  | some z =>
    let land := s.landRegion p.parity
    let (st, bs, s) := s.readLocal who (regionAddr land (rzRow z.rz z.outTokens r.retIndex (s.retRowBytes l))) (s.retRowBytes l)
    if st != 0 then (none, s)
    else if s.retFp8 then
      let (st, sc, s) := s.readLocal who (regionAddr land (rzScale z.rz r.retIndex)) 4
      if st != 0 then (none, s)
      else (some ((bs.take h).map fun b => toF32 ((fdecode e4m3 b.toNat).mul (f32 (leNat sc)))), s)
    else (some ((List.range h).map fun i => ofBf16 (leNat (sliceOf bs (2 * i) 2))), s)

/-- One accumulation of R204 in the accumulator's format. -/
def accStep (bf : Bool) (w : Nat) (acc v : List Nat) : List Nat :=
  List.zipWith (fun a x => let y := ((f32 w).mul (f32 x)).add (f32 a)
    if bf then ofBf16 (fencode bf16 false y) else toF32 y) acc v

/-- Fold a token's served claims in ascending rank; none when a return row is bad (R204). -/
def State.accClaims (s : State) (p : HgStep) (bf : Bool) : List RouteRec → List Nat → Option (List Nat) × State
  | [], acc => (some acc, s)
  | r :: rs, acc =>
    let (row, s) := s.returnRow p r
    match row with
    | none => (none, s)
    | some v => State.accClaims s p bf rs (accStep bf r.weight acc v)

/-- Combine one token and write its output row (R204). -/
def State.combineToken (s : State) (p : HgStep) (t : Nat) : State :=
  let l := p.lay
  let h := 128 * l.hBlks
  let slot := (p.token t).slot
  let who : Requester := .engine (p.engineOf t) 3
  let fp := s.flag Reg.HG_XCH_CFG Fld.HG_XCH_CFG_OUT_FMT
  let bf := s.flag Reg.HG_XCH_CFG Fld.HG_XCH_CFG_ACC_FMT
  let poison (s : State) : State := (s.poisonRow l p.parity slot).countWrap Reg.HG_CNT_COMBINE Fld.HG_CNT_COMBINE_POISON_ROWS 1
  if (p.token t).bad then poison s
  else
    let a := s.outRowAddr p.parity slot
    let (st, base, s) := if s.flag Reg.HG_XCH_CFG Fld.HG_XCH_CFG_BASE then s.readLocal who a (s.outRowBytes l) else (0, [], s)
    let acc := (List.range h).map fun i =>
      let v := if base.isEmpty then 0 else if fp then leNat (sliceOf base (4 * i) 4) else ofBf16 (leNat (sliceOf base (2 * i) 2))
      if bf then ofBf16 (toBf16 v) else v
    if st != 0 then poison s
    else
      let rs := sortBy (fun (a b : RouteRec) => decide (a.rank ≤ b.rank)) (((p.lists.map fun e => e.2).flatten).filter
        fun r => !r.relayed && r.pos == t)
      let (out, s) := s.accClaims p bf rs acc
      match out with
      | none => poison s
      | some xs =>
        let bytes := (xs.map fun x => if fp then leBytes 4 x else leBytes 2 (toBf16 x)).flatten
        let s := (s.writeLocal who a bytes false).2
        s.countWrap Reg.HG_CNT_COMBINE Fld.HG_CNT_COMBINE_COMBINED 1

/-- Each engine of the step seals a region (R69). -/
def State.sealBy (s : State) (es : List Nat) (region layer : Nat) : State :=
  es.foldl (fun s e => s.sealAll (.engine e 3) region layer) s

/-- Remove a step and release its return zones. -/
def State.endStep (s : State) (p : HgStep) : State :=
  let gone (k : Nat) : Bool := k % 2 == p.parity && k / 2 % 2 == 1
  { s with hg := { s.hg with steps := s.hg.steps.filter fun q => q.number != p.number,
                             landings := s.hg.landings.filter fun e => !gone e.1 } }

/-- A gateway passes relayed returns on: each row into the origin's return zone at row TOKEN_SLOT, then the origin's RETURN_SEAL
(R197). -/
def State.relayReturns (s : State) (p : HgStep) : State :=
  let recs := ((p.lists.map fun e => e.2).flatten).filter fun r => r.relayed
  s.relayZones.foldl (fun s z =>
    let o : OwnerStep := ⟨p.number, p.parity, p.layer, [], []⟩
    let count := tblGetD z.z 0 p.relayN
    let (o, s) := (List.range count).foldl (fun (acc : OwnerStep × State) i =>
      let s := acc.2
      match recs.find? fun r => r.origin == z.node && r.tokenSlot == i with
      | none => (acc.1, s.sendReturn acc.1 z i [] true)
      | some r => match s.zoneOf r.dest with
        | none => (acc.1, s.sendReturn acc.1 z i [] true)
        | some d =>
          let land := s.landRegion p.parity
          let who : Requester := .engine s.firstEngine 2
          let rrb := s.retRowBytes p.lay
          let (st, row, s) := s.readLocal who (regionAddr land (rzRow d.rz d.outTokens r.retIndex rrb)) rrb
          let (st2, sc, s) := if s.retFp8 then s.readLocal who (regionAddr land (rzScale d.rz r.retIndex)) 4 else (0, [], s)
          let o := { acc.1 with scales := tblSet (65536 * z.z + i) (leNat sc) acc.1.scales }
          (o, s.sendReturn o z i row (st != 0 || st2 != 0))) (o, s)
    s.sendReturnSeal o z count) s

/-- COMBINE: the oldest dispatched step whose return zones are all complete has its tokens combined; the output region is written and
sealed, and the return zones are released (R69, R204). -/
def State.combine (s : State) : State :=
  match s.hg.steps.find? fun p => p.stage = .dispatched && s.allComplete true p.parity with
  | none => s
  | some p =>
    if s.hgHeld then s
    else
      let s := s.relayReturns p
      let s := (List.range p.tokens.length).foldl (fun s t => s.combineToken p t) s
      let s := s.sealBy p.engines (s.outRegion p.parity) p.layer
      s.endStep p

/-- The nodes, in ascending order, whose return zone of a step's parity is not complete. -/
def State.lateNodes (s : State) (p : HgStep) : List Nat :=
  (s.zonesByNode.filter fun z => !(s.landing (landKey z.z true p.parity)).complete).map fun z => z.node

/-- Has a step's deadline passed at fabric time `at_` with a return zone still incomplete (R70, R94)? -/
def State.stepMissed (s : State) (at_ : Nat) (p : HgStep) : Bool :=
  p.stage != .failed && s.timeValid && decide (p.deadline ≤ at_) && !(p.stage == .dispatched && (s.lateNodes p).isEmpty)

/-- The oldest step whose deadline has passed at fabric time `at_` with a return zone incomplete is given up (R70). -/
def State.missDeadline (s : State) (at_ : Nat) : State :=
  match s.hg.steps.find? (s.stepMissed at_) with
  | none => s
  | some p =>
    if s.sw.stopped then s
    else
      let nodes := s.lateNodes p
      let present (t : Nat) : Bool := p.stage = .dispatched &&
        (((p.lists.map fun e => e.2).flatten).filter fun r => !r.relayed && r.pos == t).all fun r => !nodes.contains r.dest
      let s := (List.range p.tokens.length).foldl (fun s t =>
        if present t then s.combineToken p t
        else (s.poisonRow p.lay p.parity (p.token t).slot).countWrap Reg.HG_CNT_COMBINE Fld.HG_CNT_COMBINE_POISON_ROWS 1) s
      let s := s.sealBy p.engines (s.outRegion p.parity) p.layer
      let s := s.countSat Reg.HG_CNT_FAULTS Fld.HG_CNT_FAULTS_DEADLINES 1
      let s := s.fault (engineUnit s.firstEngine 3) Code.deadlineMissed none (nodes.headD 0 + min nodes.length 65535 * 2 ^ 16)
      let s := s.endStep p
      { s with hg := { s.hg with faulted := true, missed := (p.parity :: s.hg.missed).eraseDups, landReset := [] } }

/-- EXCHANGE_DEADLINE: the oldest step that has missed its deadline is given up (R70). -/
def State.exchangeDeadline (s : State) : State := s.missDeadline s.now

end Sys2Proof.Machine
end

