-- ==== Sys2Proof/Machine/Jorper.lean ====
section
/-! DEFINITION. Fabric operations as commands: issue, service of the cells a port die ejects, answers, the dead-target bound, fences
and the cores' atomics (R335 to R361, R557). -/

namespace Sys2Proof.Machine

-- Issue ------------------------------------------------------------------------------------------------------------

/-- Is an address a fabric address (R37, R42)? -/
def State.isFabric (s : State) (a : Nat) : Bool :=
  match s.decode a with
  | .node _ _ => true
  | .rack _ => true
  | _ => decide (2 ^ 63 ≤ a)

/-- The spans of a transfer between aligned 256-byte boundaries of its address (R336); `fuel` bounds them. -/
def spans256 : Nat → Nat → Nat → List (Nat × Nat)
  | 0, _, _ => []
  | fuel + 1, a, n =>
    if n = 0 then []
    else
      let m := min n (256 - a % 256)
      (a, m) :: spans256 fuel (a + m) (n - m)

/-- The STOREs that a descriptor's arrived data makes whole, and what still waits: one for each part of the destination between aligned
256-byte boundaries (R336), poisoned when any of its data is. -/
def DmaRun.stores (r : DmaRun) : List (Nat × (Bool × List Byte)) × List (Nat × (Bool × List Byte)) :=
  let len := bitsOf (nthD r.words 2 0) 0 32
  (spans256 (len / 256 + 2) (nthD r.words 1 0) len).foldl (fun acc p =>
    let mine := acc.2.filter fun u => u.1 / 256 == p.1 / 256
    if sumNats (mine.map fun u => u.2.2.length) < p.2 then acc
    else
      let es := sortBy (fun a b => decide (a.1 ≤ b.1)) mine
      (acc.1 ++ [(p.1, (es.any fun u => u.2.1, (es.map fun u => u.2.2).flatten))], acc.2.filter fun u => u.1 / 256 != p.1 / 256))
    ([], r.unsent)

/-- Store to the fabric what DMA descriptors have read (R221, R336). -/
def State.dmaPump (s : State) : State :=
  s.cls.foldl (fun s e =>
    e.2.dmaRun.foldl (fun s r =>
      let c := s.cluster e.1
      match tblFind r.1 c.dmaRun with
      | none => s
      | some run =>
        let (out, rest) := run.stores
        let s := s.setCluster e.1 { c with dmaRun := tblSet r.1 { run with unsent := rest } c.dmaRun }
        out.foldl (fun s u =>
          s.issueOp ⟨.dma e.1 r.1, Op.store, false, u.1, u.2.2.length, 255, 0, false, false, u.2.1, u.2.2, .none⟩) s) s) s

/-- The failed outcome of an atomic that names memory no atomic unit serves (R355), and of any other unmapped operation. -/
def State.refuseOp (s : State) (q : OpReq) : State :=
  (s.unmapped q.who q.addr q.kind).deliver ⟨q.who, q.op, q.mgmt, q.addr, s.node, q.len, q.sink, q.len == 8, 0, false⟩
    Code.addressUnmapped []

/-- Is this a core's store into the collective area of its cluster's code area (R373)? -/
def State.inCollective (s : State) (q : OpReq) : Bool :=
  match q.who, s.decode q.addr with
  | .core _ _, .scratch _ o => q.op == Op.store && decide (0xFF_8000 < o + q.len)
  | _, _ => false

/-- An operation to the local map, which needs no fabric (R43): memory is accessed at once; a store to companion memory is posted
and a load from it waits for its line; atomics work on HBM and the Reservoir alone (R355). -/
def State.localOp (s : State) (q : OpReq) : State :=
  let o : OpenOp := ⟨q.who, q.op, q.mgmt, q.addr, s.node, q.len, q.sink, q.len == 8, 0, false⟩
  if q.op = Op.atomic then
    if !q.aligned then s.refuseOp q
    else match s.decode q.addr with
      | .hbm _ | .rsv _ _ _ =>
        let (st, v, s) := s.atomicAt q.who s.node false q.addr q.len q.aop q.signed (leNat (q.data.take 8)) (leNat (sliceOf q.data 8 8))
        s.deliver o st (leBytes 8 v)
      | _ => s.refuseOp q
  else match s.decode q.addr with
    | .hbm _ | .rsv _ _ _ | .scratch _ _ =>
      if s.inCollective q then s.refuseOp q
      else if q.op = Op.load then
        let (st, bs, s) := s.readLocal q.who q.addr q.len
        s.deliver o st bs
      else
        let be := if q.len = 8 then q.be else 2 ^ q.len - 1
        let (st, s) := s.writeLocalBe (q.len / 4096 + 2) q.who s.node q.addr be (q.data.take q.len) q.poison
        (s.poisonReached q.addr q.len q.poison).deliver o st []
    | .companion a =>
      if q.op = Op.load then s.companionLoad q.who (a - companionBase) q.len q.sink
      else s.companionWrite q.who q.addr (q.data.take q.len)
    | _ => s.refuseOp q

/-- Issue an operation to any address. -/
def State.issueAny (s : State) (q : OpReq) : State :=
  if s.isFabric q.addr then s.issueOp q else s.localOp q

/-- Only Watermaster cores and port dies issue MGMT operations (R344). -/
def mgmtIssuer : Requester → Bool
  | .wm _ => true
  | .port _ => true
  | _ => false

/-- May a requester issue? None may behind a push with FENCE that has not taken effect (R352, R353); a core must stand at an instruction. -/
def State.mayIssue (s : State) (who : Requester) : Bool :=
  !s.pushFenced who && (match coreKey who with
    | none => true
    | some i => s.coreSteps i)

/-- The store an atomic port waits with is issued when none of its atomics is open (R357). -/
def State.atomPort (s : State) (i v : Nat) : State :=
  let n := i / 4
  let k := i % 4
  let len := if bitAt v 4 then 8 else 4
  s.issueAny ⟨.core n k, Op.atomic, false, s.reg (Reg.CL_ATOM_ADDR n k), len, 255, bitsOf v 0 4, bitAt v 5, false, false,
    leBytes 8 (s.reg (Reg.CL_ATOM_OPND n k)) ++ leBytes 8 (s.reg (Reg.CL_ATOM_SWAP n k)), .atomPort⟩

/-- Is an atomic of a core's atomic port outstanding? -/
def State.atomBusy (s : State) (i : Nat) : Bool :=
  let mine (o : OpenOp) : Bool := o.sink == .atomPort && o.who == .core (i / 4) (i % 4)
  s.fab.opens.any (fun e => mine e.2) || s.fab.waiting.any (fun w => mine w.op)

/-- The CTRL writes that wait at a core's atomic port go ahead, the next one as soon as none is outstanding (R357); `fuel` bounds them. -/
def State.atomNext (i : Nat) : Nat → State → State
  | 0, s => s
  | fuel + 1, s =>
    if s.atomBusy i then s
    else match (s.core i).atomWait with
      | [] => s
      | v :: vs => State.atomNext i fuel ((s.onCore i fun c => { c with atomWait := vs }).atomPort i v)

/-- CTRL writes that waited go ahead at every core. -/
def State.atomPump (s : State) : State := s.cores.foldl (fun s e => State.atomNext e.1 e.2.atomWait.length s) s

/-- Entries have closed: what waited for them goes on. -/
def State.afterClose (s : State) : State := s.acceptWaiting.dmaPump.atomPump.runSwaps

/-- Where the part of a transfer that begins `k` bytes on goes. -/
def sinkPart : Sink → Nat → Sink
  | .dma dst off, k => .dma (dst + k) (off + k)
  | x, _ => x

/-- Does the agent split a transfer at 256-byte boundaries (R336)? Those of a DMA engine, whole words from an aligned address. -/
def splits (who : Requester) (addr len : Nat) : Bool :=
  (match who with | .dma _ _ => true | _ => false) && addr % 8 == 0 && len % 8 == 0

/-- LOAD_ISSUE: an engine loads from a fabric address (R335, R336, R343, R345). -/
def State.loadIssue (s : State) (who : Requester) (mgmt : Bool) (addr len : Nat) (sink : Sink) : State :=
  let q : OpReq := ⟨who, Op.load, mgmt && mgmtIssuer who, addr, len, 255, 0, false, false, false, [], sink⟩
  if !s.mayIssue who then s
  else if splits who addr len then
    ((spans256 (len / 256 + 2) addr len).foldl (fun s p =>
      s.issueAny { q with addr := p.1, len := p.2, sink := sinkPart sink (p.1 - addr) }) s).afterClose
  else (s.issueAny q).afterClose

/-- STORE_ISSUE: an engine stores to a fabric address; for a core the store retires at once (R335, R336, R350). -/
def State.storeIssue (s : State) (who : Requester) (mgmt : Bool) (addr be : Nat) (data : List Byte) (poison : Bool)
    (ilen : Nat) : State :=
  if !s.mayIssue who then s
  else
    let q : OpReq := ⟨who, Op.store, mgmt && mgmtIssuer who, addr, data.length, be, 0, false, false, poison, data, .none⟩
    let s := if splits who addr data.length then
        (pieces256 (data.length / 256 + 2) addr data).foldl (fun s p =>
          s.issueAny { q with addr := p.1, len := p.2.length, data := p.2 }) s
      else s.issueAny q
    let s := match coreKey who with
      | some i => s.onCore i fun c => c.advance ilen
      | none => s
    s.afterClose

/-- ATOMIC_ISSUE: an engine issues an atomic (R335, R343). -/
def State.atomicIssue (s : State) (who : Requester) (mgmt : Bool) (addr aop : Nat) (wide signed : Bool) (opnd swap : Nat)
    (sink : Sink) : State :=
  if !s.mayIssue who then s
  else (s.issueAny ⟨who, Op.atomic, mgmt && mgmtIssuer who, addr, if wide then 8 else 4, 255, aop, signed, false, false,
      leBytes 8 opnd ++ leBytes 8 swap, sink⟩).afterClose

/-- FENCE: the core waits until every earlier operation of it has closed (R353). -/
def State.fence (s : State) (who : Requester) : State :=
  match coreKey who with
  | none => s
  | some i => if s.coreSteps i then (s.onCore i fun c => { c with fencing := true }).fenceCheck who else s

/-- The atomic operation and signedness of an AMO instruction (R356). -/
def amoAop : AmoOp → Nat × Bool
  | .add => (0, false)
  | .swap => (6, false)
  | .and => (3, false)
  | .or => (4, false)
  | .xor => (5, false)
  | .min => (1, true)
  | .max => (2, true)
  | .minu => (1, false)
  | .maxu => (2, false)

/-- AMO: a core's AMO instruction on the address in rs1 with the operand in rs2 (R355, R356). -/
def State.amo (s : State) (who : Requester) (op : AmoOp) (wide : Bool) (rd rs1 rs2 : Nat) : State :=
  match coreKey who with
  | none => s
  | some i =>
    if !s.mayIssue who then s
    else
      let c := s.core i
      (s.issueAny ⟨who, Op.atomic, false, c.readX rs1, if wide then 8 else 4, 255, (amoAop op).1, (amoAop op).2, false, false,
        leBytes 8 (c.readX rs2), .reg rd 4⟩).afterClose

/-- LR_SC: an LR or SC instruction to a fabric address takes a store/AMO access fault (R356). -/
def State.lrSc (s : State) (who : Requester) (rs1 : Nat) : State :=
  match coreKey who with
  | none => s
  | some i =>
    let a := (s.core i).readX rs1
    if s.coreSteps i && s.isFabric a then s.trapCore i 7 a else s

/-- CL_ATOM_CTRL_WRITE: the atomic port of a core that stands at an instruction issues, or holds the write while one is outstanding (R352,
R357). -/
def State.atomCtrl (s : State) (n k v : Nat) : State :=
  let i := 4 * n + k % 4
  if !s.clusterPresent n || !s.mayIssue (.core n (k % 4)) then s
  else if s.atomBusy i || !(s.core i).atomWait.isEmpty then s.onCore i fun c => { c with atomWait := c.atomWait ++ [v] }
  else (s.atomPort i v).afterClose

-- Ejection at the target -------------------------------------------------------------------------------------------

/-- Does the cell's form stand under R335, R336, R354 and R339 (R347)? -/
def cellFormOk (c : Cell) : Bool :=
  let lenOk := c.offset % 8 == 0 && decide (c.offset % 256 + c.len ≤ 256)
  if c.op = Op.load || c.op = Op.store then lenOk
  else if c.op = Op.atomic then
    let w := if c.aw then 8 else 4
    aopOk c.aop w && c.offset % w == 0 && c.lenW == (if c.aop = 7 then 1 else 0)
  else if c.op = Op.ack then
    let n := c.offset % 128
    decide (1 ≤ n) && decide (n ≤ 64) && c.lenW + 1 == ceilDiv n 2
  else c.op == Op.loadRsp || c.op == Op.atomicRsp

/-- The class whose queue a port die drains next (R349): MGMT, RSP, REQ, BULK, with BULK at least once in four. -/
def State.drainClass (s : State) (d : Nat) : Option Nat :=
  let has (k : Nat) : Bool := !(tblGetD (4 * d + k) [] s.fab.eject).isEmpty
  if has Cls.bulk && decide (3 ≤ tblGetD d 0 s.fab.drain) then some Cls.bulk
  else [Cls.mgmt, Cls.rsp, Cls.req, Cls.bulk].find? has

/-- Take the next cell of a die's ejection queues. -/
def State.drainCell (s : State) (d : Nat) : Option (Cell × State) :=
  match s.drainClass d with
  | none => none
  | some k => match tblGetD (4 * d + k) [] s.fab.eject with
    | [] => none
    | c :: cs =>
      let n := if k = Cls.bulk || (tblGetD (4 * d + Cls.bulk) [] s.fab.eject).isEmpty then 0 else tblGetD d 0 s.fab.drain + 1
      some (c, { s with fab := { s.fab with eject := tblSet (4 * d + k) cs s.fab.eject, drain := tblSet d n s.fab.drain } })

/-- Drain past cells that are discarded as malformed (R347); `fuel` bounds them. The next well-formed cell, still in its queue. -/
def State.skipMalformed : Nat → Nat → State → State
  | 0, _, s => s
  | fuel + 1, d, s =>
    match s.drainCell d with
    | none => s
    | some (c, t) =>
      if cellFormOk c then s
      else State.skipMalformed fuel d (t.countWrap Reg.JT_CNT_MISC Fld.JT_CNT_MISC_MALFORMED 1)

/-- The next well-formed cell of a die when the condition holds of it, drained; malformed cells before it are discarded. -/
def State.nextCell (s : State) (d : Nat) (want : Cell → Bool) : Option Cell × State :=
  let waiting := ([0, 1, 2, 3].map fun k => (tblGetD (4 * d + k) [] s.fab.eject).length).foldl (· + ·) 0
  let s := State.skipMalformed waiting d s
  match s.drainCell d with
  | none => (none, s)
  | some (c, t) => if want c then (some c, t) else (none, s)

/-- Has a request expired at this target (R359)? -/
def State.expired (s : State) (c : Cell) : Bool :=
  c.life != 0 && (!s.timeValid || decide (c.life * 1000 ≤ (s.now % 2 ^ 48 + 2 ^ 48 - c.injTime) % 2 ^ 48))

/-- Send an answer cell from a die (R349); an answer other than OK counts as refused. -/
def State.sendAnswer (s : State) (d : Nat) (c : Cell) (op status lenW offset : Nat) (payload : List Byte) : State :=
  let a : Cell :=
    { dest := c.src, src := s.node, ptag := s.fld Reg.FWD_IDENT Fld.FWD_IDENT_PTAG,
      cls := if c.cls = Cls.mgmt then Cls.mgmt else Cls.rsp, hops := 0, injTime := s.injTime, injSeq := s.fab.injSeq, op := op,
      lenW := lenW, aop := 0, aw := false, signed := false, seal_ := false, poison := false, status := status, be := 255,
      life := 0, tag := c.tag, offset := offset, job := c.job, payload := payload }
  let s : State := { s with fab := { s.fab with injSeq := (s.fab.injSeq + 1) % 2 ^ 16 } }
  s.injectCell d a

def State.countRefused (s : State) (status : Nat) : State :=
  if status = 0 then s else s.countWrap Reg.JT_CNT_TARGET Fld.JT_CNT_TARGET_REFUSED 1

/-- Discard an expired request, or serve it (R359). -/
def State.unlessExpired (s : State) (c : Cell) (f : State → State) : State :=
  if s.expired c then s.countWrap Reg.JT_CNT_TARGET Fld.JT_CNT_TARGET_EXPIRED 1 else f s

/-- LOAD: a request leaves a die's ejection queue and is answered with its data, or the error value and its status (R347, R349). -/
def State.serveLoadCell (s : State) (d : Nat) : State :=
  match s.nextCell d fun c => c.op == Op.load with
  | (none, s) => s
  | (some c, s) => s.unlessExpired c fun s =>
    let (st, bs, s) :=
      if offsetOk c.offset then s.serveLoad c.offset c.len
      else (Code.addressUnmapped, List.replicate c.len 255, s.countWrap Reg.JT_CNT_MISC Fld.JT_CNT_MISC_MALFORMED 1)
    (s.countRefused st).sendAnswer d c Op.loadRsp st c.lenW c.offset bs

/-- The key of an ACK being gathered: die, class and source (R349). -/
def ackKey (d : Nat) (mgmt : Bool) (src : Nat) : Nat := (2 * d + b2n mgmt) * 65536 + src

/-- Inject a gathered ACK (R339, R349). -/
def State.sendAck (s : State) (key : Nat) : State :=
  match tblFind key s.fab.acks with
  | none => s
  | some g =>
    let s : State := { s with fab := { s.fab with acks := tblErase key s.fab.acks } }
    let n := g.entries.length
    let c : Cell := { dest := 0, src := key % 65536, ptag := 0, cls := if key / 65536 % 2 = 1 then Cls.mgmt else Cls.rsp, hops := 0,
                      injTime := 0, injSeq := 0, op := 0, lenW := 0, aop := 0, aw := false, signed := false, seal_ := false,
                      poison := false, status := 0, be := 255, life := 0, tag := 0, offset := 0, job := 0, payload := [] }
    s.sendAnswer (key / 131072) c Op.ack 0 (ceilDiv n 2 - 1) n (g.entries.map fun e => leBytes 4 (e.1 + e.2 * 2 ^ 16)).flatten

/-- Add a tag to the ACK gathered for a source; 64 entries send it (R349). -/
def State.gatherAck (s : State) (d : Nat) (c : Cell) (status : Nat) : State :=
  let key := ackKey d (c.cls == Cls.mgmt) c.src
  let g := tblGetD key ⟨[], s.clock.elapsedNs⟩ s.fab.acks
  let g : AckGather := { g with entries := g.entries ++ [(c.tag, status)] }
  let s : State := { s with fab := { s.fab with acks := tblSet key g s.fab.acks } }
  if 64 ≤ g.entries.length then s.sendAck key else s

/-- STORE: a request leaves a die's ejection queue; the write is applied or refused and its tag gathered (R347, R349, R557). -/
def State.serveStoreCell (s : State) (d : Nat) : State :=
  match s.nextCell d fun c => c.op == Op.store with
  | (none, s) => s
  | (some c, s) => (s.unlessExpired c fun s =>
    let be := if c.len = 8 then c.be else 2 ^ c.len - 1
    let (st, s) :=
      if offsetOk c.offset then s.serveStore (.port d) c.src c.offset be (c.payload.take c.len) c.poison c.seal_
      else (Code.addressUnmapped, s.countWrap Reg.JT_CNT_MISC Fld.JT_CNT_MISC_MALFORMED 1)
    (s.countRefused st).gatherAck d c st).runSwaps

/-- An ATOMIC request of one AOP leaves a die's ejection queue, is applied at its word's atomic unit and answered with the old value
(R347, R349, R354, R355). -/
def State.serveAtomicCell (s : State) (d aop : Nat) : State :=
  match s.nextCell d fun c => c.op == Op.atomic && c.aop == aop with
  | (none, s) => s
  | (some c, s) => s.unlessExpired c fun s =>
    let (st, v, s) :=
      if offsetOk c.offset then
        s.atomicAt (.port d) c.src true (offsetLocal c.offset) (if c.aw then 8 else 4) aop c.signed (leNat (c.payload.take 8))
          (leNat (sliceOf c.payload 8 8))
      else (Code.addressUnmapped, errorValue, s.countWrap Reg.JT_CNT_MISC Fld.JT_CNT_MISC_MALFORMED 1)
    (s.countRefused st).sendAnswer d c Op.atomicRsp st 0 c.offset (leBytes 8 v)

-- Answers at the source --------------------------------------------------------------------------------------------

/-- An answer for a tag arrives (R350, R351, R361): it closes the entry it belongs to, or is late. -/
def State.takeAnswer (s : State) (d : Nat) (op node tag status : Nat) (data : List Byte) : State :=
  let mine (o : OpenOp) : Bool := o.op == op && o.node == node
  match (tblFind tag s.fab.opens).filter mine with
  | some o =>
    (s.refusedRecord o.who node tag status).closeOp tag status data
  | none =>
    let s := s.countWrap Reg.JT_CNT_LOST Fld.JT_CNT_LOST_LATE_RSP 1
    let who := match (tblFind tag s.fab.lost).filter mine with
      | some o => o.who
      | none => .port d
    let s : State := { s with fab := { s.fab with lost := tblErase tag s.fab.lost } }
    if status = 0 && op != Op.load then s.opRecord who Code.lateApplied node (lostDetail node tag op) else s

/-- LOAD_RSP: a cell with a load's answer leaves a die's ejection queue (R350). -/
def State.takeLoadRsp (s : State) (d : Nat) : State :=
  match s.nextCell d fun c => c.op == Op.loadRsp with
  | (none, s) => s
  | (some c, s) => (s.takeAnswer d Op.load c.src c.tag c.status (c.payload.take c.len)).afterClose

/-- ATOMIC_RSP: a cell with an atomic's old value leaves a die's ejection queue (R350). -/
def State.takeAtomicRsp (s : State) (d : Nat) : State :=
  match s.nextCell d fun c => c.op == Op.atomicRsp with
  | (none, s) => s
  | (some c, s) => (s.takeAnswer d Op.atomic c.src c.tag c.status (c.payload.take 8)).afterClose

/-- ACK: a cell that closes the stores it names (R339, R350). -/
def State.takeAck (s : State) (d : Nat) : State :=
  match s.nextCell d fun c => c.op == Op.ack with
  | (none, s) => s
  | (some c, s) =>
    ((List.range (c.offset % 128)).foldl (fun s j =>
      let e := leNat (sliceOf c.payload (4 * j) 4)
      s.takeAnswer d Op.store c.src (bitsOf e 0 16) (bitsOf e 16 8) []) s).afterClose

/-- ACK_DELAY_EXPIRE: the ACK gathered on a die for a source is injected ACK_DELAY after its first entry (R349). -/
def State.ackDelayExpire (s : State) (d src : Nat) : State :=
  [false, true].foldl (fun s m =>
    match tblFind (ackKey (d % 4) m (src % 65536)) s.fab.acks with
    | none => s
    | some g =>
      if g.since + s.fld Reg.JT_CTRL Fld.JT_CTRL_ACK_DELAY ≤ s.clock.elapsedNs then s.sendAck (ackKey (d % 4) m (src % 65536))
      else s) s

/-- Has T_dead passed for an entry, in elapsed nanoseconds (R75, R358)? For a MGMT operation sent while fabric time was not valid it is
measured in array cycles (R360), 2,700 a microsecond. -/
def State.deadlinePassed (s : State) (o : OpenOp) : Bool :=
  let t := s.fld Reg.JT_CTRL Fld.JT_CTRL_T_DEAD
  if o.timed then decide (o.t0 + t * 1000 ≤ s.clock.elapsedNs) else decide (o.t0 + t * 2700 ≤ s.clock.cycles)

/-- T_DEAD_EXPIRE: an entry still open at T_dead closes with TARGET_LOST and error values (R358). -/
def State.deadExpire (s : State) (tag : Nat) : State :=
  match tblFind tag s.fab.opens with
  | none => s
  | some o =>
    if !s.deadlinePassed o then s
    else
      let s := s.countWrap Reg.JT_CNT_LOST Fld.JT_CNT_LOST_LOST 1
      let s := s.opRecord o.who Code.targetLost o.node (lostDetail o.node tag o.op)
      let s : State := { s with fab := { s.fab with lost := tblSet tag o s.fab.lost } }
      (s.closeOp tag Code.targetLost (List.replicate o.len 255)).afterClose

end Sys2Proof.Machine
end

