-- ==== Sys2Proof/Machine/Scratch.lean ====
section
/-! DEFINITION. A cluster's buffers, its command queues and their push windows, and retirement (R217 to R220, R230, R234, R246,
R253, R254, R259, R273). -/

namespace Sys2Proof.Machine

-- Buffers ----------------------------------------------------------------------------------------------------------

/-- A BUFFER_BUSY record (R218, R220), of the scratchpad's scoreboard. -/
def State.bufferBusy (s : State) (n b kind other : Nat) : State :=
  s.fault (s.clusterUnit n 0xA) Code.bufferBusy none (b + kind * 2 ^ 8 + other * 2 ^ 12)

def bufFree : Nat := 0
def bufFilling : Nat := 1
def bufFull : Nat := 2
def bufHeld : Nat := 3

/-- Is this a buffer number of an existing cluster? -/
def State.bufHere (s : State) (n b : Nat) : Bool := s.clusterPresent n && decide (b < 255)

/-- FILL_BEGIN (R218). -/
def State.fillBegin (s : State) (n b : Nat) : State :=
  if !s.bufHere n b then s
  else if (s.buf n b).state ≤ bufFilling then s.setBufState n b bufFilling else s.bufferBusy n b 2 0

/-- FILL_END (R218). -/
def State.fillEnd (s : State) (n b : Nat) : State :=
  if !s.bufHere n b then s
  else if (s.buf n b).state = bufFilling then s.setBufState n b bufFull else s.bufferBusy n b 2 0

/-- FREE (R218). -/
def State.freeBuf (s : State) (n b : Nat) : State :=
  if !s.bufHere n b then s
  else
    let x := s.buf n b
    if (x.state == bufFull && x.readers == 0) || x.state == bufFilling then
      (s.setBufState n b bufFree).setBufPoison n b false
    else s.bufferBusy n b 2 0

/-- CL_BUF_WRITE: the buffer's range and DEF are written, or the write is refused (R220). -/
def State.bufWrite (s : State) (n b v : Nat) : State :=
  if !s.bufHere n b then s
  else
    let x := s.buf n b
    let base := bitsOf v 0 16 * 256
    let len := (bitsOf v 16 16 + 1) * 256
    let other := (s.bufsOf n).find? fun o =>
      o != b && decide ((s.buf n o).base < base + len) && decide (base < (s.buf n o).base + (s.buf n o).len)
    if x.state != bufFree || x.readers != 0 then s.bufferBusy n b 0 0
    else if codeArea < base + len then s.bufferBusy n b 1 0
    else match other with
      | some o => s.bufferBusy n b 3 o
      | none => s.writePlain (Reg.CL_BUF n b) v

/-- The buffers a command reads, each once: a buffer named in several roles has one reader, released when any role releases it (R217,
R218). -/
def mergeInputs : List (Nat × Bool) → List (Nat × Bool)
  | [] => []
  | x :: xs =>
    let rest := mergeInputs xs
    (x.1, x.2 || rest.any fun y => y.1 == x.1 && y.2) :: rest.filter fun y => y.1 != x.1

/-- A command has issued with an input: one more reader (R218). -/
def State.addReader (s : State) (n b : Nat) : State :=
  if b < 255 then s.setBufReaders n b ((s.buf n b).readers + 1) else s

/-- A command with an input has retired: one reader less, and the buffer is released at the last one (R218). -/
def State.dropReader (s : State) (n : Nat) (x : Nat × Bool) : State :=
  if x.1 < 255 then
    let b := s.buf n x.1
    let s := s.setBufReaders n x.1 (b.readers - 1)
    if x.2 && b.readers ≤ 1 && b.state == bufFull then s.setBufState n x.1 bufFree else s
  else s

-- Queues -----------------------------------------------------------------------------------------------------------

/-- The window numbers of the push windows: tile, DMA engines 0 and 1, vector, Flume. -/
def winTile : Nat := 0
def winDma (e : Nat) : Nat := 1 + e % 2
def winVec : Nat := 3
def winFlm : Nat := 4

/-- Change a cluster in place. -/
def State.onCluster (s : State) (n : Nat) (f : Cluster → Cluster) : State := s.setCluster n (f (s.cluster n))

/-- Write the QUEUED counts of a cluster (R253, R291). -/
def State.queueCounts (s : State) (n : Nat) : State :=
  let c := s.cluster n
  let s := s.setFld (Reg.CL_CMD_STATUS n) Fld.CL_CMD_STATUS_QUEUED (c.tiles.length + c.running.length)
  let s := s.setFld (Reg.CL_VEC_STATUS n) Fld.CL_VEC_STATUS_QUEUED (c.vecs.length + b2n c.vecRun.isSome)
  s.setFld (Reg.FLM_STATUS n) Fld.FLM_STATUS_QUEUED (c.flmQ.length + b2n c.flmRun.isSome)

/-- The stored words of a Flume descriptor (R258); the others are reserved. -/
def State.flmWords (s : State) (n d : Nat) : List Nat := [s.reg (Reg.FLM_DESC0 n (d % 64)), s.reg (Reg.FLM_DESC1 n (d % 64))]

/-- A command enters the queue of its window; a tile command latches its Flume descriptors (R230, R259). -/
def State.enqueue (s : State) (n win : Nat) (ws : List Nat) : State :=
  let s := s.onCluster n fun c =>
    match win with
    | 0 => { c with tiles := c.tiles ++ [⟨ws, s.flmWords n (bitsOf (nthD ws 5 0) 0 6), s.flmWords n (bitsOf (nthD ws 5 0) 16 6)⟩] }
    | 3 => { c with vecs := c.vecs ++ [ws] }
    | 4 => { c with flmQ := c.flmQ ++ [ws] }
    | w => { c with dmaQ := tblSet (w - 1) (tblGetD (w - 1) [] c.dmaQ ++ [ws]) c.dmaQ }
  s.queueCounts n

/-- Has the queue of a window room (R230, R246, R273)? -/
def Cluster.room (c : Cluster) (win : Nat) : Bool :=
  match win with
  | 0 => decide (c.tiles.length < 64)
  | 3 => decide (c.vecs.length < 32)
  | 4 => decide (c.flmQ.length < 16)
  | _ => true

/-- Held pushes enter as places come free, in the order their last words arrived, and let their cores go on (R230). -/
def State.admitHeld (s : State) (n : Nat) : State :=
  let held := (s.cluster n).held
  let s := s.onCluster n fun c => { c with held := [] }
  held.foldl (fun s h =>
    if (s.cluster n).room (h.1 / 4) then s.enqueue n (h.1 / 4) h.2 else s.onCluster n fun c => { c with held := c.held ++ [h] }) s

/-- Store words into a latch from word index `i` on. -/
def latchWords (l : List Nat) : Nat → List Nat → List Nat
  | _, [] => l
  | i, w :: ws => latchWords (setNth l i (w % 2 ^ 64)) (i + 1) ws

/-- A core that stands at an instruction stores words at a byte offset of a push window of `size` words (R230): latched for the core, and
the command enters when its last word arrives. At a full queue the store is held, and its core with it. -/
def State.pushWords (s : State) (n win size core off : Nat) (ws : List Nat) : State :=
  if !s.clusterPresent n || !s.coreSteps (4 * n + core % 4) || off % 8 != 0 || ws.isEmpty then s
  else
    let key := 4 * win + core % 4
    let latch := latchWords (tblGetD key (List.replicate size 0) (s.cluster n).latches) (off / 8) ws
    let s := s.onCluster n fun c => { c with latches := tblSet key latch c.latches }
    if off / 8 + ws.length < size || size ≤ off / 8 then s
    else if (s.cluster n).room win && !((s.cluster n).held.any fun h => h.1 / 4 == win) then s.enqueue n win latch
    else s.onCluster n fun c => { c with held := c.held ++ [(key, latch)] }

def State.tilePush (s : State) (n core off : Nat) (ws : List Nat) : State := s.pushWords n winTile 8 core off ws
def State.dmaPush (s : State) (n e core off : Nat) (ws : List Nat) : State := s.pushWords n (winDma e) 4 core off ws
def State.vecPush (s : State) (n core off : Nat) (ws : List Nat) : State := s.pushWords n winVec 4 core off ws
def State.flmPush (s : State) (n core off : Nat) (ws : List Nat) : State := s.pushWords n winFlm 4 core off ws

-- Retirement -------------------------------------------------------------------------------------------------------

/-- The interrupt of a retirement (R253): machine external, bit 11. -/
def State.retireIrq (s : State) (n : Nat) : State :=
  if s.flag (Reg.CL_CTRL n) Fld.CL_CTRL_IRQ_EN then s.raiseIrq n 11 else s

/-- An output of a retiring command becomes FULL from the state `from_` it was reserved in; from any other the table refuses it (R218). -/
def State.fillBuf (s : State) (n from_ b : Nat) : State :=
  if 255 ≤ b then s
  else if (s.buf n b).state = from_ then s.setBufState n b bufFull else s.bufferBusy n b 2 0

/-- What a retirement does to buffers (R218, R234): outputs become FULL, a faulted command's first output carries POISON, inputs
lose a reader and are released as flagged. -/
def State.retireBufs (s : State) (n from_ : Nat) (r : RunCmd) : State :=
  let s := r.outs.foldl (fun s b => s.fillBuf n from_ b) s
  let s := match r.fault, r.outs with
    | true, d :: _ => if d < 255 then s.setBufPoison n d true else s
    | _, _ => s
  r.ins.foldl (fun s x => s.dropReader n x) s

/-- Cycles up to now in which a command of the array ran and which CL_STAT_BUSY does not hold yet (R253). -/
def State.arrayBusy (s : State) (n : Nat) : Nat :=
  match (s.cluster n).running with
  | [] => 0
  | r :: rest => min s.clock.cycles (((r :: rest).map fun x => x.stop).foldl max 0) - (s.cluster n).busyFrom

/-- Cycles up to now in which the Flume ran its command and which FLM_CNT_BUSY does not hold yet (R291). -/
def State.flumeBusy (s : State) (n : Nat) : Nat :=
  match (s.cluster n).flmRun with
  | none => 0
  | some r => min s.clock.cycles r.stop - (s.cluster n).flmFrom

/-- The oldest running tile command retires once its time has come (R234). -/
def State.tileRetire (s : State) (n : Nat) : State :=
  match (s.cluster n).running with
  | [] => s
  | r :: rest =>
    if s.clock.cycles < r.stop || !s.clusterPresent n then s
    else
      let s := s.onCluster n fun c => { c with running := rest }
      let s := s.retireBufs n bufHeld r
      let s := s.countWrap (Reg.CL_CMD_STATUS n) Fld.CL_CMD_STATUS_DONE 1
      let s := s.setFld (Reg.CL_CMD_STATUS n) Fld.CL_CMD_STATUS_LAST_TAG r.tag
      let s := if rest.isEmpty then
          s.countWrap (Reg.CL_STAT_BUSY n) Fld.CL_STAT_BUSY_BUSY (r.stop - (s.cluster n).busyFrom)
        else s
      (s.queueCounts n).retireIrq n

/-- The running vector command retires once its time has come (R246). -/
def State.vecRetire (s : State) (n : Nat) : State :=
  match (s.cluster n).vecRun with
  | none => s
  | some r =>
    if s.clock.cycles < r.stop || !s.clusterPresent n then s
    else
      let s := s.onCluster n fun c => { c with vecRun := none }
      let s := s.retireBufs n bufHeld r
      let s := if r.fault then (r.outs.filter (· < 255)).foldl (fun s b => s.setBufPoison n b true) s else s
      let s := s.countWrap (Reg.CL_VEC_STATUS n) Fld.CL_VEC_STATUS_DONE 1
      let s := s.setFld (Reg.CL_VEC_STATUS n) Fld.CL_VEC_STATUS_LAST_TAG r.tag
      (s.queueCounts n).retireIrq n

/-- An input buffer is ready to read, an output to be reserved (R231); 0xFF names none. -/
def State.inReady (s : State) (n b : Nat) : Bool := b == 255 || (s.buf n b).state == bufFull
def State.outReady (s : State) (n b : Nat) : Bool :=
  b == 255 || (s.buf n b).state == bufFree || ((s.buf n b).state == bufFull && (s.buf n b).readers == 0)

/-- A TILE_INVALID record (R233, R284): unit block, source, tag, kind and buffer. -/
def State.tileInvalid (s : State) (n block source tag kind b : Nat) : State :=
  s.fault (s.clusterUnit n block) Code.tileInvalid none (tag + kind * 2 ^ 16 + source * 2 ^ 20 + b * 2 ^ 22)

/-- The local address of a scratchpad offset. -/
def scratchAddr (n off : Nat) : Nat := scratchBase + n * 2 ^ 24 + off

/-- Read the words of scratchpad ranges (offset and length) up to the first bad one: its status and address (R219, R256). -/
def State.checkRange (s : State) (n : Nat) : List Nat → Option (Nat × Nat) × State
  | [] => (none, s)
  | k :: ks =>
    let (st, s) := s.checkWord k 0
    if st = 0 then State.checkRange s n ks else (some (st, k), s)

def State.checkRanges (s : State) (n : Nat) : List (Nat × Nat) → Option (Nat × Nat) × State
  | [] => (none, s)
  | r :: rs =>
    let (bad, s) := s.checkRange n (wordKeys (scratchAddr n r.1) r.2)
    match bad with
    | some b => (some b, s)
    | none => State.checkRanges s n rs

/-- The record of an operand word that read poisoned (R219); an uncorrectable one has been reported where it was found. -/
def State.poisonedRecord (s : State) (n block : Nat) (addr : Option Nat) : State :=
  s.fault (s.clusterUnit n block) Code.poisoned addr 0

/-- Store what the spec leaves open: a free value over each of `rows` rows of `len` bytes, `stride` apart. -/
def State.undefRows (s : State) (k : FreeKind) (a stride len rows : Nat) : State :=
  (List.range rows).foldl (fun s i =>
    let (v, s) := s.takeFree k
    s.writeStore (a + i * stride) (leBytes len v) false) s

end Sys2Proof.Machine
end

