-- ==== Sys2Proof/Machine/Tile.lean ====
section
/-! DEFINITION. Tile commands: formats, descriptors, the lanes of a pass for dense and Flume-fed operands, the column tree, the fold
and the cycle count (R223 to R228, R236 to R244, R258 to R272, R285). -/

namespace Sys2Proof.Machine

-- Formats ----------------------------------------------------------------------------------------------------------

/-- Element width of a format code in bits, 0 for a reserved code (R239). -/
def fmtBits (f : Nat) : Nat :=
  if f < 5 || f == 7 then 8 else if f < 7 then 6 else if f = 8 then 4 else if f < 11 then 16 else 0

/-- Is a format code an MX format (R239)? -/
def fmtMx (f : Nat) : Bool := decide (3 ≤ f) && decide (f ≤ 8)

/-- The value an element spells; the integer formats as integers (R239, R241). -/
def fmtValue (f b : Nat) : FVal :=
  match f with
  | 0 | 3 => fdecode e4m3 b
  | 1 | 4 => fdecode e5m2 b
  | 5 => fdecode e2m3 b
  | 6 => fdecode e3m2 b
  | 8 => fdecode e2m1 b
  | 9 => fdecode bf16 b
  | 10 => fdecode fp16 b
  | _ => FVal.ofInt (signedOf 8 b)

/-- The group within which formats pair (R239). -/
def fmtGroup (f : Nat) : Nat :=
  if f = 2 then 1 else if f = 7 then 2 else if f < 9 then 0 else if f < 11 then 3 else 4

/-- Bytes of an output format (R226). -/
def outBytes (f : Nat) : Nat := if f = 1 || f = 2 then 2 else 4

/-- An FP32 result converted to the output format (R243); INT32 as it is. -/
def toOut (f v : Nat) : Nat := if f = 1 then toBf16 v else if f = 2 then fencode fp16 false (f32 v) else v

/-- A stored output widened exactly (R243). -/
def ofOut (f v : Nat) : Nat := if f = 1 then ofBf16 v else if f = 2 then toF32 (fdecode fp16 v) else v

def align64 (n : Nat) : Nat := ceilDiv n 64 * 64

/-- Scale a value by a power of two. -/
def FVal.scale : FVal → Int → FVal
  | .fin n m e, x => .fin n m (e + x)
  | v, _ => v

-- Descriptors ------------------------------------------------------------------------------------------------------

/-- A Flume descriptor (R258). -/
structure FlmDesc where
  kind    : Nat
  var     : Bool
  invert  : Bool
  release : Bool
  mLog    : Nat
  nDecl   : Nat
  metaBuf : Nat
  maskBuf : Nat
  idxBuf  : Nat
  limit   : Nat
  stride  : Nat
  deriving DecidableEq, Repr

def FlmDesc.ofWords (ws : List Nat) : FlmDesc :=
  let a := nthD ws 0 0
  { kind := bitsOf a 0 4, var := bitAt a 4, invert := bitAt a 5, release := bitAt a 6, mLog := bitsOf a 8 3, nDecl := bitsOf a 12 4,
    metaBuf := bitsOf a 16 8, maskBuf := bitsOf a 24 8, idxBuf := bitsOf a 32 8, limit := bitsOf a 48 16,
    stride := bitsOf (nthD ws 1 0) 0 32 }

/-- The buffer a descriptor uses (R260). -/
def FlmDesc.buf (d : FlmDesc) : Nat :=
  match d.kind with
  | 1 => d.metaBuf
  | 2 => d.maskBuf
  | 3 => d.maskBuf
  | 4 => d.idxBuf
  | _ => 255

/-- A tile command with the descriptors it latched (R226, R227). -/
structure TileCmd where
  op       : Nat
  aFmt     : Nat
  bFmt     : Nat
  outFmt   : Nat
  pack     : Nat
  accum    : Bool
  shaped   : Bool
  bT       : Bool
  relA     : Bool
  relB     : Bool
  tag      : Nat
  mMax     : Nat
  n        : Nat
  k        : Nat
  aBuf     : Nat
  bBuf     : Nat
  dBuf     : Nat
  pBuf     : Nat
  asBuf    : Nat
  bsBuf    : Nat
  shapeBuf : Nat
  aStride  : Nat
  bStride  : Nat
  dStride  : Nat
  da       : Option FlmDesc
  db       : Option FlmDesc
  deriving DecidableEq, Repr

def TileCmd.ofEntry (e : TileEntry) : TileCmd :=
  let f (i lo w : Nat) : Nat := bitsOf (nthD e.words i 0) lo w
  let b (i lo : Nat) : Bool := bitAt (nthD e.words i 0) lo
  { op := f 0 0 8, aFmt := f 0 8 4, bFmt := f 0 12 4, outFmt := f 0 16 2, pack := f 0 18 2, accum := b 0 20, shaped := b 0 21,
    bT := b 0 24, relA := b 0 25, relB := b 0 26, tag := f 0 32 16, mMax := f 1 0 12 + 1, n := f 1 12 12 + 1, k := f 1 24 16 + 1,
    aBuf := f 2 0 8, bBuf := f 2 8 8, dBuf := f 2 16 8, pBuf := f 2 24 8, asBuf := f 2 32 8, bsBuf := f 2 40 8,
    shapeBuf := f 2 48 8, aStride := f 3 0 24, bStride := f 3 24 24, dStride := f 4 0 24,
    da := if b 0 22 then some (FlmDesc.ofWords e.flmA) else none,
    db := if b 0 23 then some (FlmDesc.ofWords e.flmB) else none }

/-- The STRUCT, COLMASK, KMASK and ROWGATHER descriptors a command carries where they are permitted. -/
def TileCmd.struct (c : TileCmd) : Option FlmDesc := c.db.filter fun d => d.kind == 1
def TileCmd.colMask (c : TileCmd) : Option FlmDesc := c.db.filter fun d => d.kind == 2
def TileCmd.kMask (c : TileCmd) : Option FlmDesc := c.db.filter fun d => d.kind == 3
def TileCmd.gather (c : TileCmd) : Option FlmDesc := c.da.filter fun d => d.kind == 4

/-- Values of K in one pass (R223), columns of a sub-array and sub-arrays of the form (R224). -/
def TileCmd.pk (c : TileCmd) : Nat := if c.aFmt = 8 && c.bFmt = 8 then 256 else 128
def TileCmd.cols (c : TileCmd) : Nat := if c.pack = 0 then 128 else 64
def TileCmd.subs (c : TileCmd) : Nat := 2 ^ c.pack
def TileCmd.int8 (c : TileCmd) : Bool := c.aFmt == 2

-- Geometry ---------------------------------------------------------------------------------------------------------

/-- A tile command at work: the memory it reads, the scratchpad addresses of its buffers, its effective sizes, the rows a mask
selects and the rows of A it gathers. -/
structure Tile where
  c     : TileCmd
  canon : Bool
  mem   : Memory
  aAt   : Nat
  bAt   : Nat
  dAt   : Nat
  asAt  : Nat
  bsAt  : Nat
  xAt   : Nat
  m     : Nat
  n     : Nat
  k     : Nat
  sel   : List Nat
  idx   : List Nat
  deriving DecidableEq, Repr

/-- A packed element: `w` bits at bit `bit` of the bytes from `a` on (R228). -/
def packedAt (mem : Memory) (a bit w : Nat) : Nat := bitsOf (memNat mem (a + bit / 8) 4) (bit % 8) w

/-- Groups of a STRUCT operand per pass and per canonical block (R262). -/
def Tile.group (t : Tile) (d : FlmDesc) : Nat := t.c.pk / d.nDecl
def blockGroups (d : FlmDesc) : Nat := 4096 / 2 ^ d.mLog

/-- Passes of a full canonical block: the q of R236 and R262. -/
def Tile.q (t : Tile) : Nat :=
  match t.c.struct with
  | some d => ceilDiv (blockGroups d) (t.group d)
  | none => 4096 / t.c.pk

/-- Cut `n` units from `first` on into passes of `g`; `fuel` bounds them. -/
def cutPasses (g : Nat) : Nat → Nat → Nat → List (Nat × Nat)
  | 0, _, _ => []
  | fuel + 1, first, n => if n = 0 then [] else (first, min g n) :: cutPasses g fuel (first + min g n) (n - min g n)

/-- The passes in order: first unit and count, in elements, or in groups for STRUCT, whose passes restart at each canonical block
(R236, R262). -/
def Tile.passes (t : Tile) : List (Nat × Nat) :=
  match t.c.struct with
  | some d =>
    let groups := t.k / 2 ^ d.mLog
    let bg := blockGroups d
    ((List.range (ceilDiv groups bg)).map fun b =>
      cutPasses (t.group d) groups (b * bg) (min bg (groups - b * bg))).flatten
  | none => cutPasses t.c.pk t.k 0 t.k

def Tile.kb (t : Tile) : Nat := t.passes.length
def Tile.kc (t : Tile) : Nat := ceilDiv t.kb t.q
def Tile.nb (t : Tile) : Nat := ceilDiv t.n t.c.cols

/-- Stored values of a fixed-form STRUCT column (R263), and the chunk sizes of the variable form (R264). -/
def storedK (k : Nat) (d : FlmDesc) : Nat := k * d.nDecl / 2 ^ d.mLog
def vChunk (g bits : Nat) (d : FlmDesc) : Nat := ceilDiv (g * d.nDecl * bits) 128 * 16
def mChunk (g : Nat) (d : FlmDesc) : Nat := ceilDiv (4 * g + g * d.nDecl * d.mLog) 128 * 16

/-- The count of group `i` of pass `p` in column `n` (R263, R264). -/
def Tile.count (t : Tile) (d : FlmDesc) (n p i : Nat) : Nat :=
  if d.var then packedAt t.mem (t.xAt + n * d.stride + p * mChunk (t.group d) d) (4 * i) 4 else d.nDecl

/-- Values stored before group `i` of pass `p`. -/
def Tile.before (t : Tile) (d : FlmDesc) (n p i : Nat) : Nat := sumNats ((List.range i).map fun j => t.count d n p j)

/-- The position code of value `j` of group `i` of pass `p`, whose first group is `g0` (R263, R264). -/
def Tile.code (t : Tile) (d : FlmDesc) (n p g0 i j : Nat) : Nat :=
  if d.var then
    let g := t.group d
    packedAt t.mem (t.xAt + n * d.stride + p * mChunk g d) (4 * g + d.mLog * (t.before d n p i + j)) d.mLog
  else packedAt t.mem (t.xAt + n * d.stride) (d.mLog * ((g0 + i) * d.nDecl + j)) d.mLog

/-- Value `j` of group `i` of pass `p`. -/
def Tile.stored (t : Tile) (d : FlmDesc) (n p g0 i j : Nat) : Nat :=
  let w := fmtBits t.c.bFmt
  if d.var then packedAt t.mem (t.bAt + n * t.c.bStride + p * vChunk (t.group d) w d) (w * (t.before d n p i + j)) w
  else packedAt t.mem (t.bAt + n * t.c.bStride) (w * ((g0 + i) * d.nDecl + j)) w

-- Elements ---------------------------------------------------------------------------------------------------------

def Tile.rowA (t : Tile) (i : Nat) : Nat := if t.c.gather.isSome then nthD t.idx i 0 else i
def Tile.colB (t : Tile) (n : Nat) : Nat := if t.c.colMask.isSome then nthD t.sel n 0 else n

def Tile.a (t : Tile) (i k : Nat) : Nat :=
  packedAt t.mem (t.aAt + t.rowA i * t.c.aStride) (k * fmtBits t.c.aFmt) (fmtBits t.c.aFmt)

/-- Element k of column n of dense B (R227). -/
def Tile.b (t : Tile) (k n : Nat) : Nat :=
  let w := fmtBits t.c.bFmt
  if t.c.bT then packedAt t.mem (t.bAt + t.colB n * t.c.bStride) (k * w) w
  else packedAt t.mem (t.bAt + k * t.c.bStride) (t.colB n * w) w

/-- Scale bytes (R228). -/
def Tile.aScale (t : Tile) (i blk : Nat) : Nat := (memByte t.mem (t.asAt + t.rowA i * align64 (ceilDiv t.k 32) + blk)).toNat
def Tile.bScaleRow (t : Tile) (n len blk : Nat) : Nat := (memByte t.mem (t.bsAt + n * align64 len + blk)).toNat

/-- The exponent an E8M0 scale stands for, less 127; none is NaN (R242). -/
def scaleExp (x : Nat) : Option Int := if x = 255 then none else some ((x : Int) - 127)

/-- A value times a scale, exactly. -/
def scaled (v : FVal) : Option Int → FVal
  | none => .nan
  | some x => v.scale x

/-- The exact products of a pass's lanes and the scale exponent of each 32-lane block (R236, R240, R262 to R266, R270). -/
def Tile.lanes (t : Tile) (i n p : Nat) (span : Nat × Nat) : List FVal × List (Option Int) :=
  let pk := t.c.pk
  let zero : FVal := .fin false 0 0
  let aMx := fmtMx t.c.aFmt
  let bMx := fmtMx t.c.bFmt
  match t.c.struct with
  | some d =>
    let g := t.group d
    let lane (l : Nat) : FVal :=
      let gi := l / d.nDecl
      let j := l % d.nDecl
      if span.2 ≤ gi || t.count d n p gi ≤ j then zero
      else
        let kk := (span.1 + gi) * 2 ^ d.mLog + t.code d n p span.1 gi j
        let av := fmtValue t.c.aFmt (t.a i kk)
        let av := if aMx then scaled av (scaleExp (t.aScale i (kk / 32))) else av
        av.mul (fmtValue t.c.bFmt (t.stored d n p span.1 gi j))
    let blk (x : Nat) : Option Int :=
      if !bMx then some 0
      else if d.var then scaleExp (t.bScaleRow n (t.kb * (pk / 32)) (p * (pk / 32) + x))
      else if span.2 * d.nDecl ≤ 32 * x then some 0
      else scaleExp (t.bScaleRow n (ceilDiv (storedK t.k d) 32) (span.1 * d.nDecl / 32 + x))
    (((List.range (g * d.nDecl)).map lane) ++ List.replicate (pk - g * d.nDecl) zero, (List.range (pk / 32)).map blk)
  | none =>
    let dense (e : Nat) : Nat := if t.c.kMask.isSome then nthD t.sel e 0 else e
    let lane (l : Nat) : FVal :=
      if span.2 ≤ l then zero
      else
        let e := span.1 + l
        let v := (fmtValue t.c.aFmt (t.a i e)).mul (fmtValue t.c.bFmt (t.b (dense e) n))
        if t.c.kMask.isSome && bMx then scaled v (scaleExp (t.bScaleRow (t.colB n) (ceilDiv t.c.k 32) (dense e / 32))) else v
    let blk (x : Nat) : Option Int :=
      if span.2 ≤ 32 * x then some 0
      else
        let e := span.1 / 32 + x
        let xa := if aMx then scaleExp (t.aScale i e) else some 0
        let xb := if bMx && t.c.kMask.isNone then scaleExp (t.bScaleRow (t.colB n) (ceilDiv t.k 32) e) else some 0
        match xa, xb with
        | some u, some v => some (u + v)
        | _, _ => none
    ((List.range pk).map lane, (List.range (pk / 32)).map blk)

-- Tree and fold ----------------------------------------------------------------------------------------------------

/-- The 32-element pieces of a list. -/
def blocks32 {α : Type} : Nat → List α → List (List α)
  | 0, _ => []
  | n + 1, xs => xs.take 32 :: blocks32 n (xs.drop 32)

/-- The value of one 32-lane block after its scale (R240, R241): MXINT8 adds exactly and takes its scale with a further 2^−12. -/
def blockValue (mxint : Bool) (ps : List FVal) (x : Option Int) : Nat :=
  match x with
  | none => nan32
  | some e =>
    if mxint then toF32 ((ps.foldl FVal.add (.fin false 0 0)).scale (e - 12))
    else toF32 ((f32 (productTree 4 ps)).scale e)

/-- The exact integer sum of a pass, for INT8 (R241). -/
def intSum (ps : List FVal) : Int :=
  ps.foldl (fun acc v => match v with
    | .fin neg m _ => if neg then acc - (m : Int) else acc + (m : Int)
    | _ => acc) 0

/-- The column tree of one pass (R240, R241): an FP32 pattern, or an INT32 pattern for INT8. -/
def Tile.tree (t : Tile) (i n p : Nat) (span : Nat × Nat) : Nat :=
  let r := t.lanes i n p span
  if t.c.int8 then unsignedOf 32 (intSum r.1)
  else
    let vs := List.zipWith (blockValue (t.c.aFmt == 7)) (blocks32 (t.c.pk / 32) r.1) r.2
    (treeLevels (if t.c.pk = 256 then 3 else 2) vs).headD 0

/-- A fold addition with its saturation count: FP32, or INT32 saturating (R237, R241). -/
def foldAdd (int8 : Bool) (a b : Nat) : Nat × Nat :=
  if int8 then
    let v := signedOf 32 a + signedOf 32 b
    if v < -(2 ^ 31 : Int) then (2 ^ 31, 1) else if (2 ^ 31 : Int) ≤ v then (2 ^ 31 - 1, 1) else (unsignedOf 32 v, 0)
  else (add32 a b, 0)

/-- Fold a list from a start value. -/
def foldFrom (int8 : Bool) (start : Nat × Nat) (xs : List Nat) : Nat × Nat :=
  xs.foldl (fun acc x => let r := foldAdd int8 acc.1 x; (r.1, acc.2 + r.2)) start

/-- The fixed binary reduction red(0, n) of R237 under an addition; `fuel` bounds its depth. -/
def redTree {α : Type} (add : α → α → α) (none : α) : Nat → List α → α
  | 0, xs => xs.headD none
  | _ + 1, [] => none
  | _ + 1, [x] => x
  | fuel + 1, xs =>
    let h := 2 ^ ((xs.length - 1).log2)
    add (redTree add none fuel (xs.take h)) (redTree add none fuel (xs.drop h))

/-- The reduction of the canonical partials, with their saturation counts (R237). -/
def reduceParts (int8 : Bool) (fuel : Nat) (xs : List (Nat × Nat)) : Nat × Nat :=
  redTree (fun a b => let v := foldAdd int8 a.1 b.1; (v.1, a.2 + b.2 + v.2)) (0, 0) fuel xs

/-- Group a list into runs of `q`. -/
def runsOf {α : Type} (q : Nat) : Nat → List α → List (List α)
  | 0, _ => []
  | fuel + 1, xs => if xs.isEmpty then [] else xs.take q :: runsOf q fuel (xs.drop q)

/-- The start value: D when accumulating, else +0 (R237, R243). -/
def Tile.start (t : Tile) (i n : Nat) : Nat :=
  if t.c.accum then
    ofOut t.c.outFmt (memNat t.mem (t.dAt + i * t.c.dStride + n * outBytes t.c.outFmt) (outBytes t.c.outFmt))
  else 0

/-- The folds of an element: that of each canonical block, or in fast mode the one fold of all passes (R237). -/
def Tile.parts (t : Tile) (i n : Nat) : List (Nat × Nat) :=
  let vs := t.passes.zipIdx.map fun e => t.tree i n e.2 e.1
  if t.canon && !vs.isEmpty then (runsOf t.q (vs.length + 1) vs).map fun xs => foldFrom t.c.int8 (0, 0) xs
  else [foldFrom t.c.int8 (t.start i n, 0) vs]

/-- One element of D, in the output format, and its saturations (R237, R243). -/
def Tile.result (t : Tile) (i n : Nat) : Nat × Nat :=
  let parts := t.parts i n
  let r := reduceParts t.c.int8 (parts.length + 1) parts
  let r := if t.canon && t.c.accum && !t.passes.isEmpty then
      let v := foldAdd t.c.int8 (t.start i n) r.1
      (v.1, r.2 + v.2)
    else r
  (toOut t.c.outFmt r.1, r.2)

/-- The bytes of row `i` of D, and its saturations. -/
def Tile.row (t : Tile) (i : Nat) : List Byte × Nat :=
  let rs := (List.range t.n).map fun n => t.result i n
  ((rs.map fun r => leBytes (outBytes t.c.outFmt) r.1).flatten, sumNats (rs.map fun r => r.2))

/-- The place in the accumulator file, row × 128 + column, of row `i` and column `c` of a sub-array (R225): the halves stand side by side,
the quarters two by two (DESIGN CHOICE, log entry 40). -/
def accAt (pack sub i c : Nat) : Nat :=
  match pack with
  | 0 => 128 * i + c
  | 1 => 128 * i + 64 * sub + c
  | _ => 128 * (2048 * (sub / 2) + i) + 64 * (sub % 2) + c

/-- Which sub-array an accumulator of a form belongs to (R225). -/
def accSub (pack k : Nat) : Nat :=
  match pack with
  | 0 => 0
  | 1 => k % 128 / 64
  | _ => 2 * (k / 128 / 2048) + k % 128 / 64

/-- What a command leaves in the accumulators of its sub-array: for each row and column the last fold of the last N block that uses it
(R225, R236, R237). -/
def Tile.accs (t : Tile) (sub : Nat) : List (Nat × Nat) :=
  ((List.range t.m).map fun i => (List.range (min t.n t.c.cols)).map fun c =>
    let n := c + (t.n - 1 - c) / t.c.cols * t.c.cols
    (accAt t.c.pack sub i c, ((t.parts i n).getLastD (0, 0)).1)).flatten

-- Cycles -----------------------------------------------------------------------------------------------------------

/-- Cycles per A row and pass (R244), with the A-port limit of a STRUCT operand (R285). -/
def Tile.ra (t : Tile) : Nat :=
  let c := t.c
  let lanes := if c.pack = 2 then 64 else 128
  let f2 := if c.aFmt = 8 && c.bFmt = 8 then 4 else if c.aFmt = 9 || c.aFmt = 10 then 1 else 2
  let r := 2 * c.pk / (lanes * f2)
  match c.struct with
  | some d => max r (ceilDiv (c.subs * (t.group d * 2 ^ d.mLog) * fmtBits c.aFmt) 2048)
  | none => r

/-- Cycles to load the stationary B of pass `p` of block `j` (R244, R285). -/
def Tile.bload (t : Tile) (j p : Nat) (span : Nat × Nat) : Nat :=
  let c := t.c
  let wb := if c.pack = 2 then 128 else 256
  let mx := b2n (fmtMx c.bFmt)
  let bits := fmtBits c.bFmt
  match c.struct with
  | some d =>
    if d.var then
      let u := wb / 16
      let by_ (n : Nat) : Nat :=
        let v := t.before d n p span.2
        ceilDiv (v * bits) (8 * u) + ceilDiv (4 * span.2 + v * d.mLog) (8 * u) + mx * ceilDiv c.pk (32 * u)
      let group (x : Nat) : Nat :=
        sumNats (((List.range c.cols).filter fun n => n % 16 == x && decide (j * c.cols + n < t.n)).map fun n => by_ (j * c.cols + n))
      2 + (List.range 16).foldl (fun m x => max m (group x)) 0
    else ceilDiv (span.2 * d.nDecl * c.cols * (bits + d.mLog) + c.pk / 32 * c.cols * mx * 8) (8 * wb)
  | none => ceilDiv (c.pk * c.cols * bits + c.pk / 32 * c.cols * mx * 8) (8 * wb)

/-- D-port cycles for a row of `x`-byte words (R244). -/
def Tile.wrow (t : Tile) (x : Nat) : Nat := ceilDiv (t.c.cols * x * t.c.subs) 256

/-- Start-up of a masked or gathered operand (R285); `fm` is the mask's F. -/
def Tile.startUp (t : Tile) : Nat :=
  (match t.c.colMask with | some _ => 24 + ceilDiv t.c.n 256 | none => 0) +
  (match t.c.kMask with | some _ => 24 + ceilDiv t.c.k 256 | none => 0) +
  (match t.c.gather with | some _ => 24 + ceilDiv t.m 128 | none => 0)

/-- The first load, or 0 when there is no pass (R271). -/
def Tile.firstLoad (t : Tile) : Nat :=
  match t.passes with
  | [] => 0
  | sp :: _ => t.bload 0 0 sp

/-- The cycles of the command (R244, R285). -/
def Tile.cycles (t : Tile) : Nat :=
  let wout := t.wrow (outBytes t.c.outFmt)
  let wio := wout * (if t.c.accum then 2 else 1)
  let extra := if t.canon then 2 * t.m * t.wrow 4 * (t.kc - 1) else 0
  let block (j : Nat) : Nat :=
    max (sumNats (t.passes.zipIdx.map fun e => max (t.m * t.ra) (t.bload j e.2 e.1))) (t.m * wio) + extra
  t.startUp + 6 + t.firstLoad + (if t.c.accum then t.m * wout else 0) + sumNats ((List.range t.nb).map block) + t.m * wout

/-- Cycles from issue to the end of the load of pass `p` of block `j` (R281). -/
def Tile.loadEnd (t : Tile) (j p : Nat) : Nat :=
  let ps := t.passes
  let all := ((List.range t.nb).map fun jj => ps.zipIdx.map fun e => t.bload jj e.2 e.1).flatten
  let i := j * ps.length + p
  t.startUp + (match i with
    | 0 => nthD all 0 0
    | i + 1 => nthD all 0 0 + sumNats ((all.take i).map fun b => max (t.m * t.ra) b) + nthD all (i + 1) 0)

end Sys2Proof.Machine
end

