-- ==== Sys2Proof/Machine/Array.lean ====
section
/-! DEFINITION. MATMUL: the issue rule, the checks, the operands it reads, its result and its time (R231 to R237, R256, R260, R265,
R271, R272, R279 to R285). -/

namespace Sys2Proof.Machine

/-- The buffers a command names as input (R226, R260), each with whether it is released at retirement. -/
def TileCmd.inputs (c : TileCmd) : List (Nat × Bool) :=
  let desc (d : Option FlmDesc) : List (Nat × Bool) := match d with | some d => [(d.buf, d.release)] | none => []
  mergeInputs (([(c.aBuf, c.relA), (c.asBuf, c.relA), (c.bBuf, c.relB), (c.bsBuf, c.relB), (c.shapeBuf, false)] ++ desc c.da ++
    desc c.db).filter fun e => e.1 != 255)

/-- The output buffers: D, then the canonical partials. -/
def TileCmd.outputs (c : TileCmd) : List Nat := [c.dBuf, c.pBuf]

/-- The issue rule of the command at the head (R231): the lowest idle sub-array of its form, when it may issue. -/
def State.tileIssues (s : State) (n : Nat) (c : TileCmd) : Option Nat :=
  let cl := s.cluster n
  let d := s.buf n c.dBuf
  let ready := c.inputs.all (fun e => s.inReady n e.1) &&
    (if c.accum then c.dBuf == 255 || (d.state == bufFull && d.readers == 0) else s.outReady n c.dBuf) &&
    (c.pBuf == 255 || (s.buf n c.pBuf).state == bufFree) && cl.running.all (fun r => r.form == c.pack)
  let subs := if c.pack = 3 then 1 else c.subs
  let free := (List.range subs).find? fun i => !(cl.running.any fun r => r.sub == i)
  if ready then free else none

/-- M of the command: from the shape record when shaped (R228). -/
def State.tileM (s : State) (n : Nat) (c : TileCmd) : Nat :=
  if c.shaped then memNat s.mem (scratchAddr n (s.buf n c.shapeBuf).base + 4) 4 else c.mMax

/-- The selected rows of a mask of F rows (R268 to R270). -/
def State.maskRows (s : State) (n buf f : Nat) (want : Bool) : List Nat :=
  let a := scratchAddr n (s.buf n buf).base + 64
  (List.range f).filter fun i => (packedAt s.mem a i 1 == 1) == want

/-- The tile at work for a command (R269, R270, R272). -/
def State.tileOf (s : State) (n : Nat) (c : TileCmd) : Tile :=
  let at_ (b : Nat) : Nat := scratchAddr n (s.buf n b).base
  let m := s.tileM n c
  let sel := match c.colMask, c.kMask with
    | some d, _ => s.maskRows n d.maskBuf c.n (!d.invert)
    | none, some d => s.maskRows n d.maskBuf c.k true
    | none, none => []
  let idx := match c.gather with
    | some d => (List.range (min m c.mMax)).map fun i => memNat s.mem (at_ d.idxBuf + 2 * i) 2
    | none => []
  { c := c, canon := s.flag (Reg.CL_CTRL n) Fld.CL_CTRL_CANON, mem := s.mem, aAt := at_ c.aBuf, bAt := at_ c.bBuf, dAt := at_ c.dBuf,
    asAt := at_ c.asBuf, bsAt := at_ c.bsBuf, xAt := match c.struct with | some d => at_ d.metaBuf | none => 0, m := m,
    n := if c.colMask.isSome then sel.length else c.n, k := if c.kMask.isSome then sel.length else c.k, sel := sel, idx := idx }

/-- Bytes of a row of `n` elements of `w` bits. -/
def rowOf (n w : Nat) : Nat := ceilDiv (n * w) 8

/-- An extent the checks of R233 kind 3 look at: a buffer, its rows, their stride and the bytes of one; `strided` when the stride is
the command's own field. -/
structure Extent where
  buf     : Nat
  rows    : Nat
  stride  : Nat
  bytes   : Nat
  strided : Bool
  deriving DecidableEq, Repr

/-- The extents of a command, by the N and K that it names (R228, R263, R264, R284). -/
def TileCmd.extents (c : TileCmd) (canon : Bool) (m : Nat) (t : Tile) : List Extent :=
  let wa := fmtBits c.aFmt
  let wb := fmtBits c.bFmt
  let rowsA := match c.gather with | some d => d.limit | none => m
  let sk := align64 (ceilDiv c.k 32)
  let b : List Extent := match c.struct with
    | some d =>
      let g := t.group d
      let passes := t.kb
      if d.var then
        [⟨c.bBuf, c.n, c.bStride, passes * vChunk g wb d, true⟩, ⟨d.metaBuf, c.n, d.stride, passes * mChunk g d, true⟩] ++
        (if fmtMx c.bFmt then [⟨c.bsBuf, c.n, align64 (passes * (c.pk / 32)), passes * (c.pk / 32), false⟩] else [])
      else
        [⟨c.bBuf, c.n, c.bStride, rowOf (storedK c.k d) wb, true⟩, ⟨d.metaBuf, c.n, d.stride, rowOf (storedK c.k d) d.mLog, true⟩] ++
        (if fmtMx c.bFmt then [⟨c.bsBuf, c.n, align64 (ceilDiv (storedK c.k d) 32), ceilDiv (storedK c.k d) 32, false⟩] else [])
    | none =>
      (if c.bT then [⟨c.bBuf, c.n, c.bStride, rowOf c.k wb, true⟩] else [⟨c.bBuf, c.k, c.bStride, rowOf c.n wb, true⟩]) ++
      (if fmtMx c.bFmt then [⟨c.bsBuf, c.n, sk, ceilDiv c.k 32, false⟩] else [])
  let kc := ceilDiv (ceilDiv c.k c.pk) (4096 / c.pk)
  [⟨c.aBuf, rowsA, c.aStride, rowOf c.k wa, true⟩, ⟨c.dBuf, m, c.dStride, c.n * outBytes c.outFmt, true⟩] ++ b ++
  (if fmtMx c.aFmt then [⟨c.asBuf, rowsA, sk, ceilDiv c.k 32, false⟩] else []) ++
  (if canon && decide (1 < kc) then [⟨c.pBuf, 1, 0, ((kc - 1).log2 + 1) * m * c.cols * 4, false⟩] else []) ++
  (match c.colMask with | some d => [⟨d.maskBuf, 1, 0, 64 + ceilDiv c.n 8, false⟩] | none => []) ++
  (match c.kMask with | some d => [⟨d.maskBuf, 1, 0, 64 + ceilDiv c.k 8, false⟩] | none => []) ++
  (match c.gather with | some d => [⟨d.idxBuf, 1, 0, 2 * m, false⟩] | none => [])

/-- Does an extent reach beyond its buffer, or is its stride short or not a multiple of 64 (R233 kind 3)? -/
def State.extentBad (s : State) (n : Nat) (e : Extent) : Bool :=
  (e.strided && (e.stride % 64 != 0 || decide (e.stride < e.bytes))) ||
  (decide (0 < e.rows) && decide ((s.buf n e.buf).len < (e.rows - 1) * e.stride + e.bytes))

/-- Is a descriptor's KIND wrong for its operand and the B_T setting (R260, R284 kind 8)? -/
def TileCmd.kindBad (c : TileCmd) : Bool :=
  (match c.da with | some d => d.kind != 4 | none => false) ||
  (match c.db with
    | some d => !((d.kind == 1 && c.bT) || (d.kind == 2 && c.bT) || (d.kind == 3 && !c.bT))
    | none => false)

/-- Is a STRUCT descriptor wrong (R284 kind 9)? -/
def TileCmd.structBad (c : TileCmd) : Bool :=
  match c.struct with
  | none => false
  | some d =>
    !(decide (2 ≤ d.mLog) && decide (d.mLog ≤ 4)) || !(decide (1 ≤ d.nDecl) && decide (d.nDecl ≤ 2 ^ (d.mLog - 1))) ||
    c.k % 2 ^ d.mLog != 0 || c.bFmt == 7 || decide (10 < c.bFmt) ||
    (fmtMx c.bFmt && d.nDecl != 2 ^ d.nDecl.log2)

/-- Buffers a command must name (R233 kind 4); a descriptor of a reserved KIND names none. -/
def TileCmd.required (c : TileCmd) (canon : Bool) (kc : Nat) : List Nat :=
  let desc (d : Option FlmDesc) : List Nat := match d with
    | some d => if 1 ≤ d.kind && d.kind ≤ 4 then [d.buf] else []
    | none => []
  [c.aBuf, c.bBuf, c.dBuf] ++ (if fmtMx c.aFmt then [c.asBuf] else []) ++ (if fmtMx c.bFmt then [c.bsBuf] else []) ++
  (if canon && decide (1 < kc) then [c.pBuf] else []) ++ (if c.shaped then [c.shapeBuf] else []) ++ desc c.da ++ desc c.db

/-- The kind of TILE_INVALID a command has, with the buffer concerned (R233, R284): the lowest kind that applies, by the N and K that the
command names. -/
def State.tileFault (s : State) (n : Nat) (c : TileCmd) : Option (Nat × Nat) :=
  let canon := s.flag (Reg.CL_CTRL n) Fld.CL_CTRL_CANON
  let m := s.tileM n c
  let kc := ceilDiv (ceilDiv c.k c.pk) (4096 / c.pk)
  let named := c.inputs.map (fun e => e.1) ++ (c.outputs.filter (· != 255))
  let twice (b : Nat) : Bool := b != 255 && decide (1 < (named.filter (· == b)).length)
  let maxKc := s.fld (Reg.CL_CTRL n) Fld.CL_CTRL_CMD_MAX_KC
  let fmtBad := fmtBits c.aFmt == 0 || fmtBits c.bFmt == 0 || fmtGroup c.aFmt != fmtGroup c.bFmt || ((c.aFmt == 2) != (c.outFmt == 3))
  let structBad := c.kindBad || c.structBad
  let mask (d : Option FlmDesc) (f : Nat) : Option Nat := match d with
    | some d => if memNat s.mem (scratchAddr n (s.buf n d.maskBuf).base) 2 = f then none else some d.maskBuf
    | none => none
  if c.op != 1 then some (0, 255)
  else if fmtBad then some (1, 255)
  else if c.pack = 3 || (c.pack == 2 && decide (2048 < min m c.mMax)) then some (2, 255)
  else
    let t := s.tileOf n c
    let short := if structBad then none else (c.extents canon (min m c.mMax) t).find? fun e => e.buf != 255 && s.extentBad n e
    match short with
    | some e => some (3, e.buf)
    | none =>
      if twice c.dBuf then some (4, c.dBuf)
      else if twice c.pBuf then some (4, c.pBuf)
      else if (c.required canon kc).contains 255 then some (4, 255)
      else if c.shaped && decide (c.mMax < m) then some (5, c.shapeBuf)
      else if !structBad && maxKc != 0 && t.m != 0 && decide (maxKc * 1024 < { t with n := c.n, k := c.k }.cycles) then some (6, 255)
      else match named.find? fun b => !(s.buf n b).defined with
        | some b => some (7, b)
        | none =>
          if c.kindBad then some (8, 255)
          else if c.structBad then some (9, 255)
          else match mask c.colMask c.n, mask c.kMask c.k with
            | some b, _ => some (10, b)
            | none, some b => some (10, b)
            | none, none => none

/-- One step of what the array and the Flume read for a command (R236, R281): the load of the stationary B of a pass, and what the pass then
streams. `meta_` is the scratchpad ranges of its metadata, `rest` those of B, of C at the first pass of a block, and of A. -/
structure TileRead where
  block : Nat
  pass  : Nat
  span  : Nat × Nat
  meta_ : List (Nat × Nat)
  rest  : List (Nat × Nat)
  deriving DecidableEq, Repr

/-- The bytes of a packed row that hold elements `e` to `e + n − 1` of `w` bits: offset and length. -/
def rowPart (e n w : Nat) : Nat × Nat := (e * w / 8, ceilDiv ((e + n) * w) 8 - e * w / 8)

/-- The columns of block `j`. -/
def Tile.blockCols (t : Tile) (j : Nat) : List Nat :=
  ((List.range t.c.cols).map fun x => j * t.c.cols + x).filter fun n => decide (n < t.n)

/-- The ranges of B's metadata, and of its values and scales, that the load of a pass reads (R228, R263, R264, R270). -/
def Tile.loadReads (t : Tile) (n : Nat) (s : State) (j p : Nat) (span : Nat × Nat) : List (Nat × Nat) × List (Nat × Nat) :=
  let c := t.c
  let off (b : Nat) : Nat := (s.buf n b).base
  let wb := fmtBits c.bFmt
  let ns := (t.blockCols j).map t.colB
  let part (b stride : Nat) (ns : List Nat) (r : Nat × Nat) : List (Nat × Nat) := ns.map fun i => (off b + i * stride + r.1, r.2)
  let bMx := fmtMx c.bFmt
  match c.struct with
  | some d =>
    let g := t.group d
    if d.var then
      let held (x : Nat) : Nat := t.before d x p span.2
      (ns.map fun x => (off d.metaBuf + x * d.stride + p * mChunk g d, rowOf (4 * g + held x * d.mLog) 1),
       (ns.map fun x => (off c.bBuf + x * c.bStride + p * vChunk g wb d, rowOf (held x) wb)) ++
        (if bMx then part c.bsBuf (align64 (t.kb * (c.pk / 32))) ns (p * (c.pk / 32), c.pk / 32) else []))
    else
      let slot := span.1 * d.nDecl
      let m := span.2 * d.nDecl
      (part d.metaBuf d.stride ns (rowPart slot m d.mLog),
       part c.bBuf c.bStride ns (rowPart slot m wb) ++
        (if bMx then part c.bsBuf (align64 (ceilDiv (storedK t.k d) 32)) ns (slot / 32, ceilDiv (slot + m) 32 - slot / 32) else []))
  | none =>
    let ks := (rangeFrom span.1 span.2).map fun e => if c.kMask.isSome then nthD t.sel e 0 else e
    let lo := (ks.headD 0) / 32
    let hi := (ks.getLastD 0) / 32
    ([], (if c.bT then part c.bBuf c.bStride ns (rowPart span.1 span.2 wb)
          else part c.bBuf c.bStride ks (rowPart (j * c.cols) (t.blockCols j).length wb)) ++
         (if bMx then part c.bsBuf (align64 (ceilDiv c.k 32)) ns (lo, hi + 1 - lo) else []))

/-- The ranges of C that a block starts from (R237). -/
def Tile.startReads (t : Tile) (n : Nat) (s : State) (j : Nat) : List (Nat × Nat) :=
  let w := outBytes t.c.outFmt
  if t.c.accum then (List.range t.m).map fun i =>
    ((s.buf n t.c.dBuf).base + i * t.c.dStride + j * t.c.cols * w, (t.blockCols j).length * w)
  else []

/-- The ranges of A and of its scales that a pass streams (R228, R236, R272). -/
def Tile.streamReads (t : Tile) (n : Nat) (s : State) (span : Nat × Nat) : List (Nat × Nat) :=
  let c := t.c
  let mg := match c.struct with | some d => 2 ^ d.mLog | none => 1
  let e := span.1 * mg
  let m := span.2 * mg
  let rows (b stride : Nat) (r : Nat × Nat) : List (Nat × Nat) :=
    (List.range t.m).map fun i => ((s.buf n b).base + t.rowA i * stride + r.1, r.2)
  rows c.aBuf c.aStride (rowPart e m (fmtBits c.aFmt)) ++
  (if fmtMx c.aFmt then rows c.asBuf (align64 (ceilDiv t.k 32)) (e / 32, ceilDiv (e + m) 32 - e / 32) else [])

/-- Everything a command reads in fold order, after its masks and indices: N blocks outermost, then passes (R236). A block without passes
still starts from C (R271). -/
def Tile.reads (t : Tile) (n : Nat) (s : State) : List TileRead :=
  let some_ (rs : List (Nat × Nat)) : List (Nat × Nat) := rs.filter fun r => r.2 != 0
  ((List.range t.nb).map fun j =>
    if t.passes.isEmpty then [⟨j, 0, (0, 0), [], some_ (t.startReads n s j)⟩]
    else t.passes.zipIdx.map fun e =>
      let l := t.loadReads n s j e.2 e.1
      ⟨j, e.2, e.1, some_ l.1, some_ (l.2 ++ (if e.2 = 0 then t.startReads n s j else []) ++ t.streamReads n s e.1)⟩).flatten

/-- The first bad group of a STRUCT operand in the load of a pass (R279, R281): kind, group along K and column. -/
def Tile.badGroup (t : Tile) (d : FlmDesc) (j p : Nat) (span : Nat × Nat) : Option (Nat × Nat × Nat) :=
  let cell (n i : Nat) : Option (Nat × Nat × Nat) :=
    let cnt := t.count d n p i
    if d.nDecl < cnt then some (2, span.1 + i, n)
    else
      let code (x : Nat) : Nat := t.code d n p span.1 i x
      match (List.range (cnt - 1)).find? fun x => decide (code (x + 1) ≤ code x) with
      | some x => some (if code (x + 1) < code x then 0 else 1, span.1 + i, n)
      | none => none
  (t.blockCols j).findSome? fun n => (List.range span.2).findSome? fun i => cell n i

/-- A METADATA_FAULT or INDEX_RANGE_FAULT record (R279, R280, R283). -/
def State.flumeFault (s : State) (n code addr value kind source tag : Nat) : State :=
  let s := if code = Code.metadataFault then s.countSat (Reg.FLM_CNT_FAULTS n) Fld.FLM_CNT_FAULTS_METADATA 1
           else s.countSat (Reg.FLM_CNT_FAULTS n) Fld.FLM_CNT_FAULTS_INDEX_RANGE 1
  s.fault (s.clusterUnit n 2) code (some addr) (value + kind * 2 ^ 32 + source * 2 ^ 36 + tag * 2 ^ 48)

/-- What the partials of a canonical fold leave in P_BUF (R237): a free value, as the spec gives the partials a size and no layout. -/
def State.tilePartials (s : State) (n : Nat) (t : Tile) : State :=
  if t.canon && decide (1 < t.kc) && t.c.pBuf != 255 then
    s.undefRows .partials (scratchAddr n (s.buf n t.c.pBuf).base) 0 (((t.kc - 1).log2 + 1) * t.m * t.c.cols * 4) 1
  else s

/-- What a command that faults at work leaves in D and P_BUF (R234): free values, as its output is poisoned and no part of it stated. -/
def State.tileUndef (s : State) (n : Nat) (t : Tile) : State :=
  (s.tilePartials n t).undefRows .faultedOutput t.dAt t.c.dStride (t.n * outBytes t.c.outFmt) t.m

/-- The record of an operand word that a command meets bad: an uncorrectable one was reported where it was found (R219, R256). -/
def State.tileBad (s : State) (n st a : Nat) : State := if st = Code.poisoned then s.poisonedRecord n 1 (some a) else s

/-- A command reads its operands in fold order and the Flume checks each load's metadata while it loads (R236, R281): the time of the first
fault, if any, with its record. -/
def State.tileReads (s : State) (n : Nat) (t : Tile) : List TileRead → Option Nat × State
  | [] => (none, s)
  | r :: rs =>
    let (bad, s) := s.checkRanges n r.meta_
    match bad with
    | some (st, a) => (some (t.loadEnd r.block r.pass), s.tileBad n st a)
    | none =>
      match t.c.struct.bind fun d => (t.badGroup d r.block r.pass r.span).map fun g => (d, g) with
      | some (d, (kind, g, col)) =>
        let base := t.xAt + col * d.stride
        let a := if d.var then base + r.pass * mChunk (t.group d) d + (g - r.span.1) / 2 else base + d.mLog * g * d.nDecl / 8
        (some (t.loadEnd r.block r.pass), s.flumeFault n Code.metadataFault a g kind 2 t.c.tag)
      | none =>
        let (bad, s) := s.checkRanges n r.rest
        match bad with
        | some (st, a) => (some (t.loadEnd r.block r.pass), s.tileBad n st a)
        | none => State.tileReads s n t rs

/-- The first index of a ROWGATHER at or above LIMIT (R280), with its descriptor. -/
def Tile.farIndex (t : Tile) : Option (FlmDesc × Nat) :=
  match t.c.gather with
  | some d => ((List.range t.m).find? fun i => decide (d.limit ≤ nthD t.idx i 0)).map fun i => (d, i)
  | none => none

/-- The record of an uncorrectable accumulator word (R256): it names the first scratchpad byte of the D that the word was to make (DESIGN
CHOICE, log entry 40). -/
def State.accFault (s : State) (n : Nat) (t : Tile) : State :=
  let unit := s.clusterUnit n 0
  let s := s.countWrap Reg.ECC_CNT_SRAM Fld.ECC_CNT_SRAM_UNCORR 1
  let (d, s) := s.uncorrectableDetail 0 0
  (s.fault unit Code.uncorrectable (some t.dAt) d).eccEvent 2 unit 0 true 0

/-- What the accumulators of a sub-array hold after a command: its folds, or nothing once they are discarded (R225, R234). -/
def State.setAccs (s : State) (n pack sub : Nat) (vs : List (Nat × Nat)) : State :=
  s.onCluster n fun c =>
    { c with acc := vs.foldl (fun t v => tblPut v.1 0 v.2 t) (c.acc.filter fun e => accSub pack e.1 != sub) }

/-- What a command without faults of its form, masks or indices comes to: its operands are read in fold order, then D is written (R236). -/
def State.tileFold (s : State) (n : Nat) (t : Tile) (sub : Nat) (accBad : Bool) : Nat × Bool × State :=
  let (stop, s) := s.tileReads n t (t.reads n s)
  match stop with
  | some time => (time, true, (s.tileUndef n t).setAccs n t.c.pack sub [])
  | none =>
    if accBad then (t.cycles, true, ((s.accFault n t).tileUndef n t).setAccs n t.c.pack sub [])
    else
      let s := (List.range t.m).foldl (fun s i =>
        let r := t.row i
        let s := s.countSat (Reg.CL_STAT_MISC n) Fld.CL_STAT_MISC_INT_SAT r.2
        s.writeStore (t.dAt + i * t.c.dStride) r.1 false) (s.tilePartials n t)
      (t.cycles, false, s.setAccs n t.c.pack sub (t.accs sub))

/-- The ranges that the issue checks themselves read: the shape record and the headers of the masks (R228, R284). -/
def State.issueReads (s : State) (n : Nat) (c : TileCmd) : List (Nat × Nat) :=
  let word (b : Nat) : List (Nat × Nat) := if b != 255 && (s.buf n b).defined then [((s.buf n b).base, 8)] else []
  let mask (d : Option FlmDesc) : List (Nat × Nat) := match d with | some d => word d.maskBuf | none => []
  (if c.shaped then word c.shapeBuf else []) ++ mask c.colMask ++ mask c.kMask

/-- The ranges of the masks and indices that the Flume reads before the first pass (R268 to R272). -/
def Tile.selectReads (t : Tile) (n : Nat) (s : State) : List (Nat × Nat) :=
  let off (b : Nat) : Nat := (s.buf n b).base
  let mask (d : Option FlmDesc) (f : Nat) : List (Nat × Nat) := match d with | some d => [(off d.maskBuf, 64 + ceilDiv f 8)] | none => []
  mask t.c.colMask t.c.n ++ mask t.c.kMask t.c.k ++
  (match t.c.gather with | some d => if t.m = 0 then [] else [(off d.idxBuf, 2 * t.m)] | none => [])

/-- What a command comes to when it issues: the time to its end, whether it faulted, and the state with its records and results. -/
def State.tileWork (s : State) (n : Nat) (c : TileCmd) (sub : Nat) (accBad : Bool) : Nat × Bool × State :=
  let (bad, s) := s.checkRanges n (s.issueReads n c)
  match bad with
  | some (st, a) => (0, true, s.tileBad n st a)
  | none =>
  match s.tileFault n c with
  | some (kind, b) => (0, true, s.tileInvalid n (if 8 ≤ kind then 2 else 1) 0 c.tag kind b)
  | none =>
    if c.inputs.any (fun e => (s.buf n e.1).poison) || (c.accum && (s.buf n c.dBuf).poison) then (0, true, s.poisonedRecord n 1 none)
    else
      let t := s.tileOf n c
      if t.m = 0 then (0, false, s)
      else
        let (bad, s) := s.checkRanges n (t.selectReads n s)
        match bad with
        | some (st, a) => (t.startUp, true, s.tileBad n st a)
        | none =>
          match t.farIndex with
          | some (d, i) =>
            (t.startUp, true, s.flumeFault n Code.indexRange (scratchAddr n ((s.buf n d.idxBuf).base + 2 * i)) (nthD t.idx i 0) 0 1 c.tag)
          | none => if c.colMask.isSome && t.n == 0 then (0, false, s) else s.tileFold n t sub accBad

/-- MATMUL: the command at the head of a cluster's tile queue issues (R231, R232): its inputs gain a reader, its outputs are held,
and it runs for its cycle count. A command that ends at once retires here when nothing runs before it. `accBad` says that a word
of the accumulator file reads uncorrectable (R256). -/
def State.matmul (s : State) (n : Nat) (accBad : Bool) : State :=
  let cl := s.cluster n
  match cl.tiles with
  | [] => s
  | e :: rest =>
    let c := TileCmd.ofEntry e
    if cl.stop || s.colBusy || !s.clusterPresent n then s
    else match s.tileIssues n c with
      | none => s
      | some sub =>
        let s := s.onCluster n fun x => { x with tiles := rest }
        let (dur, faulted, s) := s.tileWork n c sub accBad
        let s := c.inputs.foldl (fun s b => s.addReader n b.1) s
        let s := (c.outputs.filter (· < 255)).foldl (fun s b => s.setBufState n b bufHeld) s
        let last := (cl.running.map fun r => r.stop).foldl max 0
        let r : RunCmd := { ins := c.inputs, outs := c.outputs, tag := c.tag, stop := max (s.clock.cycles + dur) last,
                            fault := faulted, form := c.pack, sub := sub }
        let s := s.onCluster n fun x =>
          { x with running := x.running ++ [r], busyFrom := if x.running.isEmpty then s.clock.cycles else x.busyFrom }
        let s := s.setFld (Reg.CL_CMD_STATUS n) Fld.CL_CMD_STATUS_FORM c.pack
        let s := (s.admitHeld n).queueCounts n
        if cl.running.isEmpty && dur = 0 then s.tileRetire n else s

end Sys2Proof.Machine
end

