-- ==== Sys2Proof/Machine/Dma.lean ====
section
/-! DEFINITION. The DMA engines (R221, R336, R350). -/

namespace Sys2Proof.Machine

/-- A DMA descriptor (R221). -/
structure DmaCmd where
  src     : Nat
  dst     : Nat
  len     : Nat
  srcBuf  : Nat
  dstBuf  : Nat
  dstLast : Bool
  rel     : Bool
  crc     : Bool
  tag     : Nat
  deriving DecidableEq, Repr

def DmaCmd.ofWords (ws : List Nat) : DmaCmd :=
  let w := nthD ws 2 0
  { src := nthD ws 0 0, dst := nthD ws 1 0, len := bitsOf w 0 32, srcBuf := bitsOf w 32 8, dstBuf := bitsOf w 40 8,
    dstLast := bitAt w 48, rel := bitAt w 49, crc := bitAt w 50, tag := bitsOf (nthD ws 3 0) 0 16 }

/-- Does a range lie in a buffer of the cluster's own scratchpad (R221)? -/
def State.inBuf (s : State) (n b a len : Nat) : Bool :=
  let x := s.buf n b
  decide (scratchAddr n x.base ≤ a) && decide (a + len ≤ scratchAddr n (x.base + x.len))

/-- The kind of TILE_INVALID a DMA descriptor has, with the buffer concerned (R221, R233). -/
def State.dmaFault (s : State) (n : Nat) (c : DmaCmd) : Option (Nat × Nat) :=
  let far (b a : Nat) : Bool := b != 255 && !s.inBuf n b a c.len
  let undefined (b : Nat) : Bool := b != 255 && !(s.buf n b).defined
  if c.len % 8 != 0 || c.len < 8 || 2 ^ 30 < c.len then some (2, 255)
  else if far c.srcBuf c.src then some (3, c.srcBuf)
  else if far c.dstBuf c.dst then some (3, c.dstBuf)
  else if c.srcBuf != 255 && c.srcBuf == c.dstBuf then some (4, c.srcBuf)
  else if undefined c.srcBuf then some (7, c.srcBuf)
  else if undefined c.dstBuf then some (7, c.dstBuf)
  else none

/-- Cut a transfer into pieces that end at multiples of `w` of the source address: offset and length; `fuel` bounds them. -/
def cutTransfer (w src : Nat) : Nat → Nat → Nat → List (Nat × Nat)
  | 0, _, _ => []
  | fuel + 1, off, left =>
    if left = 0 then []
    else
      let n := min left (w - (src + off) % w)
      (off, n) :: cutTransfer w src fuel (off + n) (left - n)

/-- Read one piece of a descriptor (R221): local data is delivered at once, poisoned where it reads poisoned or from a poisoned buffer;
fabric and companion data arrive later. -/
def State.dmaRead (s : State) (n e : Nat) (c : DmaCmd) (p : Nat × Nat) : State :=
  let who : Requester := .dma n e
  let a := c.src + p.1
  if s.isFabric a then s.issueOp ⟨who, Op.load, false, a, p.2, 255, 0, false, false, false, [], .dma (c.dst + p.1) p.1⟩
  else match s.decode a with
    | .companion x => s.companionLoad who (x - companionBase) p.2 (.dma (c.dst + p.1) p.1)
    | _ =>
      let (st, bs, s) := s.readLocal who a p.2
      s.dmaData n e (c.dst + p.1) p.1 bs (st != 0 || (decide (c.srcBuf < 255) && (s.buf n c.srcBuf).poison))

/-- The pieces a descriptor reads in: fabric operations of at most 256 bytes, companion lines, HBM sectors or SRAM words. -/
def State.dmaPieces (s : State) (c : DmaCmd) : List (Nat × Nat) :=
  let w := if s.isFabric c.src then 256 else match s.decode c.src with | .companion _ => 128 | .hbm _ => 32 | _ => 8
  cutTransfer w c.src (c.len / 8 + 2) 0 c.len

/-- Count a completed descriptor (R253). -/
def State.dmaDone (s : State) (n e : Nat) : State :=
  let s := s.countWrap (Reg.CL_DMA_STATUS n) (if e = 0 then Fld.CL_DMA_STATUS_DONE0 else Fld.CL_DMA_STATUS_DONE1) 1
  s.retireIrq n

/-- A 64-byte descriptor that stores a chunk header into the header ring of the stage region of a member sends one chunk of the
running collective (R385 to R387, R400, R401): counted, and as a re-send when the header's ATTEMPT is not 0 (log entry 21). -/
def State.countChunk (s : State) (n : Nat) (c : DmaCmd) : State :=
  let stage := bitsOf (nthD s.col.desc 0 0) 32 8
  let header (d x : Nat) : Bool := match s.regionAt d x with
    | some (r, o) => r == stage && decide (0x8000 ≤ o) && decide (o < 0x2_8000)
    | none => false
  let hit := match s.decode c.dst with
    | .node _ off => decide (0xC0_0000_0000 ≤ off) && header ((off - 0xC0_0000_0000) / 2 ^ 32) ((off - 0xC0_0000_0000) % 2 ^ 32)
    | .rsv d x _ => header d x
    | _ => false
  if s.colBusy && c.len == 64 && hit then
    let again := leNat (s.peekLocal 2 (c.src + 29) 1) / 16 != 0
    let s := s.countWrap Reg.COL_CNT_CHUNK Fld.COL_CNT_CHUNK_SENT 1
    let s := if again then s.countWrap Reg.COL_CNT_CHUNK Fld.COL_CNT_CHUNK_RESENT 1 else s
    s.countWrap (Reg.COL_CL_STAT n) Fld.COL_CL_STAT_CHUNKS 1
  else s

/-- DMA_START: an idle engine starts the next descriptor of its queue once SRC_BUF is FULL (R221). A descriptor that is invalid, or
whose DST_BUF may not be written, completes at once and moves nothing. -/
def State.dmaStart (s : State) (n e : Nat) : State :=
  let e := e % 2
  let cl := s.cluster n
  match tblGetD e [] cl.dmaQ with
  | [] => s
  | ws :: rest =>
    let c := DmaCmd.ofWords ws
    if cl.stop || !s.clusterPresent n || (tblFind e cl.dmaRun).isSome || !s.inReady n c.srcBuf then s
    else
      let s := s.onCluster n fun x => { x with dmaQ := tblSet e rest x.dmaQ }
      match s.dmaFault n c with
      | some (kind, b) => (s.tileInvalid n (8 + e) (2 + e) c.tag kind b).dmaDone n e
      | none =>
        if c.dstBuf != 255 && !(decide ((s.buf n c.dstBuf).state ≤ bufFilling)) then (s.bufferBusy n c.dstBuf 2 0).dmaDone n e
        else
          let s := (s.countChunk n c).addReader n c.srcBuf
          let s := if c.dstBuf = 255 then s else s.setBufState n c.dstBuf bufFilling
          let s := s.onCluster n fun x => { x with dmaRun := tblSet e ⟨ws, [], []⟩ x.dmaRun }
          ((s.dmaPieces c).foldl (fun s p => s.dmaRead n e c p) s).dmaPump.acceptWaiting.runSwaps

/-- The data of a CRC descriptor in ascending order. -/
def crcData (ps : List (Nat × List Byte)) : List Byte :=
  ((sortBy (fun a b : Nat × List Byte => decide (a.1 ≤ b.1)) ps).map fun p => p.2).flatten

/-- DMA_COMPLETE: every write of the running descriptor is acknowledged (R221, R350). -/
def State.dmaComplete (s : State) (n e : Nat) : State :=
  let e := e % 2
  match tblFind e (s.cluster n).dmaRun with
  | none => s
  | some r =>
    let who : Requester := .dma n e
    if !s.clusterPresent n || s.opsOpen who || s.tl.reads.any (fun x => x.who == who) || !r.unsent.isEmpty then s
    else
      let c := DmaCmd.ofWords r.words
      let s := s.onCluster n fun x => { x with dmaRun := tblErase e x.dmaRun }
      let s := if c.srcBuf = 255 then s else s.dropReader n (c.srcBuf, c.rel)
      let s := if c.dstLast then s.fillBuf n bufFilling c.dstBuf else s
      let s := if c.crc then
          s.setFld (Reg.CL_DMA_CRC n) (if e = 0 then Fld.CL_DMA_CRC_CRC0 else Fld.CL_DMA_CRC_CRC1) (crc32c (crcData r.pieces))
        else s
      s.dmaDone n e

end Sys2Proof.Machine
end

