-- ==== Sys2Proof/Machine/Vector.lean ====
section
/-! DEFINITION. The vector unit: its commands, checks, arithmetic, row reductions and sampling (R246 to R252). -/

namespace Sys2Proof.Machine

/-- A vector command (R246). -/
structure VecCmd where
  op     : Nat
  fmtIn  : Nat
  fmtOut : Nat
  tag    : Nat
  src0   : Nat
  src1   : Nat
  dst    : Nat
  par    : Nat
  rows   : Nat
  cols   : Nat
  imm0   : Nat
  imm1   : Nat
  rel    : Bool
  deriving DecidableEq, Repr

def VecCmd.ofWords (ws : List Nat) : VecCmd :=
  let f (i lo w : Nat) : Nat := bitsOf (nthD ws i 0) lo w
  { op := f 0 0 8, fmtIn := f 0 8 2, fmtOut := f 0 10 2, tag := f 0 16 16, src0 := f 0 32 8, src1 := f 0 40 8, dst := f 0 48 8,
    par := f 0 56 8, rows := f 1 0 32, cols := f 1 32 32, imm0 := f 2 0 32, imm1 := f 2 32 32, rel := bitAt (nthD ws 3 0) 0 }

/-- Bytes of an element of a vector format (R246). -/
def vecBytes (f : Nat) : Nat := if f = 0 then 4 else 2

/-- Where row `r` of an operand of `n` elements of `e` bytes starts (R246). -/
def vecRow (n e r : Nat) : Nat := r * align64 (n * e)

-- Arithmetic -------------------------------------------------------------------------------------------------------

/-- The integer square root by bits; `fuel` counts them. -/
def isqrtAux : Nat → Nat → Nat → Nat
  | 0, _, r => r
  | fuel + 1, v, r =>
    let c := r + 2 ^ fuel
    isqrtAux fuel v (if c * c ≤ v then c else r)

def isqrt (v : Nat) : Nat := isqrtAux (v.log2 / 2 + 1) v 0

/-- 1 ÷ √x of an exact value, correctly rounded to FP32 (R247). -/
def rsq (v : FVal) : Nat :=
  match v with
  | .nan => nan32
  | .inf true => nan32
  | .inf false => 0
  | .fin neg m e =>
    if m = 0 then (if neg then 0xFF800000 else 0x7F800000)
    else if neg then nan32
    else
      let odd := e % 2 ≠ 0
      let m2 := if odd then 2 * m else m
      let e2 := if odd then e - 1 else e
      let k := 2 * (64 + m2.log2)
      let v := 2 ^ k / m2
      let r := isqrt v
      toF32 (.fin false (2 * r + (if r * r * m2 = 2 ^ k then 0 else 1)) (-(k : Int) / 2 - e2 / 2 - 1))

/-- The exponential of an exact value, correctly rounded to FP32 (R149, R247). -/
def expExact (v : FVal) : Nat :=
  match v with
  | .nan => nan32
  | .inf true => 0
  | .inf false => 0x7F800000
  | .fin neg m e =>
    if m = 0 then one32
    else if (8 : Int) ≤ e + m.log2 then (if neg then 0 else 0x7F800000)
    else toF32 (expDyadic neg m e)

/-- exp(a − b) of two FP32 patterns (R247). -/
def expDiff (a b : Nat) : Nat := expExact ((f32 a).add (f32 b).neg)

/-- The elements of a lane of a row reduction: l, l + 256, … (R248). -/
def laneElems (xs : List Nat) (l : Nat) : List Nat :=
  (List.range (ceilDiv (xs.length - l) 256)).map fun i => nthD xs (l + 256 * i) 0

/-- A pairwise tree in lane order. -/
def pairTree (f : Nat → Nat → Nat) : Nat → List Nat → List Nat
  | 0, xs => xs
  | n + 1, xs =>
    let rec level : List Nat → List Nat
      | a :: b :: rest => f a b :: level rest
      | ys => ys
    pairTree f n (level xs)

/-- A row reduction in the order of R248: 256 lanes folded from a start value, then the tree. -/
def rowReduce (start : Nat) (fold comb : Nat → Nat → Nat) (xs : List Nat) : Nat :=
  (pairTree comb 8 ((List.range 256).map fun l => (laneElems xs l).foldl fold start)).headD start

def rowSum (xs : List Nat) : Nat := rowReduce 0 add32 add32 xs
def rowMax (xs : List Nat) : Nat := rowReduce 0xFF800000 max32 max32 xs

/-- The sum of squares, one rounding per element (R247). -/
def rowSumSq (xs : List Nat) : Nat := rowReduce 0 (fun acc a => fma32 a a acc) add32 xs

-- Rows -------------------------------------------------------------------------------------------------------------

/-- Elements of a row, widened to FP32 (R247). -/
def rowElems (mem : Memory) (a fmt n : Nat) : List Nat :=
  let e := vecBytes fmt
  (List.range n).map fun i => ofOut fmt (memNat mem (a + i * e) e)

/-- The rotary pairs of a row (R247): (c, s) stand in row i of b for pair i. -/
def ropeRow (xs : List Nat) (cs : Nat → Nat × Nat) : List Nat :=
  ((List.range (xs.length / 2)).map fun i =>
    let x := f32 (nthD xs (2 * i) 0)
    let y := f32 (nthD xs (2 * i + 1) 0)
    let c := f32 (cs i).1
    let sn := f32 (cs i).2
    [toF32 ((x.mul c).add (y.mul sn).neg), toF32 ((x.mul sn).add (y.mul c))]).flatten

/-- One row of an operation: the FP32 elements written to DST_BUF, or for QUANT_ROW the FP8 patterns, and the FP32 written to
PAR_BUF (R247). -/
def VecCmd.row (c : VecCmd) (a b : List Nat) (cs : Nat → Nat × Nat) : List Nat × Option Nat :=
  match c.op with
  | 1 => (List.zipWith add32 a b, none)
  | 2 => (List.zipWith mul32 a b, none)
  | 3 => (List.zipWith (fun x y => fma32 c.imm0 x y) a b, none)
  | 4 => (a.map fun x => fma32 x c.imm0 c.imm1, none)
  | 5 => (a.map exp32, none)
  | 6 => (List.zipWith (fun x y => mul32 (mul32 x (sig32 x)) y) a b, none)
  | 7 =>
    let mean := toF32 ((f32 (rowSumSq a)).div (FVal.ofInt c.cols))
    let v := rsq ((f32 mean).add (f32 c.imm0))
    (List.zipWith (fun x y => mul32 (mul32 x v) y) a b, none)
  | 8 =>
    let mx := rowMax a
    let es := a.map fun x => expDiff x mx
    let z := rowSum es
    (es.map fun e => div32 e z, none)
  | 9 => (ropeRow a cs, none)
  | 10 => (a, none)
  | 11 =>
    let mx := rowMax (a.map fun x => x % 2 ^ 31)
    let sc := toF32 ((f32 mx).div (FVal.ofInt 448))
    let sc := if sc % 2 ^ 31 = 0 then one32 else sc
    (a.map fun x => fencode e4m3 true ((f32 x).div (f32 sc)), some sc)
  | 12 => ([], some (rowSum a))
  | _ => ([], some (rowMax a))

-- Sampling ---------------------------------------------------------------------------------------------------------

/-- The mix function of the draw (R251). -/
def smix (seed pos : Nat) : Nat :=
  let h := seed ^^^ (pos * 0x9E6D52A3C41F0B87 % 2 ^ 64)
  let h := h ^^^ (h >>> 33)
  let h := h * 0xA3C59E174B6D2F81 % 2 ^ 64
  let h := h ^^^ (h >>> 29)
  let h := h * 0x5F29E0B3C7816A4D % 2 ^ 64
  h ^^^ (h >>> 32)

/-- Sampling orders by value, a NaN below −∞ and the two zeros alike (R252). -/
def sampleKey (b : Nat) : Nat := rankKey (if b = 2 ^ 31 then 0 else b)

/-- Token indices by descending value, ties to the lower index (R252). -/
def sampleRank (zs : List Nat) : List (Nat × Nat) :=
  sortBy (fun a b : Nat × Nat => decide (sampleKey b.1 ≤ sampleKey a.1)) zs.zipIdx

/-- Is FP32 value a at or above b, above b? NaN compares false. -/
def ge32 (a b : Nat) : Bool := !isNan32 a && !isNan32 b && decide (sampleKey b ≤ sampleKey a)
def gt32 (a b : Nat) : Bool := !isNan32 a && !isNan32 b && decide (sampleKey b < sampleKey a)

/-- Running sums, each rounded (R252). -/
def prefixSums : Nat → List Nat → List Nat
  | _, [] => []
  | acc, x :: xs => let c := add32 acc x; c :: prefixSums c xs

/-- One row of SAMPLE: token and probability, or none when the row is invalid (R250, R252). -/
def sampleRow (logits : List Nat) (seed pos temp topP topK : Nat) : Option (Nat × Nat) :=
  let okTemp := !isNan32 temp && (temp < 2 ^ 31 || temp == 2 ^ 31)
  let okP := gt32 topP 0 && ge32 one32 topP
  if !okTemp || !okP || topK < 1 || 1024 < topK then none
  else
    let cold := temp % 2 ^ 31 == 0
    let zs := if cold then logits else logits.map fun x => div32 x temp
    let ranked := sampleRank zs
    match ranked with
    | [] => none
    | (top, first) :: _ =>
      if isNan32 top || top == 0xFF800000 then none
      else if cold then some (first, one32)
      else
        let kept := ranked.take (min topK logits.length)
        let es := kept.map fun r => expDiff r.1 top
        let cs := prefixSums 0 es
        let n := kept.length
        let limit := mul32 topP (nthD cs (n - 1) 0)
        let cut := ((List.range n).find? fun j => ge32 (nthD cs j 0) limit).getD (n - 1)
        let total := nthD cs cut 0
        let u : FVal := .fin false (smix seed pos >>> 40) (-24)
        let t := toF32 (u.mul (f32 total))
        let pick := ((List.range (cut + 1)).find? fun j => gt32 (nthD cs j 0) t).getD cut
        some ((nthD kept pick (0, 0)).2, div32 (nthD es pick 0) total)

-- Checks and time --------------------------------------------------------------------------------------------------

def VecCmd.usesSrc1 (c : VecCmd) : Bool := [1, 2, 3, 6, 7, 9].contains c.op
def VecCmd.usesDst (c : VecCmd) : Bool := !([12, 13].contains c.op)
def VecCmd.parOut (c : VecCmd) : Bool := [11, 12, 13].contains c.op
def VecCmd.parIn (c : VecCmd) : Bool := c.op == 14

def VecCmd.inputs (c : VecCmd) : List (Nat × Bool) :=
  mergeInputs (([(c.src0, c.rel), (c.src1, c.rel)] ++ (if c.parOut then [] else [(c.par, false)])).filter fun e => e.1 != 255)

def VecCmd.outputs (c : VecCmd) : List Nat := if c.usesDst then [c.dst] ++ (if c.parOut then [c.par] else []) else [c.par, c.dst]

/-- Bytes of a destination element. -/
def VecCmd.outElem (c : VecCmd) : Nat := if c.op = 11 then 1 else vecBytes c.fmtOut

/-- Bytes each buffer must hold (R233 kind 3, R246, R250): per-row parameters and sampling results stand densely packed. -/
def VecCmd.extents (c : VecCmd) : List (Nat × Nat) :=
  let e := vecBytes c.fmtIn
  let last (rows n e : Nat) : Nat := vecRow n e (rows - 1) + n * e
  [(c.src0, last c.rows c.cols e)] ++
  (if c.usesSrc1 then
    [(c.src1, if c.op = 7 then c.cols * e else if c.op = 9 then (c.cols / 2 - 1) * align64 (c.cols * e) + 2 * e else last c.rows c.cols e)]
   else []) ++
  (if c.usesDst then [(c.dst, if c.op = 14 then 8 * c.rows else last c.rows c.cols c.outElem)] else []) ++
  (if c.parOut then [(c.par, 4 * c.rows)] else []) ++ (if c.parIn then [(c.par, 32 * c.rows)] else [])

/-- The sampling parameters of a row (R250). -/
def VecCmd.param (mem : Memory) (parAt r : Nat) (off n : Nat) : Nat := memNat mem (parAt + 32 * r + off) n

/-- The cycles of a vector command (R249, R252). -/
def VecCmd.cycles (c : VecCmd) (mem : Memory) (parAt : Nat) : Nat :=
  let n := c.rows * c.cols
  let narrow := c.fmtIn == 1 && c.fmtOut == 1 && [1, 2, 3, 4, 10].contains c.op
  let reds := match c.op with | 7 => 1 | 8 => 2 | 11 => 1 | 12 => 1 | 13 => 1 | _ => 0
  20 + reds * 10 * c.rows +
  (if c.op = 14 then
    sumNats ((List.range c.rows).map fun r => ceilDiv c.cols 256 * 2 + min (VecCmd.param mem parAt r 24 2) c.cols + 40)
   else if [5, 6, 8].contains c.op then ceilDiv n 128 else if narrow then ceilDiv n 512 else ceilDiv n 256)

/-- The kind of TILE_INVALID a vector command has, with the buffer concerned (R233): the lowest kind that applies. -/
def State.vecFault (s : State) (n : Nat) (c : VecCmd) : Option (Nat × Nat) :=
  let outs := c.outputs.filter (· != 255)
  let named := c.inputs.map (fun e => e.1) ++ outs
  let maxKc := s.fld (Reg.CL_CTRL n) Fld.CL_CTRL_CMD_MAX_KC
  let required := [c.src0] ++ (if c.usesSrc1 then [c.src1] else []) ++ (if c.usesDst then [c.dst] else []) ++
    (if c.parOut || c.parIn then [c.par] else [])
  if c.op = 0 || 14 < c.op then some (0, 255)
  else if c.fmtIn = 3 || c.fmtOut = 3 then some (1, 255)
  else if c.rows = 0 || 65536 < c.rows || c.cols = 0 || 262144 < c.cols then some (2, 255)
  else match c.extents.find? fun e => e.1 != 255 && decide ((s.buf n e.1).len < e.2) with
    | some e => some (3, e.1)
    | none => match outs.find? fun b => decide (1 < (named.filter (· == b)).length) with
      | some b => some (4, b)
      | none =>
        if required.contains 255 then some (4, 255)
        else if maxKc != 0 && decide (maxKc * 1024 < c.cycles s.mem (scratchAddr n (s.buf n c.par).base)) then some (6, 255)
        else (named.find? fun b => !(s.buf n b).defined).map fun b => (7, b)

/-- The scratchpad ranges a vector command reads. -/
def VecCmd.reads (c : VecCmd) (s : State) (n : Nat) : List (Nat × Nat) :=
  let e := vecBytes c.fmtIn
  let off (b : Nat) : Nat := (s.buf n b).base
  let rows (b count len : Nat) : List (Nat × Nat) := (List.range count).map fun r => (off b + vecRow c.cols e r, len)
  rows c.src0 c.rows (c.cols * e) ++
  (if c.usesSrc1 then (if c.op = 7 then rows c.src1 1 (c.cols * e) else if c.op = 9 then rows c.src1 (c.cols / 2) (2 * e)
    else rows c.src1 c.rows (c.cols * e)) else []) ++
  (if c.parIn then [(off c.par, 32 * c.rows)] else [])

/-- Write what one row of a vector command gives. -/
def State.vecRowOut (s : State) (n : Nat) (c : VecCmd) (r : Nat) : State :=
  let e := vecBytes c.fmtIn
  let at_ (b : Nat) : Nat := scratchAddr n (s.buf n b).base
  let a := rowElems s.mem (at_ c.src0 + vecRow c.cols e r) c.fmtIn c.cols
  if c.op = 14 then
    let p := VecCmd.param s.mem (at_ c.par) r
    match sampleRow a (p 0 8) (p 8 8) (p 16 4) (p 20 4) (p 24 2) with
    | some (tok, prob) => s.writeStore (at_ c.dst + 8 * r) (leBytes 8 (tok + prob * 2 ^ 32)) false
    | none =>
      (s.writeStore (at_ c.dst + 8 * r) (leBytes 8 (0xFFFFFFFF + nan32 * 2 ^ 32)) false).countSat (Reg.CL_STAT_MISC n)
        Fld.CL_STAT_MISC_SAMPLE_INVALID 1
  else
    let b := if c.usesSrc1 && c.op != 9 then
        rowElems s.mem (at_ c.src1 + vecRow c.cols e (if c.op = 7 then 0 else r)) c.fmtIn c.cols
      else []
    let cs (i : Nat) : Nat × Nat :=
      match rowElems s.mem (at_ c.src1 + vecRow c.cols e i) c.fmtIn 2 with
      | [x, y] => (x, y)
      | _ => (0, 0)
    let (out, par) := c.row a b cs
    let bytes := if c.op = 11 then out.map (BitVec.ofNat 8) else (out.map fun v => leBytes c.outElem (toOut c.fmtOut (toF32 (f32 v)))).flatten
    let s := if c.usesDst then s.writeStore (at_ c.dst + vecRow c.cols c.outElem r) bytes false else s
    match par with
    | some v => s.writeStore (at_ c.par + 4 * r) (leBytes 4 v) false
    | none => s

/-- What a vector command that faults at work leaves in its outputs (R234, R246): free values. -/
def State.vecUndef (s : State) (n : Nat) (c : VecCmd) : State :=
  let at_ (b : Nat) : Nat := scratchAddr n (s.buf n b).base
  let len := c.cols * c.outElem
  let s := if !c.usesDst then s
           else if c.op = 14 then s.undefRows .faultedOutput (at_ c.dst) 8 8 c.rows
           else s.undefRows .faultedOutput (at_ c.dst) (align64 len) len c.rows
  if c.parOut then s.undefRows .faultedOutput (at_ c.par) 4 4 c.rows else s

/-- What a vector command comes to when it issues. -/
def State.vecWork (s : State) (n : Nat) (c : VecCmd) : Nat × Bool × State :=
  match s.vecFault n c with
  | some (kind, b) => (0, true, s.tileInvalid n 3 1 c.tag kind b)
  | none =>
    if c.inputs.any fun e => (s.buf n e.1).poison then (0, true, s.poisonedRecord n 3 none)
    else
      let (bad, s) := s.checkRanges n (c.reads s n)
      match bad with
      | some (st, a) => (0, true, if st = Code.poisoned then s.poisonedRecord n 3 (some a) else s.vecUndef n c)
      | none =>
        let t := c.cycles s.mem (scratchAddr n (s.buf n c.par).base)
        (t, false, (List.range c.rows).foldl (fun s r => s.vecRowOut n c r) s)

/-- The vector command at the head of a cluster's queue issues when it carries the operation `op`, or a reserved one (R246). -/
def State.vecIssue (s : State) (n op : Nat) : State :=
  let cl := s.cluster n
  match cl.vecs with
  | [] => s
  | ws :: rest =>
    let c := VecCmd.ofWords ws
    let mine := c.op == op || c.op == 0 || decide (14 < c.op)
    if cl.stop || !s.clusterPresent n || !mine || cl.vecRun.isSome ||
        !(c.inputs.all (fun e => s.inReady n e.1) && c.outputs.all (fun b => s.outReady n b)) then s
    else
      let s := s.onCluster n fun x => { x with vecs := rest }
      let (dur, faulted, s) := s.vecWork n c
      let s := c.inputs.foldl (fun s b => s.addReader n b.1) s
      let s := (c.outputs.filter (· < 255)).foldl (fun s b => s.setBufState n b bufHeld) s
      let r : RunCmd := { ins := c.inputs, outs := c.outputs, tag := c.tag, stop := s.clock.cycles + dur, fault := faulted, form := 0,
                          sub := 0 }
      let s := s.onCluster n fun x => { x with vecRun := some r }
      let s := (s.admitHeld n).queueCounts n
      if dur = 0 then s.vecRetire n else s

end Sys2Proof.Machine
end

