-- ==== Sys2Proof/Machine/Flume.lean ====
section
/-! DEFINITION. The Flume's command path: GATHER, COMPACT, MASK, CHECK and MERGE, their checks and the predictor's counts (R268,
R273 to R290). -/

namespace Sys2Proof.Machine

/-- A Flume command (R274). -/
structure FlmCmd where
  op   : Nat
  rel  : Bool
  flag : Bool
  tag  : Nat
  src  : Nat
  aux  : Nat
  dst  : Nat
  dst2 : Nat
  p0   : Nat
  p1   : Nat
  p2   : Nat
  p3   : Nat
  addr : Nat
  deriving DecidableEq, Repr

def FlmCmd.ofWords (ws : List Nat) : FlmCmd :=
  let f (i lo w : Nat) : Nat := bitsOf (nthD ws i 0) lo w
  { op := f 0 0 8, rel := bitAt (nthD ws 0 0) 8, flag := bitAt (nthD ws 0 0) 9, tag := f 0 16 16, src := f 0 32 8, aux := f 0 40 8,
    dst := f 0 48 8, dst2 := f 0 56 8, p0 := f 1 0 32, p1 := f 1 32 32, p2 := f 2 0 32, p3 := f 2 32 32, addr := nthD ws 3 0 }

/-- The tile and mask that MERGE names in P1 (R275). -/
def FlmCmd.tileR (c : FlmCmd) : Nat := if c.op = 5 then bitsOf c.p1 0 8 else 255
def FlmCmd.maskR (c : FlmCmd) : Nat := if c.op = 5 then bitsOf c.p1 8 8 else 255

def FlmCmd.inputs (c : FlmCmd) : List (Nat × Bool) :=
  mergeInputs ([(c.src, c.rel), (c.aux, c.rel), (c.tileR, false), (c.maskR, false)].filter fun e => e.1 != 255)

def FlmCmd.outputs (c : FlmCmd) : List Nat := [c.dst, c.dst2].filter (· != 255)

/-- COMPACT's parameters (R275). -/
def FlmCmd.fmt (c : FlmCmd) : Nat := bitsOf c.p2 0 4
def FlmCmd.desc (c : FlmCmd) : FlmDesc :=
  { kind := 1, var := bitAt c.p2 12, invert := false, release := false, mLog := bitsOf c.p2 4 3, nDecl := bitsOf c.p2 8 4,
    metaBuf := c.dst2, maskBuf := 255, idxBuf := 255, limit := 0, stride := 0 }

/-- Element bytes of scores and shadow values (R275). -/
def FlmCmd.elem (c : FlmCmd) : Nat := if c.flag then 2 else 4

-- What buffers hold ------------------------------------------------------------------------------------------------

def State.bufAt (s : State) (n b : Nat) : Nat := scratchAddr n (s.buf n b).base

/-- A mask's header fields (R268). -/
def State.maskF (s : State) (n b : Nat) : Nat := memNat s.mem (s.bufAt n b) 2
def State.maskFlags (s : State) (n b : Nat) : Nat := memNat s.mem (s.bufAt n b + 4) 1
def State.maskTokens (s : State) (n b : Nat) : Nat := memNat s.mem (s.bufAt n b + 6) 2
def State.maskStep (s : State) (n b : Nat) : Nat := memNat s.mem (s.bufAt n b + 8) 8

/-- The 64-byte header and the bitmap of a mask (R268). -/
def maskBytes (f flags tokens step : Nat) (rows : List Nat) : List Byte :=
  leBytes 2 f ++ leBytes 2 rows.length ++ leBytes 1 flags ++ leBytes 1 0 ++ leBytes 2 tokens ++ leBytes 8 step ++
  List.replicate 48 0 ++ leBytes (ceilDiv f 8) (joinChunks 1 ((List.range f).map fun i => b2n (rows.contains i)))

/-- A shape record as GATHER reads it (R200). -/
structure ShapeRec where
  m     : Nat
  runs  : Nat
  z     : Nat
  lines : Nat
  predR : Nat
  land  : Nat
  index : Nat
  deriving DecidableEq, Repr

def State.shapeRec (s : State) (n b : Nat) : ShapeRec :=
  let a := s.bufAt n b
  { m := memNat s.mem (a + 4) 4, runs := memNat s.mem (a + 16) 8, z := memNat s.mem (a + 40) 2, lines := memNat s.mem (a + 42) 1,
    predR := bitsOf (memNat s.mem (a + 44) 2) 4 8, land := memNat s.mem (a + 46) 1, index := memNat s.mem (a + 56) 8 }

-- Checks at issue --------------------------------------------------------------------------------------------------

/-- Bytes each named buffer must hold, rows at multiples of 64 bytes (R274, R277). -/
def State.flmExtents (s : State) (n : Nat) (c : FlmCmd) : List (Nat × Nat) :=
  let rows (count bytes : Nat) : Nat := count * align64 bytes
  match c.op with
  | 1 =>
    if c.flag then
      let r := s.shapeRec n c.src
      [(c.src, 64), (c.dst, rows r.m c.p1), (c.dst2, rows r.m (2 * r.predR))]
    else [(c.src, 2 * c.p0), (c.dst, rows c.p0 c.p1)]
  | 2 =>
    let d := c.desc
    let w := fmtBits c.fmt
    let g := 128 / d.nDecl
    let bg := blockGroups d
    let groups := c.p1 / 2 ^ d.mLog
    let kb := sumNats ((List.range (ceilDiv groups bg)).map fun b => ceilDiv (min bg (groups - b * bg)) g)
    let ks := storedK c.p1 d
    [(c.src, rows c.p0 (rowOf c.p1 w)), (c.dst, rows c.p0 (if d.var then kb * vChunk g w d else rowOf ks w)),
     (c.dst2, rows c.p0 (if d.var then kb * mChunk g d else rowOf ks d.mLog))]
  | 3 => [(c.src, rows c.p0 (c.p1 * c.elem)), (c.dst, 64 + ceilDiv c.p1 8)]
  | 4 => [(c.src, rows c.p0 (c.p1 * c.elem)), (c.aux, 64 + ceilDiv (s.maskF n c.aux) 8), (c.dst, 64 + ceilDiv (s.maskF n c.aux) 8)]
  | 5 =>
    let f := s.maskF n c.aux
    let np := (s.maskRows n c.aux f true).length
    let nr := (s.maskRows n c.maskR (s.maskF n c.maskR) true).length
    [(c.src, rows c.p0 (np * c.p2)), (c.aux, 64 + ceilDiv f 8), (c.tileR, rows c.p0 (nr * c.p2)), (c.maskR, 64 + ceilDiv f 8),
     (c.dst, rows c.p0 ((np + nr) * c.p2)), (c.dst2, 64 + ceilDiv f 8)]
  | _ => []

/-- The own cluster's scratchpad, and Reservoir region view, as a GATHER source (R275). -/
def gatherSource (n a : Nat) : Bool :=
  (decide (rsvRegionBase ≤ a) && decide (a < rsvRegionBase + 0x40_0000_0000)) ||
  (decide (scratchAddr n 0 ≤ a) && decide (a < scratchAddr (n + 1) 0))

/-- A reserved OP, a parameter outside its limits, a source outside the permitted ranges, or sizes that disagree (R284 kind 11). -/
def State.flmParamBad (s : State) (n : Nat) (c : FlmCmd) : Bool :=
  match c.op with
  | 1 => if c.flag then c.p1 % 64 != 0 else !gatherSource n c.addr
  | 2 =>
    let d := c.desc
    !([0, 1, 2, 9, 10].contains c.fmt) || d.mLog < 2 || 4 < d.mLog || d.nDecl < 1 || 2 ^ (d.mLog - 1) < d.nDecl ||
    c.p1 % 2 ^ d.mLog != 0
  | 3 => c.p1 < 1 || 65535 < c.p1 || 65535 < c.p0
  | 4 =>
    let f := s.maskF n c.aux
    f == 0 || 65535 < c.p0 || c.p1 + (s.maskRows n c.aux f true).length != f
  | 5 => !(c.p2 == 2 || c.p2 == 4) || s.maskF n c.aux == 0 || s.maskF n c.aux != s.maskF n c.maskR
  | _ => true

/-- Buffers a Flume command must name (R275). -/
def FlmCmd.required (c : FlmCmd) : List Nat :=
  [c.src, c.dst] ++ (match c.op with | 2 => [c.dst2] | 4 => [c.aux] | 5 => [c.aux, c.tileR, c.maskR, c.dst2] | _ => [])

/-- The kind of TILE_INVALID a Flume command has, with the buffer concerned (R233, R284). -/
def State.flmInvalid (s : State) (n : Nat) (c : FlmCmd) : Option (Nat × Nat) :=
  let named := c.inputs.map (fun e => e.1) ++ c.outputs
  if c.op = 0 || 5 < c.op || (c.op = 2 && s.flmParamBad n c) then some (11, 255)
  else match (s.flmExtents n c).find? fun e => e.1 != 255 && decide ((s.buf n e.1).len < e.2) with
    | some e => some (3, e.1)
    | none => match c.outputs.find? fun b => decide (1 < (named.filter (· == b)).length) with
      | some b => some (4, b)
      | none =>
        if c.required.contains 255 then some (4, 255)
        else match named.find? fun b => !(s.buf n b).defined with
          | some b => some (7, b)
          | none => if s.flmParamBad n c then some (11, 255) else none

-- Predictor audits -------------------------------------------------------------------------------------------------

/-- The predictor mode in force (R287). -/
def State.predMode (s : State) (n : Nat) : Nat :=
  let m := s.fld (Reg.FLM_CTRL n) Fld.FLM_CTRL_PRED_MODE
  if m = 3 then 0 else m

/-- An open audit closes when a MASK or CHECK carries another routing step (R290). -/
def State.closeAudit (s : State) (n step : Nat) : State :=
  match (s.cluster n).audit with
  | none => s
  | some (old, missed, checked) =>
    if old = step then s
    else
      let rate := if checked = 0 then 0 else min 65535 (65536 * missed / checked)
      let s := s.onCluster n fun c => { c with audit := none }
      let s := s.setFld (Reg.FLM_PRED_RATE n) Fld.FLM_PRED_RATE_RATE rate
      let s := s.setFld (Reg.FLM_PRED_RATE n) Fld.FLM_PRED_RATE_AUDIT_STEP old
      s.countSat (Reg.FLM_PRED_RATE n) Fld.FLM_PRED_RATE_AUDITS 1

/-- Add a CHECK to the audit of its routing step (R290). -/
def State.addAudit (s : State) (n step missed checked : Nat) : State :=
  let s := s.closeAudit n step
  let (m, k) := match (s.cluster n).audit with | some (_, m, k) => (m, k) | none => (0, 0)
  s.onCluster n fun c => { c with audit := some (step, m + missed, k + checked) }

-- The operations ---------------------------------------------------------------------------------------------------

/-- An address as a fault record gives it: Reservoir addresses in die view (R283). -/
def State.dieView (s : State) (a : Nat) : Nat :=
  match s.decode a with
  | .rsv d x _ => rsvBase + d * 2 ^ 32 + x
  | _ => a

/-- What a Flume command's work ends in: its cycles, whether it faulted, whether its outputs are undefined, and the state. -/
structure FlmEnd where
  cycles : Nat
  fault  : Bool
  undef  : Bool
  state  : State

/-- Copy bytes into the scratchpad 8 at a time, poisoned where they read bad (R219, R276); `fuel` bounds the pieces. -/
def State.copyWords (s : State) (n : Nat) : Nat → Nat → Nat → Nat → State
  | 0, _, _, _ => s
  | fuel + 1, src, dst, len =>
    if len = 0 then s
    else
      let m := min len 8
      let (st, bs, s) := s.readLocal (.flume n) src m
      let s := (s.writeData (.flume n) dst bs (st != 0)).2
      State.copyWords s n fuel (src + m) (dst + m) (len - m)

/-- A row to gather: the address of its index word, the index and the address of its first byte. -/
structure GatherRow where
  idxAt : Nat
  idx   : Nat
  row   : Nat
  deriving DecidableEq, Repr

/-- A fault of GATHER before any row is copied (R280, R282). -/
structure GatherFault where
  addr  : Nat
  value : Nat
  kind  : Nat
  deriving DecidableEq, Repr

/-- Read a word of `len` bytes, or say that it read bad. -/
def State.readWord (s : State) (n a len : Nat) : Option Nat × State :=
  let (st, bs, s) := s.readLocal (.flume n) a len
  (if st = 0 then some (leNat bs) else none, s)

/-- Walk the indices of one run (R199, R276). -/
def State.walkIndices (s : State) (n : Nat) (idxAt : Nat → Nat) (rowAt : Nat → Nat) (fits : Nat → Bool) (limit : Nat) :
    Nat → Nat → Sum (Option GatherFault) (List GatherRow) × State
  | 0, _ => (.inr [], s)
  | fuel + 1, j =>
    let (w, s) := s.readWord n (idxAt j) 2
    match w with
    | none => (.inl none, s)
    | some i =>
      if limit ≤ i then (.inl (some ⟨idxAt j, i, 0⟩), s)
      else if !fits (rowAt i) then (.inl (some ⟨rowAt i, i, 1⟩), s)
      else
        let (rest, s) := State.walkIndices s n idxAt rowAt fits limit fuel (j + 1)
        match rest with
        | .inl f => (.inl f, s)
        | .inr rs => (.inr (⟨idxAt j, i, rowAt i⟩ :: rs), s)

/-- Walk the runs of a shape record (R199, R276, R280): `left` is how many rows the record still names. -/
def State.walkRuns (s : State) (n : Nat) (r : ShapeRec) (bytes limit : Nat) :
    Nat → Nat → Nat → Sum (Option GatherFault) (List GatherRow) × State
  | 0, k, left => if left = 0 then (.inr [], s) else (.inl (some ⟨r.runs + 8 * (k - 1), k - 1, 2⟩), s)
  | fuel + 1, k, left =>
    let base := regionAddr r.land 0
    let top := base + (if (s.region r.land).type = 0 then 0 else (s.region r.land).size * 4096)
    let at_ := r.runs + 8 * k
    let outside (a len : Nat) : Bool := decide (a < base) || decide (top < a + len)
    if outside at_ 8 then (.inl (some ⟨at_, k, 2⟩), s)
    else
      let (w, s) := s.readWord n at_ 8
      match w with
      | none => (.inl none, s)
      | some run =>
        let count := bitsOf run 0 16
        let idxAt (j : Nat) : Nat := r.index + 2 * (bitsOf run 16 24 + j)
        if left < count || (decide (0 < count) && outside (idxAt 0) (2 * count)) then (.inl (some ⟨at_, k, 2⟩), s)
        else
          let rowAt (i : Nat) : Nat := base + bitsOf run 40 24 * 256 + i * r.lines * 256
          let (rows, s) := s.walkIndices n idxAt rowAt (fun a => !outside a bytes) limit count 0
          match rows with
          | .inl f => (.inl f, s)
          | .inr rs =>
            let (rest, s) := State.walkRuns s n r bytes limit fuel (k + 1) (left - count)
            match rest with
            | .inl f => (.inl f, s)
            | .inr more => (.inr (rs ++ more), s)

/-- The first address beyond the source of an explicit GATHER (R275, R280): the end of its region, or of the defined buffer that holds its
base; where no buffer does, the end of the scratchpad (DESIGN CHOICE, log entry 40). -/
def State.gatherTop (s : State) (n a : Nat) : Nat :=
  if a < rsvRegionBase + 0x40_0000_0000 && decide (rsvRegionBase ≤ a) then
    let g := (a - rsvRegionBase) / 2 ^ 30
    regionAddr g 0 + (if (s.region g).type = 0 then 0 else (s.region g).size * 4096)
  else
    let o := a - scratchAddr n 0
    match (s.bufsOf n).find? fun b => decide ((s.buf n b).base ≤ o) && decide (o < (s.buf n b).base + (s.buf n b).len) with
    | some b => scratchAddr n ((s.buf n b).base + (s.buf n b).len)
    | none => scratchAddr (n + 1) 0

/-- GATHER (R275, R276, R280, R282, R286). -/
def State.flmGather (s : State) (n : Nat) (c : FlmCmd) : FlmEnd :=
  let r := s.shapeRec n c.src
  let m := if c.flag then r.m else c.p0
  let pred := if c.flag && c.dst2 != 255 then 2 * r.predR else 0
  let (walk, s) :=
    if c.flag then
      if m = 0 then (.inr [], s) else s.walkRuns n r (c.p1 + pred) c.p2 r.z 0 m
    else
      let top := s.gatherTop n c.addr
      s.walkIndices n (fun j => s.bufAt n c.src + 2 * j) (fun i => c.addr + i * c.p3) (fun a => decide (a + c.p1 ≤ top)) c.p2 m 0
  match walk with
  | .inl none => ⟨0, true, true, s⟩
  | .inl (some f) => ⟨0, true, true, s.flumeFault n Code.indexRange (s.dieView f.addr) f.value f.kind 0 c.tag⟩
  | .inr rows =>
    let s := rows.zipIdx.foldl (fun s e =>
      let s := s.copyWords n (c.p1 / 8 + 2) e.1.row (s.bufAt n c.dst + e.2 * align64 c.p1) c.p1
      if pred = 0 then s
      else s.copyWords n (pred / 8 + 2) (e.1.row + c.p1) (s.bufAt n c.dst2 + e.2 * align64 pred) pred) s
    let rowBytes := if c.flag then r.lines * 256 else ceilDiv c.p1 256 * 256
    let t := if c.flag && m = 0 then 0 else 48 + ceilDiv m 128 + (if c.flag then r.z else 0) + m * (rowBytes / 256)
    ⟨t, false, false, s⟩

/-- Is an element's encoding non-zero (R277)? -/
def nonZero (fmt v : Nat) : Bool :=
  match fmt with
  | 2 => v != 0
  | 9 => v % 2 ^ 15 != 0
  | 10 => v % 2 ^ 15 != 0
  | _ => v % 2 ^ 7 != 0

/-- The positions a group stores (R277): its non-zero positions, in the fixed form completed by its lowest zero positions; none when
it has more non-zeros than it may. -/
def groupPositions (fmt : Nat) (d : FlmDesc) (vs : List Nat) : Option (List Nat) :=
  let all := List.range vs.length
  let nz := all.filter fun i => nonZero fmt (nthD vs i 0)
  if d.nDecl < nz.length then none
  else if d.var then some nz
  else
    let extra := (all.filter fun i => !nonZero fmt (nthD vs i 0)).take (d.nDecl - nz.length)
    some (all.filter fun i => nz.contains i || extra.contains i)

/-- One row of COMPACT (R263, R264, R277): value and metadata pieces as offset and bytes, or the group that holds too many. -/
def compactRow (d : FlmDesc) (fmt k : Nat) (elem : Nat → Nat) : Sum Nat (List (Nat × List Byte) × List (Nat × List Byte)) :=
  let w := fmtBits fmt
  let mg := 2 ^ d.mLog
  let g := 128 / d.nDecl
  let bg := blockGroups d
  let groups := k / mg
  let pos (i : Nat) : Option (List Nat) := groupPositions fmt d ((List.range mg).map fun j => elem (i * mg + j))
  match (List.range groups).find? fun i => (pos i).isNone with
  | some i => .inl i
  | none =>
    let codes (is : List Nat) : List Nat := (is.map fun i => (pos i).getD []).flatten
    let vals (is : List Nat) : List Nat := (is.map fun i => ((pos i).getD []).map fun j => elem (i * mg + j)).flatten
    let pack (w : Nat) (xs : List Nat) : List Byte := leBytes (rowOf xs.length w) (joinChunks w xs)
    if d.var then
      let passes := ((List.range (ceilDiv groups bg)).map fun b => cutPasses g groups (b * bg) (min bg (groups - b * bg))).flatten
      let parts := passes.zipIdx.map fun e =>
        let is := rangeFrom e.1.1 e.1.2
        let counts := (List.range g).map fun i => if i < e.1.2 then ((pos (e.1.1 + i)).getD []).length else 0
        let cs := codes is
        ((e.2 * vChunk g w d, pack w (vals is)),
         (e.2 * mChunk g d, leBytes (rowOf (4 * g + cs.length * d.mLog) 1) (joinChunks 4 counts + joinChunks d.mLog cs * 2 ^ (4 * g))))
      .inr (parts.map (fun p => p.1), parts.map (fun p => p.2))
    else
      let is := List.range groups
      .inr ([(0, pack w (vals is))], [(0, pack d.mLog (codes is))])

/-- COMPACT (R277, R282). -/
def State.flmCompact (s : State) (n : Nat) (c : FlmCmd) : FlmEnd :=
  let d := c.desc
  let w := fmtBits c.fmt
  let stride := align64 (rowOf c.p1 w)
  let mem := s.mem
  let src := s.bufAt n c.src
  let rows := (List.range c.p0).map fun r => compactRow d c.fmt c.p1 fun i => packedAt mem (src + r * stride) (i * w) w
  let g := 128 / d.nDecl
  let bg := blockGroups d
  let groups := c.p1 / 2 ^ d.mLog
  let kb := sumNats ((List.range (ceilDiv groups bg)).map fun b => ceilDiv (min bg (groups - b * bg)) g)
  let ks := storedK c.p1 d
  let vs := align64 (if d.var then kb * vChunk g w d else rowOf ks w)
  let ms := align64 (if d.var then kb * mChunk g d else rowOf ks d.mLog)
  let t := 20 + ceilDiv (c.p0 * c.p1 * (w / 8)) 256
  match rows.zipIdx.findSome? fun e => match e.1 with | .inl i => some (e.2, i) | .inr _ => none with
  | some (r, i) =>
    ⟨t, true, true, s.flumeFault n Code.metadataFault (src + r * stride + i * 2 ^ d.mLog * w / 8) i 3 0 c.tag⟩
  | none =>
    let s := rows.zipIdx.foldl (fun s e =>
      match e.1 with
      | .inl _ => s
      | .inr (vals, metas) =>
        let s := vals.foldl (fun s p => s.writeStore (s.bufAt n c.dst + e.2 * vs + p.1) p.2 false) s
        metas.foldl (fun s p => s.writeStore (s.bufAt n c.dst2 + e.2 * ms + p.1) p.2 false) s) s
    ⟨t, false, false, s⟩

/-- A score or shadow value of a token row, widened to FP32. -/
def State.flmScore (s : State) (n : Nat) (c : FlmCmd) (cols t i : Nat) : Nat :=
  let a := s.bufAt n c.src + t * align64 (cols * c.elem) + i * c.elem
  if c.flag then ofBf16 (memNat s.mem a 2) else memNat s.mem a 4

/-- MASK (R278, R287, R289). -/
def State.flmMask (s : State) (n : Nat) (c : FlmCmd) : FlmEnd :=
  let f := c.p1
  let rows := (List.range f).filter fun i => (List.range c.p0).any fun t => gt32 (s.flmScore n c f t i) c.p2
  let mode := s.predMode n
  let auditN := s.fld (Reg.FLM_CTRL n) Fld.FLM_CTRL_AUDIT_N
  let shadow := mode == 1 || (mode == 2 && c.addr % auditN == 0)
  let s := s.closeAudit n c.addr
  let s := s.writeStore (s.bufAt n c.dst) (maskBytes f (b2n shadow + 2 * b2n (mode == 1)) c.p0 c.addr rows) false
  let s := s.countWrap (Reg.FLM_PRED_MASK n) Fld.FLM_PRED_MASK_ROWS_ON rows.length
  let s := s.countWrap (Reg.FLM_PRED_MASK n) Fld.FLM_PRED_MASK_ROWS_OFF (f - rows.length)
  ⟨20 + ceilDiv (c.p0 * f * c.elem) 256 + ceilDiv f 2048, false, false, s⟩

/-- CHECK (R278, R287, R289, R290). -/
def State.flmCheck (s : State) (n : Nat) (c : FlmCmd) : FlmEnd :=
  let f := s.maskF n c.aux
  let clear := s.maskRows n c.aux f false
  let cols := clear.length
  let above (t j : Nat) : Bool := gt32 (s.flmScore n c cols t j) 0
  let missed := (List.range cols).filter fun j => (List.range c.p0).any fun t => above t j
  let pairs := sumNats ((List.range cols).map fun j => ((List.range c.p0).filter fun t => above t j).length)
  let verified := bitAt (s.maskFlags n c.aux) 1
  let step := s.maskStep n c.aux
  let repair := if verified then missed.map fun j => nthD clear j 0 else []
  let s := s.writeStore (s.bufAt n c.dst) (maskBytes f 0 c.p0 step repair) false
  let s := s.countWrap (Reg.FLM_PRED_CHECK n) Fld.FLM_PRED_CHECK_CHECKED_ROWS cols
  let s := s.countWrap (Reg.FLM_PRED_CHECK n) Fld.FLM_PRED_CHECK_MISSED_ROWS missed.length
  let s := s.countWrap (Reg.FLM_PRED_PAIRS n) Fld.FLM_PRED_PAIRS_MISSED_PAIRS pairs
  ⟨20 + ceilDiv (c.p0 * cols * c.elem) 256 + ceilDiv f 2048, false, false, s.addAudit n step missed.length cols⟩

/-- MERGE (R278, R282, R289). -/
def State.flmMerge (s : State) (n : Nat) (c : FlmCmd) : FlmEnd :=
  let f := s.maskF n c.aux
  let ps := s.maskRows n c.aux f true
  let rs := s.maskRows n c.maskR f true
  match ps.find? fun i => rs.contains i with
  | some i =>
    ⟨0, true, true, s.flumeFault n Code.metadataFault (s.bufAt n c.aux + 64 + i / 8) i 4 0 c.tag⟩
  | none =>
    let both := (List.range f).filter fun i => ps.contains i || rs.contains i
    let cell (mem : Memory) (t i : Nat) : List Byte :=
      if ps.contains i then memBytes mem (s.bufAt n c.src + t * align64 (ps.length * c.p2) + ps.idxOf i * c.p2) c.p2
      else memBytes mem (s.bufAt n c.tileR + t * align64 (rs.length * c.p2) + rs.idxOf i * c.p2) c.p2
    let mem := s.mem
    let hdr := maskBytes f (s.maskFlags n c.aux) (s.maskTokens n c.aux) (s.maskStep n c.aux) both
    let s := (List.range c.p0).foldl (fun s t =>
      s.writeStore (s.bufAt n c.dst + t * align64 (both.length * c.p2)) ((both.map fun i => cell mem t i).flatten) false) s
    let s := s.writeStore (s.bufAt n c.dst2) hdr false
    let s := s.countWrap (Reg.FLM_PRED_PAIRS n) Fld.FLM_PRED_PAIRS_REPAIRED_ROWS rs.length
    ⟨20 + ceilDiv (c.p0 * both.length * c.p2) 256, false, false, s⟩

/-- The scratchpad ranges a Flume command reads before it works. -/
def State.flmReads (s : State) (n : Nat) (c : FlmCmd) : List (Nat × Nat) :=
  let off (b : Nat) : Nat := (s.buf n b).base
  let rows (b count bytes : Nat) : List (Nat × Nat) := (List.range count).map fun r => (off b + r * align64 bytes, bytes)
  let mask (b : Nat) : List (Nat × Nat) := [(off b, 64 + ceilDiv (s.maskF n b) 8)]
  (match c.op with
  | 1 => if c.flag then [(off c.src, 64)] else []
  | 2 => rows c.src c.p0 (rowOf c.p1 (fmtBits c.fmt))
  | 3 => rows c.src c.p0 (c.p1 * c.elem)
  | 4 => mask c.aux ++ rows c.src c.p0 (c.p1 * c.elem)
  | 5 =>
    let np := (s.maskRows n c.aux (s.maskF n c.aux) true).length
    let nr := (s.maskRows n c.maskR (s.maskF n c.maskR) true).length
    mask c.aux ++ mask c.maskR ++ rows c.src c.p0 (np * c.p2) ++ rows c.tileR c.p0 (nr * c.p2)
  | _ => []).filter fun r => r.2 != 0

/-- The ranges that the issue checks of a Flume command read: mask headers and a shape record (R268, R276, R284). -/
def State.flmIssueReads (s : State) (n : Nat) (c : FlmCmd) : List (Nat × Nat) :=
  let first (b len : Nat) : List (Nat × Nat) := if b != 255 && (s.buf n b).defined then [((s.buf n b).base, len)] else []
  match c.op with
  | 1 => if c.flag then first c.src 64 else []
  | 4 => first c.aux 16
  | 5 => first c.aux 16 ++ first c.maskR 16
  | _ => []

/-- What a Flume command comes to once it starts. -/
def State.flmWork (s : State) (n : Nat) (c : FlmCmd) : FlmEnd :=
  let stop (st a : Nat) (s : State) : FlmEnd := ⟨0, true, true, if st = Code.poisoned then s.poisonedRecord n 2 (some a) else s⟩
  match s.checkRanges n (s.flmIssueReads n c) with
  | (some (st, a), s) => stop st a s
  | (none, s) =>
  match s.flmInvalid n c with
  | some (kind, b) => ⟨0, true, false, s.tileInvalid n 2 0 c.tag kind b⟩
  | none =>
    if c.inputs.any fun e => (s.buf n e.1).poison then ⟨0, true, false, s.poisonedRecord n 2 none⟩
    else
      match s.checkRanges n (s.flmReads n c) with
      | (some (st, a), s) => stop st a s
      | (none, s) => match c.op with
        | 1 => s.flmGather n c
        | 2 => s.flmCompact n c
        | 3 => s.flmMask n c
        | 4 => s.flmCheck n c
        | _ => s.flmMerge n c

/-- The contents of a faulted command's output are undefined (R282): a free value over the whole buffer. -/
def State.undefBuf (s : State) (n b : Nat) : State :=
  let (v, s) := s.takeFree .faultedOutput
  s.writeStore (s.bufAt n b) (leBytes (s.buf n b).len v) false

/-- FLUME_COMPLETE: the running Flume command completes once its time has come (R273). -/
def State.flmComplete (s : State) (n : Nat) : State :=
  match (s.cluster n).flmRun with
  | none => s
  | some r =>
    if s.clock.cycles < r.stop || !s.clusterPresent n then s
    else
      let s := s.onCluster n fun c => { c with flmRun := none }
      let s := s.retireBufs n bufFilling r
      let s := if r.fault then r.outs.foldl (fun s b => s.setBufPoison n b true) s else s
      let s := s.countWrap (Reg.FLM_STATUS n) Fld.FLM_STATUS_DONE 1
      let s := s.setFld (Reg.FLM_STATUS n) Fld.FLM_STATUS_LAST_TAG r.tag
      let s := s.countWrap (Reg.FLM_CNT_BUSY n) Fld.FLM_CNT_BUSY_BUSY (r.stop - (s.cluster n).flmFrom)
      (s.queueCounts n).retireIrq n

/-- The Flume command at the head of a cluster's queue starts when it carries the operation `op`, or a reserved one (R273). -/
def State.flmIssue (s : State) (n op : Nat) : State :=
  let cl := s.cluster n
  match cl.flmQ with
  | [] => s
  | ws :: rest =>
    let c := FlmCmd.ofWords ws
    let mine := c.op == op || c.op == 0 || decide (5 < c.op)
    if cl.stop || s.colBusy || !s.clusterPresent n || !mine || cl.flmRun.isSome ||
        !(c.inputs.all (fun e => s.inReady n e.1) && c.outputs.all (fun b => s.outReady n b)) then s
    else
      let s := s.onCluster n fun x => { x with flmQ := rest }
      let s := c.outputs.foldl (fun s b => s.setBufState n b bufFilling) s
      let e := s.flmWork n c
      let s := c.inputs.foldl (fun s b => s.addReader n b.1) e.state
      let s := if e.undef then c.outputs.foldl (fun s b => s.undefBuf n b) s else s
      let r : RunCmd := { ins := c.inputs, outs := c.outputs, tag := c.tag, stop := s.clock.cycles + e.cycles, fault := e.fault,
                          form := 0, sub := 0 }
      let s := s.onCluster n fun x => { x with flmRun := some r, flmFrom := s.clock.cycles }
      let s := (s.admitHeld n).queueCounts n
      if e.cycles = 0 then s.flmComplete n else s

end Sys2Proof.Machine
end

