-- ==== Sys2Proof/Machine/Collective.lean ====
section
/-! DEFINITION. Collectives as the device runs them: launch and its checks, the collective interrupt, completion and the deadline (R373
to R402). The collective program itself is in ColProgram.lean. -/

namespace Sys2Proof.Machine

/-- A collective descriptor (R377). -/
structure ColDesc where
  op     : Nat
  dtype  : Nat
  root   : Nat
  slots  : Nat
  region : Nat
  chunk  : Nat
  tag    : Nat
  epoch  : Nat
  src    : Nat
  dst    : Nat
  count  : Nat
  limit  : Nat
  deriving DecidableEq, Repr

def ColDesc.ofWords (ws : List Nat) : ColDesc :=
  let w (i : Nat) : Nat := nthD ws i 0
  { op := bitsOf (w 0) 0 8, dtype := bitsOf (w 0) 8 2, root := bitsOf (w 0) 16 8, slots := bitsOf (w 0) 24 8,
    region := bitsOf (w 0) 32 8, chunk := bitsOf (w 0) 40 8, tag := bitsOf (w 0) 48 16, epoch := w 1, src := w 2, dst := w 3,
    count := bitsOf (w 4) 0 32, limit := w 5 }

/-- Shard bytes b (R377). -/
def ColDesc.shard (d : ColDesc) : Nat := d.count * (match d.dtype with | 0 => 4 | 1 => 2 | _ => 1)

/-- Bytes of SRC and of DST for `n` members at slot `own` (R374); a BROADCAST's SRC is ignored away from the root. -/
def ColDesc.srcBytes (d : ColDesc) (n own : Nat) : Nat :=
  match d.op with
  | 1 => n * d.shard
  | 2 => n * d.shard
  | 3 => d.shard
  | 4 => if own = d.root then n * d.shard else 0
  | _ => 0
def ColDesc.dstBytes (d : ColDesc) (n : Nat) : Nat :=
  match d.op with
  | 1 => n * d.shard
  | 2 => d.shard
  | 3 => n * d.shard
  | 4 => n * d.shard
  | _ => 0

/-- The group's entries that are VALID, in slot order: slot and node (R376). -/
def State.groupEntries (s : State) : List (Nat × Nat) :=
  ((s.regRange (Reg.COL_GROUP 0) 2048).filter fun e => bitAt e.2 16).map fun e => (e.1 / 8, e.2 % 2 ^ 16)

/-- The slots whose node is this device. -/
def State.ownSlots (s : State) : List Nat := (s.groupEntries.filter fun e => e.2 == s.node).map fun e => e.1

/-- Does the group fill slots 0 to n − 1 with the own slot exactly once (R376)? -/
def State.groupOk (s : State) : Bool :=
  (s.groupEntries.map fun e => e.1) == List.range s.groupEntries.length && s.ownSlots.length == 1

/-- The launch list (R383): enabled clusters that are not retired, ascending. -/
def State.launchList (s : State) : List Nat := (List.range 32).filter s.clusterPresent

/-- The lead cluster (R379). -/
def State.leadCluster (s : State) : Nat := s.launchList.headD 0

/-- Is a whole range of the local map mapped to memory (R44, R378 kind 5)? -/
def State.rangeMapped (s : State) (a n : Nat) : Bool :=
  if n = 0 then true
  else match s.decode a with
    | .hbm _ => decide (a + n ≤ hbmSize)
    | .rsv _ _ _ =>
      if a < rsvRegionBase then decide (a % 2 ^ 32 + n ≤ 2 ^ 28)
      else decide (a % 2 ^ 30 + n ≤ (s.region ((a - rsvRegionBase) / 2 ^ 30)).size * 4096)
    | .scratch k o => (List.range ((o + n + 2 ^ 24 - 1) / 2 ^ 24)).all fun i => s.clusterPresent (k + i)
    | .companion _ => s.companionMapped a n
    | .rack o =>
      let w := 2 ^ s.fld Reg.JT_RACKWIN Fld.JT_RACKWIN_G
      (List.range ((o % w + n + w - 1) / w)).all fun i =>
        let lo := max a (a - o % w + i * w)
        (s.target lo (min (a + n) (a - o % w + (i + 1) * w) - lo)).isSome
    | _ => false

/-- Do the ranges of a descriptor overlap in a way R374 forbids? -/
def ColDesc.overlaps (d : ColDesc) (n own : Nat) : Bool :=
  let x := d.srcBytes n own
  let y := d.dstBytes n
  let same := d.src == d.dst && (d.op == 1 || d.op == 4)
  x != 0 && y != 0 && !same && decide (d.src < d.dst + y) && decide (d.dst < d.src + x)

/-- The size the stage region needs (R385). -/
def ColDesc.stageBytes (d : ColDesc) (n : Nat) (canon : Bool) : Nat :=
  0x4_0000 + (if canon && (d.op == 1 || d.op == 2) then n else 1) * d.slots * 2 ^ d.chunk

/-- The lowest kind under which a launch is refused (R378). -/
def State.launchRefusal (s : State) (who : Requester) (d : ColDesc) : Option Nat :=
  let n := s.groupEntries.length
  let own := s.ownSlots.headD 0
  let canon := s.flag (Reg.CL_CTRL s.leadCluster) Fld.CL_CTRL_CANON
  let r := s.region d.region
  let reducing := d.op == 1 || d.op == 2
  let lead := match who with | .core k _ => k == s.leadCluster | _ => true
  if d.op = 0 || 5 < d.op || d.dtype = 3 || (d.dtype = 2 && reducing) then some 0
  else if !s.groupOk then some 1
  else if d.op = 4 && n ≤ d.root then some 2
  else if r.type != 6 || r.size * 4096 < d.stageBytes n canon then some 3
  else if (d.slots = 0 && (reducing || ((d.op = 3 || d.op = 4) && hbmSize < d.dst + d.dstBytes n))) || d.slots = 1 || 8 < d.slots
  then some 4
  else if !s.rangeMapped d.src (d.srcBytes n own) || !s.rangeMapped d.dst (d.dstBytes n) || d.overlaps n own then some 5
  else if s.colBusy then some 6
  else if d.chunk < 12 || 20 < d.chunk then some 7
  else if !lead then some 8
  else none

/-- The key of a launcher's latch (R230, R379): a core; none for any other requester. -/
def State.launchKey (s : State) (who : Requester) : Option Nat :=
  match who with
  | .core n _ => if s.clusterPresent n then coreKey who else none
  | .wm _ => coreKey who
  | _ => none

/-- DESC_HASH (R377). -/
def ColDesc.hash (ws : List Nat) (d : ColDesc) (n : Nat) : Nat :=
  th64 (putBits (nthD ws 0 0) 40 8 d.chunk % 2 ^ 48) (th64 (d.count ||| n * 2 ^ 32) d.epoch)

/-- A descriptor takes effect (R378, R379): the mode is that of the lead cluster now (R380). -/
def State.colLaunch (s : State) (who : Requester) (ws : List Nat) : State :=
  let d0 := ColDesc.ofWords ws
  let d : ColDesc := { d0 with chunk := if d0.chunk = 0 then s.fld Reg.COL_CTRL Fld.COL_CTRL_CHUNK_LOG2 else d0.chunk }
  match s.launchRefusal who d with
  | some kind =>
    (s.fault (s.unitOf who) Code.collectiveInvalid none (d.tag + kind * 2 ^ 16)).setFld Reg.COL_STATUS Fld.COL_STATUS_STATUS
      Code.collectiveInvalid
  | none =>
    let s := s.setFlag Reg.COL_STATUS Fld.COL_STATUS_BUSY true
    let s := s.countWrap Reg.COL_CNT Fld.COL_CNT_LAUNCHED 1
    { s with col := { s.col with
        desc := setNth ws 0 (putBits (nthD ws 0 0) 40 8 d.chunk), members := s.groupEntries.length, own := s.ownSlots.headD 0,
        list := s.launchList, finished := [], res := [], lead := 0, raised := none,
        run := { ColRun.reset with canon := s.flag (Reg.CL_CTRL s.leadCluster) Fld.CL_CTRL_CANON,
                                   hash := d.hash ws s.groupEntries.length },
        deadline := if d.limit = 0 then s.now + s.fld Reg.COL_CTRL Fld.COL_CTRL_T_COL * 1000 else d.limit } }

/-- Words of a collective descriptor stored to COL_LAUNCH at a byte offset (R379): latched for the core, and the launch takes effect
when the word at +0x38 arrives. `op` is the kind of collective of the command; a reserved OP is refused under any of them. -/
def State.colWrite (s : State) (op : Nat) (who : Requester) (off : Nat) (ws : List Nat) : State :=
  match s.launchKey who with
  | none => s
  | some key =>
    if off % 8 != 0 || ws.isEmpty then s
    else
      let latch := latchWords (tblGetD key (List.replicate 8 0) s.col.latches) (off / 8) ws
      let s : State := { s with col := { s.col with latches := tblSet key latch s.col.latches } }
      let given := bitsOf (nthD latch 0 0) 0 8
      if off / 8 + ws.length < 8 || 8 ≤ off / 8 || !(given == op || given == 0 || 5 < given) then s else s.colLaunch who latch

def State.allReduce (s : State) (who : Requester) (off : Nat) (ws : List Nat) : State := s.colWrite 1 who off ws
def State.reduceScatter (s : State) (who : Requester) (off : Nat) (ws : List Nat) : State := s.colWrite 2 who off ws
def State.allGather (s : State) (who : Requester) (off : Nat) (ws : List Nat) : State := s.colWrite 3 who off ws
def State.broadcast (s : State) (who : Requester) (off : Nat) (ws : List Nat) : State := s.colWrite 4 who off ws
def State.barrier (s : State) (who : Requester) (off : Nat) (ws : List Nat) : State := s.colWrite 5 who off ws

/-- Have the running commands of a cluster retired and its DMA and vector queues emptied (R379)? -/
def Cluster.quiet (c : Cluster) : Bool :=
  c.running.isEmpty && c.flmRun.isNone && c.vecs.isEmpty && c.vecRun.isNone && (c.dmaQ.all fun e => e.2.isEmpty) && c.dmaRun.isEmpty

/-- Take a machine-level interrupt (RISC-V, log entry 5): direct or vectored as mtvec says. -/
def State.interruptCore (s : State) (i cause : Nat) : State :=
  let v := (s.core i).mtvec
  let t := s.onCore i fun c => c.trap (2 ^ 63 + cause) 0
  (if v % 4 = 1 then t.onCore i fun c => { c with pc := (v / 4 * 4 + 4 * cause) % 2 ^ 64 } else t).fetchAt i

/-- Does a core stand ready to take the collective interrupt: raised, not masked, and no load or store of it waiting (R379)? -/
def State.takesCol (s : State) (i : Nat) : Bool :=
  let c := s.core i
  s.coreRuns i && bitAt c.mip 24 && bitAt c.mie 24 && c.loads.isEmpty && !s.storeHeld i && !s.col.run.cores.contains i

/-- The cores of the launch list. -/
def State.colCores (s : State) : List Nat := (s.col.list.map fun n => (List.range 4).map fun k => 4 * n + k).flatten

/-- The cores that stand ready enter the collective program (R379). -/
def State.colEnter (s : State) : State :=
  (s.colCores.filter s.takesCol).foldl (fun s i =>
    let t := s.interruptCore i 24
    { t with col := { t.col with run := { t.col.run with cores := t.col.run.cores ++ [i] } } }) s

/-- Return from an interrupt with mret (RISC-V, R379). -/
def CoreState.mret (c : CoreState) : CoreState :=
  let m := putBits c.mstatus 3 1 (bitsOf c.mstatus 7 1)
  let m := putBits m 7 1 1
  { c with pc := c.mepc, machine := bitsOf c.mstatus 11 2 == 3, mstatus := putBits m 11 2 0 }

/-- COLLECTIVE_INTERRUPT: once every cluster is quiet, and T_DEAD after a collective that failed (R390), the collective interrupt is
raised on every control core of every enabled cluster, and those that do not mask it take it (R379). -/
def State.colInterrupt (s : State) : State :=
  let waits := match s.sw.colFail with
    | some t => decide (s.clock.elapsedNs < t + s.fld Reg.JT_CTRL Fld.JT_CTRL_T_DEAD * 1000)
    | none => false
  if !s.colBusy || s.col.raised.isSome || waits || !(s.launchList.all fun n => (s.cluster n).quiet) then s
  else
    let t : State := { s with col := { s.col with raised := some s.clock.elapsedNs } }
    (t.launchList.foldl (fun s n => s.raiseIrq n 24) t).colEnter

-- Completion -------------------------------------------------------------------------------------------------------

/-- The closing record of a slot in this device's closing table (R385, R392). -/
def State.closing (s : State) (i : Nat) : List Byte :=
  s.peekLocal 2 (regionAddr (ColDesc.ofWords s.col.desc).region (64 * i)) 64

def State.colSeq (s : State) : Nat := (s.fld Reg.COL_STATUS Fld.COL_STATUS_SEQ + 1) % 2 ^ 32

/-- Is a slot's closing record of the running collective held (R393)? -/
def State.closingHeld (s : State) (i : Nat) : Bool :=
  let r := s.closing i
  leNat (sliceOf r 0 8) == (ColDesc.ofWords s.col.desc).epoch && leNat (sliceOf r 8 4) == s.colSeq

def State.slotNode (s : State) (i : Nat) : Nat := s.fld (Reg.COL_GROUP i) Fld.COL_GROUP_NODE

/-- DETAIL of the record of an outcome other than OK (R393, R396). -/
def State.colDetail (s : State) (status : Nat) : Nat :=
  let d := ColDesc.ofWords s.col.desc
  let slots := List.range s.col.members
  if status = Code.deadlineMissed then
    let missing := slots.filter fun i => !s.closingHeld i
    let low := missing.headD 0
    low + s.slotNode low * 2 ^ 8 + missing.length % 256 * 2 ^ 24 + d.epoch % 2 ^ 28 * 2 ^ 32 + 2 ^ 60
  else
    let held := slots.filter s.closingHeld
    let poisoned := held.filter fun i => leNat (sliceOf (s.closing i) 12 1) == Code.collectivePoisoned
    let hash (i : Nat) : Nat := leNat (sliceOf (s.closing i) 32 8)
    let (slot, cause) : Nat × Nat :=
      match poisoned with
      | i :: _ => (i, leNat (sliceOf (s.closing i) 13 1) % 16)
      | [] => (s.col.own, if status = Code.collectivePoisoned && held.any (fun i => hash i != hash s.col.own) then 4 else 3)
    slot + s.slotNode slot * 2 ^ 8 + cause * 2 ^ 24 + d.epoch % 2 ^ 32 * 2 ^ 32

/-- The 64 bytes of a completion item (R397). -/
def State.colItem (s : State) (status laggard skew resends : Nat) : List Byte :=
  let d := ColDesc.ofWords s.col.desc
  leBytes 8 d.epoch ++ leBytes 4 s.colSeq ++ leBytes 1 status ++ leBytes 1 laggard ++ leBytes 2 d.tag ++ leBytes 4 skew ++
  leBytes 4 resends ++ leBytes 8 s.ftNow ++ leBytes 32 0

/-- The collective completes (R393, R396, R397): record, registers, completion item, and the cores and queues are released. -/
def State.colComplete (s : State) (given laggard skew resends : Nat) : State :=
  let d := ColDesc.ofWords s.col.desc
  let known := given == Code.ok || given == Code.deadlineMissed || given == Code.collectivePoisoned
  let status := if known then given else Code.collectivePoisoned
  let lead := s.col.list.headD 0
  let seq := s.colSeq
  let item := s.colItem status laggard skew resends
  let s := if status = Code.ok then s
    else (s.fault (s.clusterUnit lead 4) status none (s.colDetail given)).countWrap Reg.COL_CNT Fld.COL_CNT_FAILED 1
  let s := if s.flag Reg.COL_CTRL Fld.COL_CTRL_DONE_EN then
      let (ok, s) := s.pushNow (.core lead 0) (s.fld Reg.COL_CTRL Fld.COL_CTRL_DONE_CHANNEL) true item
      if ok then s else s.countSat Reg.COL_CNT Fld.COL_CNT_DONE_LOST 1
    else s
  let s := s.setFld Reg.COL_STATUS Fld.COL_STATUS_STATUS status
  let s := s.setFld Reg.COL_STATUS Fld.COL_STATUS_LAGGARD laggard
  let s := s.setFld Reg.COL_STATUS Fld.COL_STATUS_SEQ seq
  let s := s.setFlag Reg.COL_STATUS Fld.COL_STATUS_BUSY false
  let s := s.setFld Reg.COL_SKEW Fld.COL_SKEW_MAX_SKEW skew
  let s := s.setFld Reg.COL_SKEW Fld.COL_SKEW_RESENDS resends
  let s := s.setReg Reg.COL_EPOCH d.epoch
  let spent := match s.col.raised with | some t => (s.clock.elapsedNs - t) / 1000 | none => 0
  let s := s.col.list.foldl (fun s n => s.countWrap (Reg.COL_CL_STAT n) Fld.COL_CL_STAT_HANDLER_US spent) s
  let s := s.col.list.foldl (fun s n => (List.range 4).foldl (fun s k =>
    s.onCore (4 * n + k) fun c => { c with mip := c.mip &&& (2 ^ 64 - 1 - 2 ^ 24) }) s) s
  let s := s.col.run.cores.foldl (fun s i => s.onCore i CoreState.mret) s
  let t : State := { s with col := { s.col with raised := none, finished := [], run := ColRun.reset }
                            sw := { s.sw with colFail := if status = Code.ok then none else some s.clock.elapsedNs } }
  t.startHeld

/-- Once every cluster of the launch list has written COL_FINISH the collective completes with the lead's fields (R396). -/
def State.colCheck (s : State) : State :=
  if s.colBusy && s.col.list.all fun n => s.col.finished.contains n then
    let v := s.col.lead
    s.colComplete (bitsOf v 0 8) (bitsOf v 8 8) (bitsOf v 16 32) (tblGetD (s.col.list.headD 0) 0 s.col.res % 2 ^ 32)
  else s

/-- COL_FINISH: a cluster's program reports the end of its part (R396). -/
def State.colFinish (s : State) (n v : Nat) : State :=
  if !s.colBusy || !s.clusterPresent n || s.col.finished.contains n || !s.col.list.contains n then s
  else
    let t : State := { s with col := { s.col with
      finished := s.col.finished ++ [n], lead := if n = s.col.list.headD 0 then v else s.col.lead } }
    t.colCheck

/-- COL_FINISH_RES (R396, R401). -/
def State.colFinishRes (s : State) (n v : Nat) : State :=
  { s with col := { s.col with res := tblSet n v s.col.res } }

/-- COLLECTIVE_DEADLINE: the deadline passes before every closing record is held (R393, R94). -/
def State.colDeadline (s : State) : State :=
  if !s.colBusy || !s.timeValid || s.now < s.col.deadline || (List.range s.col.members).all s.closingHeld then s
  else s.colComplete Code.deadlineMissed 0 0 0

/-- A retired cluster leaves the launch list: the others take its chunks (R383), and those it had sent without an acknowledgement are sent
again (R399). -/
def State.colRetire (s : State) (n : Nat) : State :=
  if !s.col.list.contains n then s
  else
    let r := s.col.run
    let mine (x : ColSend) : Bool := x.stage != .queued && nthD s.col.list (x.k % s.col.list.length) 0 == n
    let t : State := { s with col := { s.col with
      list := s.col.list.filter (· != n)
      run := { r with cores := r.cores.filter fun i => i / 4 != n
                      sends := r.sends.map fun x => if mine x then { x with moved := true } else x } } }
    t.colCheck

/-- Is the program still sending a chunk of a ring step it has begun (R398)? -/
def State.colSending (s : State) : Bool :=
  let mine (o : OpenOp) : Bool := match o.sink with
    | .colChunk _ _ => true
    | _ => false
  s.colBusy && !s.ecc.kill &&
    (s.col.run.sends.any (fun x => x.stage == .storing) || s.fab.opens.any (fun e => mine e.2) || s.fab.waiting.any fun w => mine w.op)

end Sys2Proof.Machine
end

