-- ==== Sys2Proof/Machine/Rings.lean ====
section
/-! DEFINITION. Rings and doorbells: ring descriptors, doorbell writes, the polling window and the event ring (R409 to R415, R422). -/

namespace Sys2Proof.Machine

/-- A RING_INVALID record (R413). -/
def State.ringInvalid (s : State) (r kind v : Nat) : State :=
  s.fault 0x5001 Code.ringInvalid none (r + kind * 2 ^ 14 + v % 2 ^ 32 * 2 ^ 18)

/-- TL_RING_WRITE: a write to word 0, 1 or 2 of a ring descriptor (R410). -/
def State.ringWrite (s : State) (r word v : Nat) : State :=
  if 16384 ≤ r || 3 ≤ word then s
  else
    let a := Reg.TL_RING0 r + 8 * word
    let old := s.reg a
    if s.ringOn r && !(word == 0 && v &&& 0x03FF_FFFF_01FF_01FF == old - 1) then s.ringInvalid r 0 v
    else
      let starts := !s.ringOn r && word == 0 && v % 2 == 1
      let s := s.writePlain a v
      if starts then s.setRing r ⟨0, 0, 0, []⟩ else s

/-- Word 3 of a ring descriptor, and DB_STATE (R410, R412). -/
def State.ringState (s : State) (r : Nat) : Nat := (s.ring r).head + (s.ring r).tail * 2 ^ 32

/-- DB_TAIL: a submission ring's new TAIL (R412, R413). -/
def State.dbTail (s : State) (r v : Nat) : State :=
  if 16384 ≤ r then s
  else
    let x := s.ring r
    let t := v % 2 ^ 32
    if !s.ringOn r then s.ringInvalid r 3 t
    else if s.ringKind r != 1 then s.ringInvalid r 2 t
    else if 2 ^ 31 ≤ (t + 2 ^ 32 - x.tail) % 2 ^ 32 || 2 ^ s.ringSizeLog r < (t + 2 ^ 32 - x.head) % 2 ^ 32 then s.ringInvalid r 1 t
    else s.setRing r { x with tail := t }

/-- DB_HEAD: entries below the host's new HEAD are free (R412, R413). -/
def State.dbHead (s : State) (r v : Nat) : State :=
  if 16384 ≤ r then s
  else
    let x := s.ring r
    let h := v % 2 ^ 32
    let k := s.ringKind r
    if !s.ringOn r then s.ringInvalid r 3 h
    else if k < 2 || 5 < k then s.ringInvalid r 2 h
    else if (x.tail + 2 ^ 32 - x.head) % 2 ^ 32 < (h + 2 ^ 32 - x.head) % 2 ^ 32 then s.ringInvalid r 1 h
    else s.setRing r { x with head := h }

/-- What a read of the polling window returns, and the counters (R422). A page of another kind reads as empty. -/
def State.pollRead (s : State) (r : Nat) : List Byte × State :=
  let x := s.ring r
  let flag (e : List Byte) (bit : Nat) : List Byte :=
    e.take 4 ++ leBytes 4 (leNat (sliceOf e 4 4) % 2 ^ 23 + 2 ^ bit) ++ sliceOf e 8 8
  if 16384 ≤ r || !s.ringOn r || s.ringKind r != 3 then (List.replicate 16 0, s)
  else if x.head = x.tail then (List.replicate 16 0, s.countWrap Reg.TL_CNT_POLL Fld.TL_CNT_POLL_POLL_EMPTY 1)
  else match x.recent.find? fun e => e.1 == x.head with
    | some e => (flag e.2 23, s)
    | none => (flag (List.replicate 16 0) 24, s.countWrap Reg.TL_CNT_POLL Fld.TL_CNT_POLL_POLL_BEHIND 1)

/-- Answer an uncached read of the companion (R405). -/
def State.ucAnswer (s : State) (txn status addr : Nat) (poison : Bool) (data : List Byte) : State :=
  s.sendFlit ⟨0x1A, poison, txn % 4096, status, if data.length = 16 then 4 else 3, addr, 0, data⟩

/-- POLL: a 16-byte read of a ring's polling window (R422). -/
def State.poll (s : State) (txn r : Nat) : State :=
  let (bs, s) := s.pollRead r
  s.ucAnswer txn 0 (doorbellBase + r * 4096 + 0x100) false bs

/-- Move buffered fault records into the event ring while it has room; `fuel` bounds them (R415). -/
def State.drainEvents : Nat → State → State
  | 0, s => s
  | fuel + 1, s =>
    match s.flt.buffer with
    | [] => s
    | r :: rest =>
      if s.ringRoom s.eventRing 4 then
        let t : State := { s with flt := { s.flt with buffer := rest } }
        State.drainEvents fuel (t.eventToRing r)
      else s

/-- EVENT_RECORD_WRITE (R415). -/
def State.eventRecordWrite (s : State) : State := State.drainEvents 64 s

end Sys2Proof.Machine
end

