-- ==== Sys2Proof/Machine/Requests.lean ====
section
/-! DEFINITION. Requests: consumption, checks, admission, sessions, aborts, calls and the commit point (R416 to R429, R435 to R438,
R451). -/

namespace Sys2Proof.Machine

/-- The Watermaster core whose accesses the request table's own memory traffic counts as (log entry 22). -/
def tableUser : Requester := .wm 0

-- Runnable jobs ----------------------------------------------------------------------------------------------------

/-- The rings that have been in use, with their state. -/
def State.usedRings (s : State) : List (Nat × RingState) := s.tl.rings

def State.ringJob (s : State) (r : Nat) : Nat := s.fld (Reg.TL_RING0 r) Fld.TL_RING0_JOB

/-- Has an enabled submission ring of a job unconsumed entries? -/
def State.jobHasEntries (s : State) (j : Nat) : Bool :=
  s.usedRings.any fun e => s.ringOn e.1 && s.ringKind e.1 == 1 && s.ringJob e.1 == j && e.2.head != e.2.tail

/-- Is a job runnable (R451)? -/
def State.jobRunnable (s : State) (j : Nat) : Bool :=
  s.flag (Reg.WM_JOB0 j) Fld.WM_JOB0_ALWAYS || s.tl.requests.any (fun q => q.job == j) || s.jobHasEntries j

/-- Note whether a job is runnable; when it becomes blocked, its DEFICIT falls to at most 0 (R451). -/
def State.settleRunnable (s : State) (j : Nat) : State :=
  let was := s.flag (Reg.WM_JOB0 j) Fld.WM_JOB0_RUNNABLE
  let now := s.jobRunnable j
  let s := s.setFlag (Reg.WM_JOB0 j) Fld.WM_JOB0_RUNNABLE now
  if was && !now then
    let d := signedOf 32 (s.fld (Reg.WM_ACCT4 j) Fld.WM_ACCT4_DEFICIT)
    s.setFld (Reg.WM_ACCT4 j) Fld.WM_ACCT4_DEFICIT (unsignedOf 32 (min d 0))
  else s

-- The session table ------------------------------------------------------------------------------------------------

/-- Bytes `i` to `i + n - 1` of a byte string as a number, and the string with them replaced. -/
def bytesAt (bs : List Byte) (i n : Nat) : Nat := leNat (sliceOf bs i n)
def setBytesAt (bs : List Byte) (i n v : Nat) : List Byte := bs.take i ++ leBytes n v ++ bs.drop (i + n)

/-- The address of a session's entry (R428). -/
def State.sessionAddr (s : State) (id : Nat) : Nat := s.fld Reg.TL_SESS Fld.TL_SESS_BASE + 64 * id

def State.readSession (s : State) (id : Nat) : Nat × List Byte × State := s.readLocal tableUser (s.sessionAddr id) 64
def State.writeSession (s : State) (id : Nat) (bs : List Byte) : State := (s.writeLocal tableUser (s.sessionAddr id) bs false).2

def sessValid (e : List Byte) : Bool := bitAt (bytesAt e 0 1) 0
def sessActive (e : List Byte) : Bool := bitAt (bytesAt e 0 1) 1
def sessStream (e : List Byte) : Bool := bitAt (bytesAt e 0 1) 2
def sessJob (e : List Byte) : Nat := bytesAt e 1 1
def sessClass (e : List Byte) : Nat := bytesAt e 2 1 % 16
def sessPosition (e : List Byte) : Nat := bytesAt e 8 8 % 2 ^ 40
def sessRing (e : List Byte) : Nat := bytesAt e 34 2 % 2 ^ 14
def sessPages (e : List Byte) : Nat := bytesAt e 36 4
def sessRoot (e : List Byte) : Nat := bytesAt e 48 8

/-- Set or clear ACTIVE in a session's entry (R428, R429). -/
def State.setActive (s : State) (id : Nat) (b : Bool) : State :=
  let (_, e, s) := s.readSession id
  s.writeSession id (setBytesAt e 0 1 (putBits (bytesAt e 0 1) 1 1 (b2n b)))

-- KV pages ---------------------------------------------------------------------------------------------------------

/-- The pool a page address belongs to (R431): 0 LOCAL, 1 RACK, 2 COMPANION. -/
def poolOf (a : Nat) : Nat := if 2 ^ 63 ≤ a then 1 else if companionBase ≤ a then 2 else 0

/-- Push an address onto a pool's stack; a full stack keeps what it has (R431). -/
def State.poolPush (s : State) (job a : Nat) : State :=
  let q := poolOf a
  let n := s.fld (Reg.TL_KV_POOL1 job q) Fld.TL_KV_POOL1_COUNT
  if n < s.fld (Reg.TL_KV_POOL1 job q) Fld.TL_KV_POOL1_CAPACITY then
    let s := (s.writeLocal tableUser (s.reg (Reg.TL_KV_POOL0 job q) + 8 * n) (leBytes 8 a) false).2
    s.setFld (Reg.TL_KV_POOL1 job q) Fld.TL_KV_POOL1_COUNT (n + 1)
  else s

/-- Pop an address: from LOCAL, then RACK, then COMPANION (R431). -/
def State.poolPop (s : State) (job : Nat) : Option Nat × State :=
  match [0, 1, 2].find? fun q => s.fld (Reg.TL_KV_POOL1 job q) Fld.TL_KV_POOL1_COUNT != 0 with
  | none => (none, s)
  | some q =>
    let n := s.fld (Reg.TL_KV_POOL1 job q) Fld.TL_KV_POOL1_COUNT - 1
    let (_, bs, s) := s.readLocal tableUser (s.reg (Reg.TL_KV_POOL0 job q) + 8 * n) 8
    (some (leNat bs), s.setFld (Reg.TL_KV_POOL1 job q) Fld.TL_KV_POOL1_COUNT n)

/-- A word of a list block as the device can see it: in local memory or companion memory (R430). -/
def State.blockWord (s : State) (a : Nat) : Nat :=
  if companionBase ≤ a && s.companionMapped a 8 then memNat s.tl.cmem (a - companionBase) 8 else leNat (s.peekLocal 2 a 8)

/-- Follow a page list (R430): `n` pages from the block at `root` on; `fuel` bounds the blocks. Pages and blocks. -/
def State.kvWalk (s : State) : Nat → Nat → Nat → List Nat × List Nat
  | 0, _, _ => ([], [])
  | fuel + 1, root, n =>
    if n = 0 then ([], [])
    else
      let here := (List.range (min n 511)).map fun i => s.blockWord (root + 8 * i) / 4096 * 4096
      let (ps, bs) := State.kvWalk s fuel (s.blockWord (root + 8 * 511) / 4096 * 4096) (n - 511)
      (here ++ ps, root :: bs)

/-- Pages and list blocks of a session. -/
def State.kvOf (s : State) (id : Nat) : List Nat × List Nat := tblGetD id ([], []) s.tl.kv
def State.setKv (s : State) (id : Nat) (x : List Nat × List Nat) : State :=
  { s with tl := { s.tl with kv := tblPut id ([], []) x s.tl.kv } }

/-- Return a session's pages and list blocks to their pools and clear VALID (R429, R431). -/
def State.closeSession (s : State) (id job : Nat) : State :=
  let (ps, bs) := s.kvOf id
  let s := (ps ++ bs).foldl (fun s a => s.poolPush job a) s
  let (_, e, s) := (s.setKv id ([], [])).readSession id
  s.writeSession id (setBytesAt (setBytesAt (setBytesAt e 0 1 (bytesAt e 0 1 / 2 * 2)) 36 4 0) 48 8 0)

-- Commit -----------------------------------------------------------------------------------------------------------

/-- The completion ring of a submission ring. -/
def State.cqOf (s : State) (r : Nat) : Nat := s.fld (Reg.TL_RING0 r) Fld.TL_RING0_CQ

/-- The 64 bytes of a result header (R420). -/
def resultHeader (q : Request) (data : List Byte) : List Byte :=
  leBytes 4 q.tag ++ leBytes 4 0 ++ leBytes 8 (2 ^ 63 + q.ring * 2 ^ 32 + q.ptr) ++ leBytes 4 data.length ++
  leBytes 4 (crc32c data) ++ leBytes 40 0

/-- A ring's entry for a completion (R419). -/
def State.completionEntry (s : State) (q : Request) (st detail : Nat) (header : Bool) : List Byte :=
  leBytes 4 q.tag ++ leBytes 1 st ++ leBytes 1 (s.ringPhase (s.cqOf q.ring) + 2 * b2n header) ++ leBytes 2 q.ring ++
  leBytes 4 q.ptr ++ leBytes 4 q.produced ++ leBytes 8 (if s.timeValid then s.now else 0) ++ leBytes 8 detail

/-- Count a completion by its status (R440). -/
def State.countOutcome (s : State) (st : Nat) : State :=
  let s := s.countWrap Reg.TL_CNT_REQ Fld.TL_CNT_REQ_COMMITTED 1
  if st = Code.lateAtAdmission then s.countWrap Reg.TL_CNT_OUT Fld.TL_CNT_OUT_LATE_ADM 1
  else if st = Code.deadlineMissed then s.countWrap Reg.TL_CNT_OUT Fld.TL_CNT_OUT_MISSED 1
  else if st = Code.aborted then s.countWrap Reg.TL_CNT_OUT Fld.TL_CNT_OUT_ABORTED 1
  else if st = Code.kvExhausted then s.countWrap Reg.TL_CNT_OUT Fld.TL_CNT_OUT_KV_EXH 1
  else s

/-- The record of the first missed request deadline of a ring in a counter window (R435). -/
def State.missRecord (s : State) (st ring : Nat) : State :=
  if st = Code.deadlineMissed then
    s.faultOncePerWindow (limitKey Code.deadlineMissed 0x4000 ring) 0x4000 Code.deadlineMissed none (ring + 2 * 2 ^ 60)
  else s

/-- The host writer writes result data, header and completion of a request, in that order, and the request becomes COMMITTED (R420,
R423, R426). A CALL's data stand where the job's program wrote them. -/
def State.commitOne (s : State) (q : Request) (st detail : Nat) : State :=
  let header := q.result != 0
  let s := if !header then s
    else
      let s := if q.op = 6 || q.data.isEmpty then s else s.companionWrite hostWriter (q.result + 128) q.data
      s.companionWrite hostWriter q.result (resultHeader q q.data)
  let cq := s.cqOf q.ring
  let s := s.ringAppend cq (s.completionEntry q st detail header)
  let x := s.ring cq
  let s := s.setRing cq { x with reserved := x.reserved - 1 }
  let holder := s.tl.requests.any fun p => p.ring == q.ring && p.ptr == q.ptr && (p.op == 1 || p.op == 2)
  let s : State := { s with tl := { s.tl with requests := s.tl.requests.filter fun p => !(p.ring == q.ring && p.ptr == q.ptr) } }
  let s := if holder then s.setActive q.session false else s
  ((s.countOutcome st).missRecord st q.ring).settleRunnable q.job

/-- Commit a request, and with it any SESSION_CLOSE that waited for it to leave the session (R429). -/
def State.commit (s : State) (q : Request) (st detail : Nat) : State :=
  let s := s.commitOne q st detail
  if s.tl.requests.any (fun p => (p.op == 1 || p.op == 2) && p.session == q.session) then s
  else
    (s.tl.requests.filter fun p => p.stage == .closing && p.session == q.session).foldl
      (fun s p => (s.closeSession p.session p.job).commitOne p 0 0) s

/-- DETAIL of a completion that misses its deadline, or 0 (R419). -/
def State.pastDeadline (s : State) (q : Request) : Nat := s.now - q.deadline

/-- Has a request's deadline passed (R94, R435)? -/
def State.deadlineOver (s : State) (q : Request) : Bool := s.timeValid && q.deadline != 0 && decide (q.deadline ≤ s.now)

-- Admission --------------------------------------------------------------------------------------------------------

def State.slotsMax (s : State) : Nat := s.fld Reg.TL_ADM Fld.TL_ADM_SLOTS
def State.prefillChunk (s : State) : Nat := s.fld Reg.TL_ADM Fld.TL_ADM_PREFILL_CHUNK
def State.estS (s : State) : Nat := s.fld Reg.TL_ADM_EST Fld.TL_ADM_EST_S

/-- The remaining estimate of a request (R437). -/
def State.rem (s : State) (q : Request) : Nat :=
  if q.op = 2 then q.left * s.estS
  else ceilDiv q.left s.prefillChunk * s.estS + (if bitAt q.flags 1 then s.estS else 0)

def sumOf (xs : List Nat) : Nat := xs.foldl (· + ·) 0

/-- The waiting requests of a job. -/
def State.waitingOf (s : State) (j : Nat) : List Request := s.tl.requests.filter fun q => q.job == j && q.stage == .waiting

/-- Is the admission window full (R438)? -/
def State.windowFull (s : State) (j : Nat) : Bool :=
  decide (2 * (s.turnLen * 1000) ≤ sumOf ((s.waitingOf j).map s.rem) / s.slotsMax)

/-- May an entry be consumed from a ring, the window apart (R438)? -/
def State.consumable (s : State) (j r : Nat) : Bool :=
  let cq := s.cqOf r
  s.ringOn r && s.ringKind r == 1 && s.ringJob r == j && (s.ring r).head != (s.ring r).tail && s.ringOn cq &&
  s.ringKind cq == 2 && decide (s.ringCount cq + (s.ring cq).reserved < 2 ^ s.ringSizeLog cq) &&
  decide (s.tl.requests.length < 65536) && !(s.mg.tear.any fun t => t.job == j)

/-- The ring to consume from, in round-robin order after the last one (R438). -/
def State.nextRing (s : State) (j : Nat) : Option Nat :=
  let rs := (s.usedRings.map fun e => e.1).filter fun r => s.consumable j r
  (rs.filter fun r => decide (s.tl.lastRing < r)).head?.orElse fun _ => rs.head?

/-- Kind under which a descriptor is refused (R418), with its session's entry. -/
def State.requestFault (s : State) (j : Nat) (d e : List Byte) : Option Nat :=
  let op := bytesAt d 0 1
  let sess := bytesAt d 8 4 % 2 ^ 20
  let count := bytesAt d 12 4
  let data := bytesAt d 24 8
  let result := bytesAt d 32 8
  let max := bytesAt d 40 4
  let usesSession := op == 1 || op == 2 || op == 3 || op == 4
  let dataLen := if op = 1 then 4 * count else if op = 3 then 64 else if op = 6 then count else 0
  let align := if op = 1 then 4 else if op = 3 then 64 else 1
  let inside (a n : Nat) : Bool := n == 0 || s.companionMapped a n
  let made := if op = 2 then 4 * count else if op = 1 && bitAt (bytesAt d 1 1) 1 then 4 else 0
  let tr := bytesAt d 48 2 % 2 ^ 14
  if op = 0 || 6 < op || 4 ≤ bytesAt d 1 1 || bytesAt d 2 2 != 0 || 2 ^ 20 ≤ bytesAt d 8 4 || 2 ^ 14 ≤ bytesAt d 48 2 ||
      (d.drop 50).any (fun b => b != 0) then some 0
  else if usesSession && (2 ^ 20 ≤ sess || (op != 3 && !sessValid e)) then some 1
  else if usesSession && sessValid e && sessJob e != j then some 2
  else if data % align != 0 || !inside data dataLen || (result != 0 && (result % 128 != 0 || !inside result (128 + max))) then some 3
  else if ((op = 1 || op = 2) && count = 0) || (op = 6 && 2 ^ 24 < count) || (result != 0 && max < made) then some 4
  else if op = 5 && !(s.ringKind tr == 1 && s.ringJob tr == j) then some 5
  else none

/-- The request a descriptor makes, before its session is known. -/
def requestOf (r ptr j : Nat) (d : List Byte) : Request :=
  { ring := r, ptr := ptr, job := j, op := bytesAt d 0 1, flags := bytesAt d 1 1, tag := bytesAt d 4 4,
    session := bytesAt d 8 4 % 2 ^ 20, count := bytesAt d 12 4, deadline := bytesAt d 16 8, result := bytesAt d 32 8,
    resMax := bytesAt d 40 4, dclass := 0, stage := .waiting, accepted := 0, grant := 0, produced := 0, left := bytesAt d 12 4,
    data := [], inStep := false, ending := none, stopped := false }

/-- Put a request into the request table. -/
def State.enterTable (s : State) (q : Request) : State :=
  let q : Request := { q with accepted := s.tl.accepts }
  { s with tl := { s.tl with requests := s.tl.requests ++ [q], accepts := s.tl.accepts + 1 } }

/-- Change the requests of the table. -/
def State.mapRequests (s : State) (f : Request → Request) : State :=
  { s with tl := { s.tl with requests := s.tl.requests.map f } }

/-- PREFILL and GENERATE: busy, refused at admission, or accepted and waiting (R429, R435, R437). -/
def State.letIn (s : State) (q : Request) (e : List Byte) : State :=
  if sessActive e then s.commit q Code.sessionBusy 0
  else
    let q : Request := { q with dclass := sessClass e }
    let ahead := sumOf (((s.waitingOf q.job).filter fun w => decide (w.dclass ≤ q.dclass)).map s.rem)
    let finish := s.now + ahead / s.slotsMax + s.rem q
    let late := q.deadline != 0 && decide (q.deadline ≤ finish)
    if late && !s.flag (Reg.TL_RING0 q.ring) Fld.TL_RING0_POLICY then s.commit q Code.lateAtAdmission finish
    else
      let s := (s.enterTable q).setActive q.session true
      if s.deadlineOver q && !bitAt q.flags 0 then s.commit q Code.deadlineMissed (s.pastDeadline q) else s

/-- What an ABORT does to a request that ends ABORTED now or after its step, for one that waits or runs (R427). -/
def State.abortRequest (s : State) (q : Request) : State :=
  if q.stage = .running then
    s.mapRequests fun p => if p.ring == q.ring && p.ptr == q.ptr then { p with ending := some Code.aborted } else p
  else s.commit q Code.aborted 0

/-- ABORT: the effect on its target, and the status it commits with (R427). -/
def State.abortTarget (s : State) (tr p : Nat) : Nat × State :=
  let x := s.ring tr
  if (p + 2 ^ 32 - x.tail) % 2 ^ 32 < 2 ^ 31 then (Code.notFound, s)
  else match s.tl.requests.find? fun q => q.ring == tr && q.ptr == p with
    | some q => if q.ending = some Code.aborted then (Code.alreadyDone, s) else (0, s.abortRequest q)
    | none =>
      if (p + 2 ^ 32 - x.head) % 2 ^ 32 < (x.tail + 2 ^ 32 - x.head) % 2 ^ 32 then
        let key := tr * 2 ^ 32 + p
        if (tblFind key s.tl.marked).isSome then (Code.alreadyDone, s)
        else (0, { s with tl := { s.tl with marked := tblSet key 1 s.tl.marked } })
      else (Code.alreadyDone, s)

/-- SESSION_CLOSE: a waiting holder commits ABORTED, a running one ends ABORTED and the close waits for its commit (R429). -/
def State.sessionClose (s : State) (q : Request) : State :=
  let holder (p : Request) : Bool := (p.op == 1 || p.op == 2) && p.session == q.session
  let s := (s.tl.requests.filter holder).foldl State.abortRequest s
  if s.tl.requests.any holder then s.enterTable { q with stage := .closing }
  else (s.closeSession q.session q.job).commit q 0 0

/-- A session entry as the device writes it: VALID and not ACTIVE, of job `job`, with every reserved bit zero (R9, R428). -/
def sessionEntry (job : Nat) (image : List Byte) : List Byte :=
  let f (i n : Nat) : Nat := bytesAt image i n
  leBytes 1 (1 + 4 * (f 0 1 / 4 % 2)) ++ leBytes 1 job ++ leBytes 1 (f 2 1 % 16) ++ leBytes 1 0 ++ leBytes 4 (f 4 4) ++
    leBytes 8 (f 8 8 % 2 ^ 40) ++ leBytes 18 (f 16 18) ++ leBytes 2 (f 34 2 % 2 ^ 14) ++ leBytes 20 (f 36 20) ++ leBytes 8 0

/-- SESSION_SET: the image becomes the session's entry (R429). -/
def State.sessionSet (s : State) (q : Request) (e image : List Byte) : State :=
  if sessValid e && sessActive e then s.commit q Code.sessionBusy 0
  else
    let im := sessionEntry q.job image
    let s := s.writeSession q.session im
    (s.setKv q.session (s.kvWalk (sessPages im / 511 + 1) (sessRoot im) (sessPages im))).commit q 0 0

/-- A checked request acts by its OP (R417). -/
def State.requestActs (s : State) (q : Request) (d e image : List Byte) (imageBad : Bool) : State :=
  match q.op with
  | 1 => s.letIn q e
  | 2 => s.letIn q e
  | 3 => if imageBad then s.commit q Code.uncorrectable 0 else s.sessionSet q e image
  | 4 => s.sessionClose q
  | 5 =>
    let (st, s) := s.abortTarget (bytesAt d 48 2 % 2 ^ 14) (bytesAt d 44 4)
    s.commit q st (bytesAt d 44 4)
  | _ =>
    let s := s.enterTable { q with stage := .calling }
    (s.pushNow tableUser (s.fld (Reg.TL_RING0 q.ring) Fld.TL_RING0_CALL_CHANNEL) true d).2

/-- Is a ring's CALL channel full, so that its CALL cannot be pushed yet? -/
def State.callHeld (s : State) (r : Nat) : Bool :=
  let c := s.fld (Reg.TL_RING0 r) Fld.TL_RING0_CALL_CHANNEL
  s.chanOn c && decide (s.chanDepth c ≤ (s.chan c).count)

/-- An entry is consumed from a ring (R413, R414, R438): HEAD advances and is written back, a completion entry is reserved, and the
descriptor is checked and acts. -/
def State.consumeFrom (s : State) (j r : Nat) (d : List Byte) (bad : Bool) (image : List Byte) (imageBad : Bool) : State :=
  let x := s.ring r
  let ptr := x.head
  let s := s.setRing r { x with head := (x.head + 1) % 2 ^ 32 }
  let cq := s.cqOf r
  let y := s.ring cq
  let s := s.setRing cq { y with reserved := y.reserved + 1 }
  let s := s.countWrap Reg.TL_CNT_REQ Fld.TL_CNT_REQ_CONSUMED 1
  let s : State := { s with tl := { s.tl with lastRing := r } }
  let s := s.ringWriteBack r (s.ring r).head
  let key := r * 2 ^ 32 + ptr
  let q := requestOf r ptr j d
  let reach := q.result % 128 == 0 && s.companionMapped q.result (128 + q.resMax)
  let q : Request := if bad then { q with tag := 0, result := 0, op := 0 } else if reach then q else { q with result := 0 }
  let s := if (tblFind key s.tl.marked).isSome then
      let s : State := { s with tl := { s.tl with marked := tblErase key s.tl.marked } }
      s.commit q Code.aborted 0
    else if bad then s.commit q Code.uncorrectable 0
    else
      let (st, e, s) := s.readSession q.session
      match s.requestFault j d e with
      | some kind => s.commit q Code.requestInvalid kind
      | none => if st != 0 && q.op < 5 then s.commit q st 0 else s.requestActs q d e image imageBad
  s.settleRunnable j

/-- Consume one request of kind `op` (R417, R438): the descriptor and, for a SESSION_SET, its image are what companion memory gives;
a reserved OP or a descriptor that reads bad is taken under any kind. -/
def State.consume (s : State) (op : Nat) (desc : List Byte) (bad : Bool) (image : List Byte) (imageBad : Bool) : State :=
  let d := (desc ++ List.replicate 64 0).take 64
  let given := bytesAt d 0 1
  match s.job with
  | none => s
  | some j =>
    if !s.travoUp || !s.timeValid || s.sw.stopped || s.ecc.halted || s.safeState || !(bad || given == op || given == 0 || 6 < given) then s
    else if s.windowFull j then (if s.jobHasEntries j then { s with tl := { s.tl with winStop := true } } else s)
    else match s.nextRing j with
      | none => s
      | some r => if !bad && given == 6 && s.callHeld r then s else s.consumeFrom j r d bad image imageBad

def State.prefill (s : State) (desc : List Byte) (bad : Bool) : State := s.consume 1 desc bad [] false
def State.generate (s : State) (desc : List Byte) (bad : Bool) : State := s.consume 2 desc bad [] false
def State.sessionSetRequest (s : State) (desc : List Byte) (bad : Bool) (image : List Byte) (imageBad : Bool) : State :=
  s.consume 3 desc bad image imageBad
def State.sessionCloseRequest (s : State) (desc : List Byte) (bad : Bool) : State := s.consume 4 desc bad [] false
def State.abortRequestEntry (s : State) (desc : List Byte) (bad : Bool) : State := s.consume 5 desc bad [] false
def State.callRequest (s : State) (desc : List Byte) (bad : Bool) : State := s.consume 6 desc bad [] false

/-- CALL_RETURN: a return item on the running job's RET_CHANNEL commits its outstanding CALL (R417). -/
def State.callReturn (s : State) : State :=
  match s.job with
  | none => s
  | some j =>
    let (item, s) := s.popNow tableUser (s.fld (Reg.TL_JOB j) Fld.TL_JOB_RET_CHANNEL)
    match item with
    | none => s
    | some (b, _, bad) =>
      let mine (q : Request) : Bool := q.stage == .calling && q.job == j && q.tag == bytesAt b 0 4 &&
        q.ring == bytesAt b 4 2 % 2 ^ 14 && q.ptr == bytesAt b 8 4
      match s.tl.requests.find? fun q => !bad && mine q with
      | none => s.countWrap Reg.TL_CNT_LINK Fld.TL_CNT_LINK_MALFORMED 1
      | some q =>
        let data := if q.result = 0 then [] else memBytes s.tl.cmem (q.result + 128 - companionBase) (bytesAt b 16 4)
        s.commit { q with data := data } (bytesAt b 12 1) 0

/-- COMMIT: the oldest request whose last step is over commits, DEADLINE_MISSED when its deadline has passed (R426, R435). -/
def State.commitNext (s : State) : State :=
  match s.tl.requests.find? fun q => q.stopped with
  | none => s
  | some q =>
    let st := q.ending.getD 0
    let st := if st = 0 && s.deadlineOver q then Code.deadlineMissed else st
    let (_, e, s) := s.readSession q.session
    s.commit q st (if st = Code.deadlineMissed then s.pastDeadline q else if st = Code.kvExhausted then sessPosition e else 0)

end Sys2Proof.Machine
end

