-- ==== Sys2Proof/Machine/Steps.lean ====
section
/-! DEFINITION. Decode steps: what a finished step gives its requests, deadlines, slots, KV pages, token streaming and the items of the
next step (R421, R430 to R436). -/

namespace Sys2Proof.Machine

/-- Change one request of the table. -/
def State.setRequest (s : State) (q : Request) : State :=
  s.mapRequests fun p => if p.ring == q.ring && p.ptr == q.ptr then q else p

/-- The token-stream entry of a token (R421). -/
def State.tokenEntry (s : State) (ring session : Nat) (last stop : Bool) (token prob position : Nat) : List Byte :=
  leBytes 4 token ++ leBytes 4 (session + s.ringPhase ring * 2 ^ 20 + b2n last * 2 ^ 21 + b2n stop * 2 ^ 22) ++ leBytes 4 prob ++
  leBytes 4 (position % 2 ^ 32)

/-- Does a request leave the slots at this boundary whatever its step gave: aborted, or past its deadline without RUN_LATE (R427,
R435)? -/
def State.leaves (s : State) (q : Request) : Bool := q.ending.isSome || (s.deadlineOver q && !bitAt q.flags 0)

/-- A GENERATE of the step has its token (R417, R421). -/
def State.stepGenerate (s : State) (q : Request) (t prob : Nat) : State :=
  let (_, e, s) := s.readSession q.session
  let pos := sessPosition e
  let stops (i : Nat) : Bool := bytesAt e i 4 == t && t != 0xFFFF_FFFF
  let stop := stops 40 || stops 44
  let last := stop || q.left == 1 || s.leaves q
  let s := s.writeSession q.session (setBytesAt (setBytesAt e 4 4 t) 8 8 ((pos + 1) % 2 ^ 40))
  let s := if sessStream e then s.ringAppend (sessRing e) (s.tokenEntry (sessRing e) q.session last stop t prob pos) else s
  s.setRequest { q with produced := q.produced + 1, left := q.left - 1, data := q.data ++ leBytes 4 t, inStep := false,
                        ending := if q.ending.isNone && (stop || q.left == 1) then some 0 else q.ending }

/-- A PREFILL of the step has taken its positions, and with SAMPLE_FIRST after the last of them its token (R417, R433). -/
def State.stepPrefill (s : State) (q : Request) (t : Nat) : State :=
  let n := min q.left s.prefillChunk
  let (_, e, s) := s.readSession q.session
  let past := n == q.left
  let samples := past && bitAt q.flags 1
  let pos := sessPosition e + n + b2n samples
  let s := s.writeSession q.session (setBytesAt (setBytesAt e 4 4 t) 8 8 (pos % 2 ^ 40))
  s.setRequest { q with produced := q.produced + n, left := q.left - n, data := if samples then leBytes 4 t else q.data,
                        inStep := false, ending := if q.ending.isNone && past then some 0 else q.ending }

/-- What the step just ended gives one of its requests; a sequence that the program does not report did not advance. -/
def State.stepResult (rs : List StepResult) (s : State) (q : Request) : State :=
  match rs.find? fun r => r.session == q.session with
  | none => s.setRequest { q with inStep := false }
  | some r => if q.op = 2 then s.stepGenerate q r.token r.prob else s.stepPrefill q r.token

/-- Deadlines and ends at the boundary (R427, R435): a waiting request past its deadline commits at once; a running one that ends is
stopped and waits for its commit. -/
def State.stepEnds (s : State) (q : Request) : State :=
  if q.stage = .waiting then
    if s.deadlineOver q && !bitAt q.flags 0 then s.commit q Code.deadlineMissed (s.pastDeadline q) else s
  else if q.stage = .running && !q.stopped && s.leaves q then
    s.setRequest { q with stopped := true, ending := some (q.ending.getD Code.deadlineMissed) }
  else s

/-- The order in which waiting requests get slots (R432). -/
def grantBefore (a b : Request) : Bool :=
  let d (q : Request) : Nat := if q.deadline = 0 then 2 ^ 64 else q.deadline
  decide (a.dclass < b.dclass) || (a.dclass == b.dclass &&
    (decide (d a < d b) || (d a == d b && decide (a.accepted ≤ b.accepted))))

/-- Give free slots to waiting requests; `fuel` bounds them (R432). -/
def State.grantSlots (j : Nat) : Nat → State → State
  | 0, s => s
  | fuel + 1, s =>
    let busy := (s.tl.requests.filter fun q => q.job == j && q.stage == .running && !q.stopped).length
    if s.slotsMax ≤ busy then s
    else match sortBy grantBefore (s.waitingOf j) with
      | [] => s
      | q :: _ =>
        let g := tblGetD j 0 s.tl.grants
        let s : State := { s with tl := { s.tl with grants := tblSet j ((g + 1) % 2 ^ 64) s.tl.grants } }
        State.grantSlots j fuel (s.setRequest { q with stage := .running, grant := g })

/-- Store a word of a list block, wherever it lies (R430). -/
def State.putBlockWord (s : State) (a v : Nat) : State :=
  s.issueAny ⟨tableUser, Op.store, false, a, 8, 255, 0, false, false, false, leBytes 8 v, .none⟩

/-- Take a page for a session, with a list block when its place needs one (R430, R431); none when the pools are empty. -/
def State.addPage (s : State) (id job : Nat) : Option State :=
  let (ps, bs) := s.kvOf id
  let j := ps.length
  match s.poolPop job with
  | (none, _) => none
  | (some a, t) =>
    let put (t : State) (bs : List Nat) : State :=
      let t := t.putBlockWord (bs.getLastD 0 + 8 * (j % 511)) (a + 1)
      let (_, e, t) := (t.setKv id (ps ++ [a], bs)).readSession id
      t.writeSession id (setBytesAt (setBytesAt e 36 4 (j + 1)) 48 8 (bs.headD 0))
    if j % 511 = 0 then
      match t.poolPop job with
      | (none, _) => none
      | (some b, t) => some (put (if bs.isEmpty then t else t.putBlockWord (bs.getLastD 0 + 8 * 511) (b + 1)) (bs ++ [b]))
    else some (put t bs)

/-- Take pages until a session holds `n` positions; `fuel` bounds them. False when the pools are empty. -/
def State.takePages (id job n : Nat) : Nat → State → Bool × State
  | 0, s => (true, s)
  | fuel + 1, s =>
    if n ≤ 64 * (s.kvOf id).1.length then (true, s)
    else match s.addPage id job with
      | none => (false, s)
      | some t => State.takePages id job n fuel t

/-- One running request before the next step (R431, R434): it sits out, ends KV_EXHAUSTED, or takes part. -/
def State.joinStep (s : State) (q : Request) : State :=
  let (_, e, s) := s.readSession q.session
  if q.op = 2 && sessStream e && !s.ringRoom (sessRing e) 3 then s.countWrap Reg.TL_CNT_FLOW Fld.TL_CNT_FLOW_PAUSED_STEPS 1
  else
    let k := if q.op = 2 then 1 else min q.left s.prefillChunk
    let (ok, s) := State.takePages q.session q.job (sessPosition e + k) (k / 64 + 2) s
    if ok then s.setRequest { q with inStep := true } else s.commit q Code.kvExhausted (sessPosition e)

/-- The items of a step: at most 13 entries each, LAST on the last (R433); `fuel` bounds them. -/
def stepItems (number : Nat) : Nat → List Request → List (Bool × List Byte)
  | 0, _ => []
  | fuel + 1, qs =>
    if qs.isEmpty then []
    else
      let here := qs.take 13
      let last := decide (qs.length ≤ 13)
      let item := leBytes 8 number ++ leBytes 2 here.length ++ leBytes 1 (b2n last) ++ leBytes 1 0 ++
        (here.map fun q => leBytes 4 (q.session + b2n (q.op == 1) * 2 ^ 20)).flatten
      (last, (item ++ List.replicate 64 0).take 64) :: stepItems number fuel (qs.drop 13)

/-- The requests of the next step, in ascending grant number (R433). -/
def State.stepRequests (s : State) (j : Nat) : List Request :=
  sortBy (fun a b : Request => decide (a.grant ≤ b.grant)) (s.tl.requests.filter fun q => q.job == j && q.inStep)

/-- Add a sample to a measurement: a sum and a count (R436). -/
def addSample (j : Nat) (x : Nat × Nat) (t : List (Nat × (Nat × Nat))) : List (Nat × (Nat × Nat)) :=
  let y := tblGetD j (0, 0) t
  tblSet j (y.1 + x.1, y.2 + x.2) t

/-- Measure the step that has ended (R436): its length, and its length per prefill token. -/
def State.measureStep (s : State) (j prefill : Nat) : State :=
  match tblFind j s.tl.stepStart with
  | none => s
  | some t0 =>
    let d := s.now - t0
    { s with tl := { s.tl with measureS := addSample j (d, 1) s.tl.measureS,
                               measureP := if prefill = 0 then s.tl.measureP else addSample j (d, prefill) s.tl.measureP } }

/-- Push the next step's items onto STEP_CHANNEL (R433). A channel without room for all of them starts no step. -/
def State.pushStep (s : State) (j : Nat) : State :=
  let c := s.fld (Reg.TL_JOB j) Fld.TL_JOB_STEP_CHANNEL
  let qs := s.stepRequests j
  let items := stepItems (tblGetD j 0 s.tl.steps) (qs.length + 1) qs
  if s.chanDepth c < (s.chan c).count + items.length then s.mapRequests fun q => if q.job == j then { q with inStep := false } else q
  else
    let s := items.foldl (fun s i => (s.pushNow tableUser c i.1 i.2).2) s
    { s with tl := { s.tl with
        steps := if qs.isEmpty then s.tl.steps else tblSet j (tblGetD j 0 s.tl.steps + 1) s.tl.steps,
        stepStart := if qs.isEmpty then tblErase j s.tl.stepStart else tblSet j s.now s.tl.stepStart } }

/-- STEP_BOUNDARY: a decode step of the running job ends and the next begins (R431 to R435). -/
def State.stepBoundary (s : State) (rs : List StepResult) : State :=
  match s.job with
  | none => s
  | some j =>
    if s.sw.stopped then s
    else
      let done := s.stepRequests j
      let prefill := sumOf ((done.filter fun q => q.op == 1 && rs.any fun r => r.session == q.session).map fun q => min q.left s.prefillChunk)
      let s := done.foldl (State.stepResult rs) s
      let s := if done.isEmpty then s else s.measureStep j prefill
      let s := (s.tl.requests.filter fun q => q.job == j).foldl State.stepEnds s
      let s := State.grantSlots j (s.waitingOf j).length s
      let run := sortBy (fun a b : Request => decide (a.grant ≤ b.grant))
        (s.tl.requests.filter fun q => q.job == j && q.stage == .running && !q.stopped)
      let s := run.foldl State.joinStep s
      (s.pushStep j).acceptWaiting

/-- Smooth one estimate (R436). -/
def smooth (x : Nat) (m : Nat × Nat) : Nat := if m.2 = 0 then x else (3 * x + m.1 / m.2) / 4

/-- Action 4 of a turn boundary (R90, R436): the running job's measurements are closed and smoothed, and a ring stopped by the
admission window in the turn is counted (R440). -/
def State.closeAdmission (s : State) : State :=
  let s := match s.job with
    | none => s
    | some j =>
      let x := smooth s.estS (tblGetD j (0, 0) s.tl.measureS)
      let y := smooth (s.fld Reg.TL_ADM_EST Fld.TL_ADM_EST_P) (tblGetD j (0, 0) s.tl.measureP)
      (s.setFld Reg.TL_ADM_EST Fld.TL_ADM_EST_S (min x (2 ^ 32 - 1))).setFld Reg.TL_ADM_EST Fld.TL_ADM_EST_P (min y (2 ^ 32 - 1))
  let stopped := s.tl.winStop || (match s.job with | some j => s.windowFull j && s.jobHasEntries j | none => false)
  let s := if stopped then s.countWrap Reg.TL_CNT_FLOW Fld.TL_CNT_FLOW_WINDOW_STOPS 1 else s
  { s with tl := { s.tl with measureS := [], measureP := [], winStop := false } }

end Sys2Proof.Machine
end

