-- ==== Sys2Proof/Machine/Context.lean ====
section
/-! DEFINITION. Jobs and their contexts: residency, what a save and a reload move, swaps, and the accounting of engine time (R442 to
R446, R450, R457, R461, R467). -/

namespace Sys2Proof.Machine

-- Jobs -------------------------------------------------------------------------------------------------------------

/-- The jobs known to the device, in rising number (R463). -/
def State.knownJobs (s : State) : List Nat :=
  ((s.regRange (Reg.WM_JOB0 0) 4096).filter fun e => e.1 % 16 == 0 && bitAt e.2 0).map fun e => e.1 / 16

/-- The save-area slot that holds a job's context (R445). -/
def State.residentSlot (s : State) (j : Nat) : Option Nat :=
  (List.range 16).find? fun i => s.flag (Reg.WM_SAVE i) Fld.WM_SAVE_VALID && s.fld (Reg.WM_SAVE i) Fld.WM_SAVE_JOB == j

def State.resident (s : State) (j : Nat) : Bool := (s.residentSlot j).isSome

/-- Is a job FAILED (R461)? The STATE field holds that alone; the rest of it is derived. -/
def State.jobFailed (s : State) (j : Nat) : Bool := s.fld (Reg.WM_JOB0 j) Fld.WM_JOB0_STATE == 5
def State.failJob (s : State) (j : Nat) : State := s.setFld (Reg.WM_JOB0 j) Fld.WM_JOB0_STATE 5

def State.swapping (s : State) (j : Nat) : Bool := s.sw.swaps.any fun w => w.job == j

/-- STATE of a job (R463). -/
def State.jobState (s : State) (j : Nat) : Nat :=
  if !s.flag (Reg.WM_JOB0 j) Fld.WM_JOB0_VALID then 0
  else if s.jobFailed j then 5
  else if s.job = some j && !s.sw.stopped then 3
  else if s.swapping j then 4
  else if s.resident j then 2
  else 1

/-- Word 0 of WM_JOB_j as it reads (R463). -/
def State.jobWord (s : State) (j : Nat) : Nat :=
  let v := putBits (s.reg (Reg.WM_JOB0 j)) 3 3 (s.jobState j)
  putBits (putBits v 6 4 ((s.residentSlot j).getD 0)) 10 1 (b2n (s.jobRunnable j))

def State.deficit (s : State) (j : Nat) : Int := signedOf 32 (s.fld (Reg.WM_ACCT4 j) Fld.WM_ACCT4_DEFICIT)

/-- Store a DEFICIT, saturating at ±(2^31 − 1) (R452). -/
def State.setDeficit (s : State) (j : Nat) (d : Int) : State :=
  s.setFld (Reg.WM_ACCT4 j) Fld.WM_ACCT4_DEFICIT (unsignedOf 32 (max (-(2 ^ 31 - 1 : Int)) (min d (2 ^ 31 - 1))))

-- What a context holds ---------------------------------------------------------------------------------------------

/-- The address ranges of the registers that belong to the job context, by first address and size (R443 and the chapters that assign
them). -/
def contextRanges : List (Nat × Nat) :=
  [(Reg.RSV_REGION 0, 2048), (Reg.SLC_CHAN0 0, 0x20000), (Reg.HG_SEL_CTRL, 8), (Reg.HG_EXCH_CTRL, 0x30), (Reg.HG_PLACE_FLIP, 8),
   (Reg.HG_ZONE0 0, 0x8000), (Reg.HG_GATEWAY 0, 0x800), (Reg.HG_PLACE_BASE 0, 0x8000), (Reg.HG_SLOT0 0, 0x10000),
   (Reg.HG_LAYER0 0, 0x40000), (Reg.HG_LAYER0_IF 0, 0x40000), (Reg.JT_CTRL, 0x20), (Reg.JT_SW, 8), (Reg.JT_CNT_ISSUED, 0x28), (Reg.JT_MEMBER 0, 0x800),
   (Reg.JT_WIN0 0, 0x2000), (Reg.COL_CTRL, 0x20), (Reg.COL_GROUP 0, 0x800)]

/-- The ranges within each cluster's CL_ and FLM_ instance. -/
def contextClusterRanges : List (Nat × Nat) :=
  [(Reg.CL_CTRL 0, 8), (Reg.CL_ATOM_ADDR 0 0, 0x100), (Reg.CL_BUF 0 0, 0x800), (Reg.FLM_CTRL 0, 8), (Reg.FLM_DESC0 0 0, 0x800)]

/-- Does the register at an address belong to the job context? -/
def contextReg (a : Nat) : Bool :=
  contextRanges.any (fun r => decide (r.1 ≤ a) && decide (a < r.1 + r.2)) ||
  (decide (0x4000000 ≤ a) && decide (a < 0x6000000) &&
    contextClusterRanges.any fun r =>
      decide (r.1 / 2 ^ 24 = a / 2 ^ 24) && decide (r.1 % 65536 ≤ a % 65536) && decide (a % 65536 < r.1 % 65536 + r.2))

/-- The running job's context as it stands (R443), beside its scratchpads and Reservoir. -/
def State.contextOf (s : State) : Context :=
  { regs := s.regs.filter fun e => contextReg e.1, hg := s.hg, seals := s.rsv.sealBits, held := s.rsv.sealed,
    times := s.rsv.sealTimes, gates := s.rsv.tables, varve := s.rsv.varve, vmark := s.rsv.marks, chans := s.chans, cls := s.cls,
    cores := s.cores.filter fun e => decide (e.1 < 128), col := s.col, present := s.present }

/-- A context that has never run: every register of it at its reset value. -/
def Context.fresh (present : BitVec 32) : Context :=
  { regs := [], hg := HgState.reset, seals := [], held := [], times := [], gates := [], varve := [], vmark := [], chans := [], cls := [],
    cores := [], col := ColState.reset, present := present }

/-- Load a context: its state replaces what the last job left. Headgate engines out of service stay so. The fingerprint's
words change with it (R528). -/
def State.loadContext (s : State) (c : Context) : State :=
  let keep := s.regs.filter fun e => !contextReg e.1
  let t : State := { s with
    regs := c.regs.foldl (fun t e => tblSet e.1 e.2 t) keep, hg := { c.hg with retired := s.hg.retired },
    rsv := { s.rsv with sealBits := c.seals, sealed := c.held, sealTimes := c.times, tables := c.gates, varve := c.varve, marks := c.vmark },
    chans := c.chans, cls := c.cls.map (fun e => (e.1, { e.2 with stop := true })),
    cores := c.cores.foldl (fun t e => tblSet e.1 e.2 t) (s.cores.filter fun e => decide (128 ≤ e.1)),
    col := c.col, tb := { s.tb with flipArmed := 0 } }
  t.setFlag Reg.SEC_FP_CTRL Fld.SEC_FP_CTRL_VALID false

-- Moving memory ----------------------------------------------------------------------------------------------------

/-- Check every marked word or sector of a stored range as a save, reload or swap reads it (R488 source 4): those that read
uncorrectable or poisoned. -/
def State.sweepRange (s : State) (src n : Nat) : List Nat × State :=
  (s.marks.filter fun e => decide (src ≤ e.1) && decide (e.1 < src + n)).foldl (fun r e =>
    let (st, t) := r.2.checkWord e.1 4
    (if st = 0 then r.1 else r.1 ++ [e.1], t)) ([], s)

/-- The cells of a memory range, moved to another address. -/
def cellsMoved (m : Memory) (src dst n : Nat) : List Host.Cell :=
  (m.filter fun c => decide (src ≤ c.1) && decide (c.1 < src + n)).map fun c => (c.1 - src + dst, c.2)

/-- Replace a memory range by given cells. -/
def memReplace (m : Memory) (dst n : Nat) (cs : List Host.Cell) : Memory :=
  cs.foldl (fun t c => memPutByte t c.1 c.2) (memZero m dst n)

/-- Drop the marks of a stored range that is written whole (R486). -/
def State.dropMarks (s : State) (dst n : Nat) : State :=
  { s with marks := s.marks.filter fun e => !(decide (dst ≤ e.1) && decide (e.1 < dst + n)) }

/-- Move a stored range: a word that reads bad arrives poisoned (R461, R486). -/
def State.moveStore (s : State) (src dst n : Nat) : State :=
  let (bad, s) := s.sweepRange src n
  let t : State := { s.dropMarks dst n with mem := memReplace s.mem dst n (cellsMoved s.mem src dst n) }
  bad.foldl (fun t k => (List.range (wordSize k / 8)).foldl (fun t i => t.poisonWord (wordKey (dst + (k - src) + 8 * i))) t) t

/-- The parts of a context that lie in memory: where each stands in the device, where in a save area, and its size (R444). -/
def State.contextParts (s : State) : List (Nat × Nat × Nat) :=
  ((List.range s.fuses.clusters).map fun n => (scratchBase + n * 2 ^ 24, 0x0200_0000 + n * 2 ^ 24, 2 ^ 24)) ++
  ((List.range 4).map fun d => (rsvBase + d * 2 ^ 32, 0x2200_0000 + d * 2 ^ 28, 2 ^ 28))

/-- The base of a save area (R444, R462). -/
def State.saveBase (s : State) (i : Nat) : Nat := s.fld (Reg.WM_SAVE i) Fld.WM_SAVE_BASE

/-- Save the loaded context into its save area (R457). A job without one has no place the spec gives it. -/
def State.saveContext (s : State) (j : Nat) : State :=
  match s.residentSlot j with
  | none => s
  | some i =>
    let base := s.saveBase i
    let s : State := { s with sw := { s.sw with images := tblSet j s.contextOf s.sw.images } }
    let s := (s.dropMarks base 0x0200_0000)
    s.contextParts.foldl (fun s p => s.moveStore p.1 (base + p.2.1) p.2.2) s

/-- The context image of a job; one that has never been saved is fresh. -/
def State.imageOf (s : State) (j : Nat) : Context := tblGetD j (Context.fresh s.present) s.sw.images

/-- The first bad sector of a save area's context image, when it has one (R461). -/
def State.imageBad (s : State) (base : Nat) : Option Nat × State :=
  let (bad, s) := s.sweepRange base 0x0200_0000
  (bad.head?, s)

/-- Set CL_CTRL.CANON of every enabled cluster to the job's mode (R467). -/
def State.applyCanon (s : State) (j : Nat) : State :=
  let c := s.flag (Reg.WM_REPRO j) Fld.WM_REPRO_CANON
  (List.range s.fuses.clusters).foldl (fun s n => s.setFlag (Reg.CL_CTRL n) Fld.CL_CTRL_CANON c) s

/-- Reload a context from its save area: scratchpads and Reservoir, then the image, then the job's mode (R457, R461, R467). A job whose
clusters have changed since it was saved has re-folded (R506). -/
def State.reloadContext (s : State) (j base : Nat) : State :=
  let c := s.imageOf j
  let s := s.contextParts.foldl (fun s p => s.moveStore (base + p.2.1) p.1 p.2.2) s
  let s := (s.loadContext c).applyCanon j
  let s := (List.range s.fuses.clusters).foldl State.queueCounts s
  if c.present = s.present then s else s.setFlag (Reg.WM_REPRO j) Fld.WM_REPRO_REFOLDED true

-- Swaps ------------------------------------------------------------------------------------------------------------

/-- The footprints a swap moves (R446), by die-view address and size: those of the non-FREE regions of a context. -/
def contextFootprints (regs : List (Nat × Word)) : List (Nat × Nat) :=
  let rs := (regs.filter fun e => decide (Reg.RSV_REGION 0 ≤ e.1) && decide (e.1 < Reg.RSV_REGION 256)).map fun e =>
    Region.ofWord e.2.toNat
  ((rs.filter fun r => r.type != 0).map fun r =>
    (if r.pinned then [r.pinDie] else [0, 1, 2, 3]).map fun d => (d * 2 ^ 28 + r.base * 4096, r.span * 4096)).flatten

/-- The parts a swap of a job moves, as offset in the save area and size: image, scratchpads of the enabled clusters, footprints. -/
def State.swapParts (s : State) (j : Nat) : List (Nat × Nat) :=
  [(0, 0x0200_0000)] ++ ((List.range s.fuses.clusters).map fun n => (0x0200_0000 + n * 2 ^ 24, 2 ^ 24)) ++
  ((contextFootprints (s.imageOf j).regs).map fun f => (0x2200_0000 + f.1, f.2))

/-- SWAP_DONE: the oldest swap completes, or stops on an uncorrectable word or on companion memory that is not mapped (R44) and leaves the
context where it was (R446). -/
def State.swapDone (s : State) : State :=
  match s.sw.swaps with
  | [] => s
  | w :: rest =>
    let s : State := { s with sw := { s.sw with swaps := rest } }
    let base := s.saveBase w.slot
    let far := s.reg (Reg.WM_JOB1 w.job) - companionBase
    let parts := s.swapParts w.job
    match parts.find? fun p => !s.companionMapped (companionBase + far + p.1) p.2 with
    | some p => s.unmapped hostWriter (companionBase + far + p.1) (if w.out then .write else .read)
    | none =>
    if w.out then
      let (bad, s) := parts.foldl (fun r p =>
        let (b, t) := r.2.sweepRange (base + p.1) p.2
        (r.1 ++ b, t)) (([], s) : List Nat × State)
      match bad.find? fun k => (tblFind k s.marks).map judgeHbm == some .poison with
      | some k =>
        let (d, s) := s.uncorrectableDetail 1 4
        s.fault (s.storeUnit k).1 Code.uncorrectable (some k) d
      | none =>
        if !bad.isEmpty then s
        else
          let s := parts.foldl (fun s p =>
            { s with tl := { s.tl with cmem := memReplace s.tl.cmem (far + p.1) p.2 (cellsMoved s.mem (base + p.1) (far + p.1) p.2) } }) s
          let s := s.setFlag (Reg.WM_SAVE w.slot) Fld.WM_SAVE_VALID false
          s.countWrap Reg.WM_IDLE Fld.WM_IDLE_SWAPS 1
    else
      let s : State := { s.dropMarks base 0x6200_0000 with mem := memZero s.mem base 0x6200_0000 }
      let s := parts.foldl (fun s p =>
        { s with mem := memReplace s.mem (base + p.1) p.2 (cellsMoved s.tl.cmem (far + p.1) (base + p.1) p.2) }) s
      let s := s.setFld (Reg.WM_SAVE w.slot) Fld.WM_SAVE_JOB w.job
      let s := s.setFlag (Reg.WM_SAVE w.slot) Fld.WM_SAVE_VALID true
      s.countWrap Reg.WM_IDLE Fld.WM_IDLE_SWAPS 1

-- Accounting -------------------------------------------------------------------------------------------------------

/-- The cycle at which the last issued command of a cluster ends; none when it has none running. -/
def Cluster.busyUntil (c : Cluster) : Nat :=
  ((c.running.map fun r => r.stop) ++ (c.vecRun.toList.map fun r => r.stop) ++ (c.flmRun.toList.map fun r => r.stop)).foldl max 0

/-- Does a Headgate engine run a stage (R59, R450): scoring, selection or sorting of a step it takes part in? -/
def State.engineBusy (s : State) (e : Nat) : Bool :=
  !s.hgHeld && s.hg.steps.any fun p => (p.stage == .selecting || p.stage == .selected) && p.engines.contains e

/-- Charge `n` array cycles to the running job (R450): CLUSTER_CYCLES for each cluster that runs a command in them, HG_CYCLES for each
Headgate engine that runs a stage. -/
def State.chargeCycles (s : State) (n : Nat) : State :=
  match s.job with
  | none => s
  | some j =>
    let of (c : Cluster) : Nat := if c.dmaRun.isEmpty then min n (c.busyUntil - s.clock.cycles) else n
    let cl := sumNats (s.cls.map fun e => of e.2)
    let hg := n * ((List.range 4).filter s.engineBusy).length
    let s := if cl = 0 then s else s.countWrap (Reg.WM_ACCT0 j) Fld.WM_ACCT0_CLUSTER_CYCLES cl
    if hg = 0 then s else s.countWrap (Reg.WM_ACCT1 j) Fld.WM_ACCT1_HG_CYCLES hg

end Sys2Proof.Machine
end

