-- ==== Sys2Proof/Machine/Image.lean ====
section
/-! DEFINITION. The boot ROM's image steps: measurement, verification of the firmware image and its start (R514 to R518). -/

namespace Sys2Proof.Machine

/-- A 256-bit register of four words, first byte lowest, and its store (R534). -/
def State.reg256 (s : State) (a : Nat) : List Byte := ((List.range 4).map fun i => leBytes 8 (s.reg (a + 8 * i))).flatten
def State.setReg256 (s : State) (a : Nat) (bs : List Byte) : State :=
  (List.range 4).foldl (fun s i => s.setReg (a + 8 * i) (leNat (sliceOf bs (8 * i) 8))) s

/-- Extend a measurement register by a digest (R517), with its log entry. -/
def State.extendMeas (s : State) (m : Nat) (d : List Byte) : State :=
  let s := s.setReg256 (Reg.SEC_MEAS m 0) (sha256 (s.reg256 (Reg.SEC_MEAS m 0) ++ d))
  let (v, s) := s.takeFree .logType
  { s with boot := { s.boot with log := s.boot.log ++ [⟨m, v % 256, d⟩] } }

/-- The 64 bytes of the measurement log's entry at place `i` (R517). -/
def LogEntry.bytes (e : LogEntry) (i : Nat) : List Byte :=
  leBytes 1 e.reg ++ leBytes 1 e.type ++ leBytes 2 0 ++ leBytes 4 i ++ List.replicate 24 0 ++ e.digest

/-- A field of an image or descriptor. -/
def fieldAt (bs : List Byte) (i n : Nat) : Nat := leNat (sliceOf bs i n)

/-- The signed range of an image (R515, R517). -/
def signedRange (img : List Byte) : List Byte := img.take (128 + fieldAt img 12 4)

/-- Does a copied image of `len` bytes verify (R515, R516)? -/
def State.imageVerifies (s : State) (img : List Byte) (len : Nat) : Bool :=
  let body := fieldAt img 12 4
  decide (body ≤ 15 * 2 ^ 20) && len == 128 + body + 16224 && fieldAt img 0 4 == 0x474D4957 && fieldAt img 4 4 == 1 &&
  beNat (sha256 (sliceOf img 64 48)) == s.fuses.keyHash &&
  Config.slhVerify192s (sliceOf img 64 48) (signedRange img) (sliceOf img (128 + body) 16224)

/-- The boot stops for want of a good image: the device waits in the safe state for another one (R513, R518). -/
def State.toRecovery (s : State) (code : Nat) : State :=
  let s := s.setFld Reg.SEC_BOOT_STATUS Fld.SEC_BOOT_STATUS_CODE code
  s.setFld Reg.SEC_BOOT_STATUS Fld.SEC_BOOT_STATUS_PHASE 3

/-- The image steps of R514 on the bytes found at the image's address: verify, check the SVN, extend the measurements, and start the
firmware. True when it starts. -/
def State.imageSteps (s : State) (bytes : List Byte) (len : Nat) : Bool × State :=
  let img := bytes.take len
  if !s.imageVerifies img len then (false, s.toRecovery 0x10)
  else if fieldAt img 8 4 < s.fuses.minSvn then (false, s.toRecovery 0x11)
  else
    let s := s.boot.early.foldl (fun s e => s.extendMeas e.1 e.2) s
    let s : State := { s with boot := { s.boot with early := [] } }
    let s := s.extendMeas 2 (sha256 (signedRange img))
    let s := s.extendMeas 3 (sha256 s.boot.program)
    let s := s.setFld Reg.SEC_SVN Fld.SEC_SVN_IMAGE (fieldAt img 8 4)
    let s := s.setFld Reg.SEC_BOOT_STATUS Fld.SEC_BOOT_STATUS_CODE 0
    (true, s.setFld Reg.SEC_BOOT_STATUS Fld.SEC_BOOT_STATUS_PHASE 4)

/-- The firmware has restarted after a request of R508: WM_RECOVERED is written. -/
def State.recovered (s : State) : State :=
  if s.ecc.recover then
    let t : State := { s with ecc := { s.ecc with recover := false } }
    t.fault 0x4010 Code.wmRecovered none 0
  else s

/-- The Watermaster restarts under R508: the ROM repeats the image steps, with registers 2 and 3 zeroed (R518); WM_RECOVERED is written
once the firmware has restarted. -/
def State.restartWm (s : State) : State :=
  let s : State := { s with cores := s.cores.filter (fun e => decide (e.1 < 128)) }
  let s := s.setReg256 (Reg.SEC_MEAS 2 0) []
  let s := s.setReg256 (Reg.SEC_MEAS 3 0) []
  let (ok, s) := s.imageSteps s.boot.image s.boot.imageLen
  if ok then s.recovered else s

end Sys2Proof.Machine
end

