-- ==== Sys2Proof/Machine/Switch.lean ====
section
/-! DEFINITION. The job scheduler: turn boundaries with re-vote, flips and the turn plan, switches, tile boundaries, cluster retirement,
and the mode registers (R86 to R90, R215, R235, R447 to R468, R481, R489 to R491, R506). -/

namespace Sys2Proof.Machine

-- Voted words ------------------------------------------------------------------------------------------------------

/-- The 66 voted critical words in the order of R489, each with the unit that holds it (log entry 23). -/
def votedWords : List (Nat × Nat) :=
  ([Reg.FWD_IDENT, Reg.TOP_SETUP_LOCK, Reg.TOP_CLUSTER_MAP, Reg.JT_CTRL, Reg.JT_RACKWIN, Reg.JT_EXPORT, Reg.JT_EXPORT_SIZE,
    Reg.JT_MGMT_WIN, Reg.SEC_LIFECYCLE, Reg.SEC_BOOT_STATUS, Reg.SEC_SVN, Reg.SEC_MGMT_CTRL, Reg.SEC_MGMT_BOX, Reg.SEC_FP_CTRL,
    Reg.SEC_ATTEST_CTRL, Reg.SEC_LAUNCH_STATUS, Reg.WM_PLAN_CTRL_IF, Reg.WM_PLAN_ORIGIN_IF, Reg.WM_SCHED].map fun a => (a, 0x4014)) ++
  ([Reg.FT_CTRL, Reg.FT_EPOCH_TAI, Reg.FT_TURN_ORIGIN, Reg.FT_TURN_LEN, Reg.FT_TURN_CHANGE, Reg.FT_WINDOW,
    Reg.FT_SCRUB_SLOT].map fun a => (a, 0x4013)) ++
  ([Reg.FWD_FLIP, Reg.HG_PLACE_FLIP, Reg.WM_PLAN_FLIP, Reg.TL_CTRL, Reg.TL_SESS, Reg.TL_EVENT].map fun a => (a, 0x4014)) ++
  ((List.range 16).map fun i => (Reg.WM_SAVE i, 0x4014)) ++
  ([Reg.FWD_CTRL, Reg.FWD_SW, Reg.ECC_CTRL, Reg.ECC_SCRUB, Reg.ECC_HB_CTRL, Reg.ECC_LOG_BASE, Reg.ECC_LOG_CTRL].map
    fun a => (a, 0x4014)) ++
  ((List.range 10).map fun k => (Reg.ECC_CLASS k, 0x4014)) ++ [(Reg.RSV_VARVE_CTRL, 0x4014)]

/-- The stored value of a voted word; the set-up lock and the cluster map have homes of their own. -/
def State.votedWord (s : State) (a : Nat) : Nat :=
  if a = Reg.TOP_SETUP_LOCK then b2n s.lock else if a = Reg.TOP_CLUSTER_MAP then s.present.toNat else s.reg a

def State.setVotedWord (s : State) (a v : Nat) : State :=
  if a = Reg.TOP_SETUP_LOCK then { s with lock := bitAt v 0 }
  else if a = Reg.TOP_CLUSTER_MAP then { s with present := BitVec.ofNat 32 v }
  else s.setReg a v

/-- The bitwise majority of three copies (R489). -/
def majority (a b c : Nat) : Nat := (a &&& b) ||| (a &&& c) ||| (b &&& c)

/-- Enter the halted state (R491): jobs stop at their next tile boundary, every port leaves forwarding, and no submission entry is
consumed. -/
def State.halt (s : State) : State :=
  let s : State := { s.stopIssue with ecc := { s.stopIssue.ecc with halted := true, kill := true } }
  let s := s.setFld Reg.SEC_BOOT_STATUS Fld.SEC_BOOT_STATUS_PHASE 5
  (List.range 16).foldl (fun s p => if s.portStage p = 0 then s else s.portDown p) s

/-- Re-vote one word whose copies an upset has struck (R489 to R491). -/
def State.revote (us : List VoteUpset) (s : State) (i : Nat) : State :=
  match votedWords[i]? with
  | none => s
  | some (a, unit) =>
    let w := s.votedWord a
    let copy (k : Nat) : Nat := ((us.filter fun u => u.index == i && u.copy == k).foldl (fun v u => v ^^^ (u.mask % 2 ^ 64)) w)
    let x := copy 0
    let y := copy 1
    let z := copy 2
    if x = y && y = z then s.setVotedWord a x
    else if x != y && y != z && x != z then (s.fault unit Code.voteLost none i).halt
    else
      let m := majority x y z
      let s := s.setVotedWord a m
      let s := s.countWrap Reg.ECC_VOTE Fld.ECC_VOTE_CORRECTED 1
      let s := s.setFld Reg.ECC_VOTE Fld.ECC_VOTE_LAST_INDEX i
      s.eccEvent 9 unit 0 false (setupBase + a)

/-- Action 1 of R90: the re-vote of all voted words. -/
def State.revoteAll (s : State) (us : List VoteUpset) : State :=
  (us.map fun u => u.index).eraseDups.foldl (State.revote us) s

-- Clusters at tile boundaries --------------------------------------------------------------------------------------

/-- Does a cluster run nothing in any queue (R235, R273)? -/
def Cluster.idle (c : Cluster) : Bool := c.running.isEmpty && c.vecRun.isNone && c.dmaRun.isEmpty && c.flmRun.isNone

def State.clustersIdle (s : State) : Bool := (List.range s.fuses.clusters).all fun n => (s.cluster n).idle

/-- Clusters whose retirement is asked for and has not taken effect. -/
def State.retiring (s : State) : List Nat :=
  (List.range s.fuses.clusters).filter fun n => bitAt (s.reg Reg.ECC_RETIRE_CL) n && s.clusterPresent n

/-- Issue starts again unless something else still stops it. -/
def State.startIssue (s : State) : State :=
  if s.sw.stopped || s.ecc.kill || !s.retiring.isEmpty then s
  else { s with cls := s.cls.map fun e => (e.1, { e.2 with stop := false }) }

/-- A retirement takes effect (R506): queues discarded, PRESENT cleared, REFOLDED set; the collective's launch list loses it (R399). -/
def State.retireCluster (s : State) (n : Nat) : State :=
  let s := s.setCluster n { Cluster.empty with stop := true }
  let s : State := { s with present := s.present &&& BitVec.ofNat 32 (2 ^ 32 - 1 - 2 ^ n) }
  let s := match s.job with
    | some j => s.setFlag (Reg.WM_REPRO j) Fld.WM_REPRO_REFOLDED true
    | none => s
  (s.queueCounts n).colRetire n

/-- Every job stops without being saved (R491, R508): no job is loaded and the engines stay stopped. -/
def State.killJobs (s : State) : State :=
  let s := s.setFlag Reg.WM_SCHED Fld.WM_SCHED_RUN_VALID false
  let s := s.setFlag Reg.WM_SCHED Fld.WM_SCHED_SWITCHING false
  { s with sw := { s.sw with phase := .none, stopped := true, outJob := none, inJob := none, held := none, want := none },
           ecc := { s.ecc with kill := false } }

/-- TILE_BOUNDARY: a cluster whose issue has been stopped runs nothing (R235). Its retirement takes effect when it was asked for; when
the jobs are to stop, they do so once every cluster has come to its boundary. -/
def State.tileBoundary (s : State) (n : Nat) : State :=
  let c := s.cluster n
  if !c.stop || !c.idle || s.colSending then s
  else
    let s := if s.retiring.contains n then s.retireCluster n else s
    let s := if s.ecc.kill && s.clustersIdle then
        let again := s.ecc.recover
        let s := s.killJobs
        if again then s.restartWm else s
      else s
    s.startIssue

/-- The loads of an issuer that are still open no longer belong to a running program: their data is dropped when it comes. -/
def State.disownLoads (s : State) (who : Requester) : State :=
  let drop (x : Sink) : Sink := match x with
    | .reg _ _ => .none
    | y => y
  let op (o : OpenOp) : OpenOp := if o.who = who then { o with sink := drop o.sink } else o
  { s with
    fab := { s.fab with opens := s.fab.opens.map fun e => (e.1, op e.2), waiting := s.fab.waiting.map fun w => { w with op := op w.op } }
    tl := { s.tl with reads := s.tl.reads.map fun r => if r.who = who then { r with sink := drop r.sink } else r } }

/-- A control core starts at the first byte of its cluster's code area in machine mode, whatever it waited for when it was halted (R215). -/
def State.startCore (s : State) (n k : Nat) : State :=
  (s.disownLoads (.core n k)).onCore (4 * n + k) fun c =>
    { c with pc := scratchBase + n * 2 ^ 24 + codeArea, machine := true, fencing := false, loads := [] }

/-- CL_CORE_RUN: the Watermaster and the management channel start and halt cores (R215); any other source is refused. -/
def State.coreRunWrite (s : State) (src : Source) (n v : Nat) : State :=
  if !s.clusterPresent n then s
  else if !WriteSource.wmMgmt.accepts src then s.setupLocked (Reg.CL_CORE_RUN n)
  else
    let old := s.reg (Reg.CL_CORE_RUN n)
    let s := s.setFld (Reg.CL_CORE_RUN n) Fld.CL_CORE_RUN_RUN v
    (List.range 4).foldl (fun s k => if bitAt v k && !bitAt old k then s.startCore n k else s) s

-- Switches ---------------------------------------------------------------------------------------------------------

/-- Write SWITCH_LATE (R460). -/
def State.switchLate (s : State) (out inn kind overrun : Nat) : State :=
  let s := s.fault 0x4000 Code.switchLate none (out + inn * 2 ^ 8 + kind * 2 ^ 16 + min overrun (2 ^ 28 - 1) * 2 ^ 20)
  s.countWrap Reg.WM_CNT Fld.WM_CNT_LATE 1

def State.quiesceUs (s : State) : Nat := s.fld Reg.WM_SWITCH Fld.WM_SWITCH_QUIESCE_US
def State.drainUs (s : State) : Nat := s.fld Reg.WM_SWITCH Fld.WM_SWITCH_DRAIN_US
def State.resumeUs (s : State) : Nat := s.fld Reg.WM_SWITCH Fld.WM_SWITCH_RESUME_US
def State.tDead (s : State) : Nat := s.fld Reg.JT_CTRL Fld.JT_CTRL_T_DEAD

/-- Idle time counts from now on, unless it counts already (R462). -/
def State.idleFrom (s : State) : State :=
  { s with sw := { s.sw with idleAt := some (s.sw.idleAt.getD s.now) } }

/-- Account whole microseconds of idle time so far; IDLE_US saturates (R462). -/
def State.countIdle (s : State) : State :=
  match s.sw.idleAt with
  | none => s
  | some t =>
    let us := (s.now - t) / 1000
    let s : State := { s with sw := { s.sw with idleAt := some (t + us * 1000) } }
    s.countSat Reg.WM_IDLE Fld.WM_IDLE_IDLE_US us

def State.endIdle (s : State) : State :=
  let s := s.countIdle
  { s with sw := { s.sw with idleAt := none } }

/-- A preemption request at boundary time `edge`: every engine heads for its stop point and all queues stop issuing (R455, R457). -/
def State.beginSwitch (s : State) (inn : Option Nat) (gang : Bool) (edge : Nat) : State :=
  let s : State := { s.stopIssue with sw := { s.sw with phase := .stopping, stopped := true, edge := edge, outJob := s.job, inJob := inn,
                                                        held := s.job.orElse fun _ => s.sw.held, want := none, gang := gang, late0 := false, drained := false, ended := false } }
  s.setFlag Reg.WM_SCHED Fld.WM_SCHED_SWITCHING true

/-- Begin the switch that a boundary inside the last one has asked for, unless it names the job that is loaded (R90). -/
def State.beginWanted (s : State) : State :=
  match s.sw.want with
  | none => s
  | some (inn, gang, edge) =>
    if s.job = inn && !s.sw.stopped then { s with sw := { s.sw with want := none } } else s.beginSwitch inn gang edge

/-- A switch has ended with no job running: the turn is idle, and the switch asked for in it begins (R457, R461). -/
def State.endSwitchIdle (s : State) : State :=
  let t : State := { s with sw := { s.sw with phase := .none, outJob := none, inJob := none } }
  t.idleFrom.beginWanted

/-- QUIESCE_OVERRUN: B + QUIESCE_US has passed before the job boundary (R460 kind 0). -/
def State.quiesceOverrun (s : State) : State :=
  if s.sw.phase = .stopping && decide (s.sw.edge + s.quiesceUs * 1000 < s.now) then { s with sw := { s.sw with late0 := true } } else s

/-- Does a control core await a Sluice answer, an atomic-port result or a fabric load (R455)? -/
def State.coreAwaits (s : State) (i : Nat) : Bool :=
  let who : Requester := .core (i / 4) (i % 4)
  let waits (o : OpenOp) : Bool := o.who == who && (match o.sink with | .reg _ _ => true | .atomPort => true | _ => false)
  (s.core i).slcBusy || s.fab.opens.any (fun e => waits e.2) || s.fab.waiting.any (fun w => waits w.op)

/-- Has every engine reached its stop point (R455)? -/
def State.atJobBoundary (s : State) : Bool :=
  s.clustersIdle && !s.colSending && s.cores.all fun e => decide (128 ≤ e.1) || !s.coreAwaits e.1

/-- JOB_BOUNDARY: every engine has reached its stop point and the save begins (R455, R457); a late one is recorded with its overrun
(R460). -/
def State.jobBoundary (s : State) : State :=
  if s.sw.phase != .stopping || !s.atJobBoundary then s
  else
    let lim := s.sw.edge + s.quiesceUs * 1000
    let s := if s.sw.late0 || decide (lim < s.now) then
        s.switchLate (s.sw.outJob.getD 0) (s.sw.inJob.getD 0) 0 ((s.now - lim) / 1000)
      else s
    { s with sw := { s.sw with phase := .saving } }

/-- Is a switch on its way to its reload? -/
def State.switchOut (s : State) : Bool := s.sw.phase == .stopping || s.sw.phase == .saving

/-- DRAIN_POINT: at B + DRAIN_US the Jorper agents send nothing more of the outgoing job (R457). -/
def State.drainPoint (s : State) : State :=
  if s.switchOut && !s.sw.drained && decide (s.sw.edge + s.drainUs * 1000 ≤ s.now) then
    { s with sw := { s.sw with drained := true }, fab := { s.fab with stopJob := s.sw.outJob } }
  else s

/-- DRAIN_END: at D + T_DEAD the port dies refuse ejection of REQ and BULK cells, and the Reservoir save may begin (R457). -/
def State.drainEnd (s : State) : State :=
  if s.switchOut && s.sw.drained && !s.sw.ended && decide (s.sw.edge + (s.drainUs + s.tDead) * 1000 ≤ s.now) then
    { s with sw := { s.sw with ended := true }, fab := { s.fab with refuse := true } }
  else s

/-- SWITCH_SAVE_DONE: the saves are complete and the reload begins (R457); with no incoming job the turn is idle and the switch is over
(R460 kind 2). -/
def State.switchSaveDone (s : State) : State :=
  if s.sw.phase != .saving || !s.sw.ended then s
  else
    let s := match s.sw.outJob with
      | none => s
      | some j =>
        let s := s.saveContext j
        { s with sw := { s.sw with leftAt := tblSet j s.sw.edge s.sw.leftAt } }
    let s := s.setFlag Reg.WM_SCHED Fld.WM_SCHED_RUN_VALID false
    match s.sw.inJob with
    | some _ => { s with sw := { s.sw with phase := .reloading } }
    | none =>
      (s.setFlag Reg.WM_SCHED Fld.WM_SCHED_SWITCHING false).endSwitchIdle

/-- Move the exchange deadline of every unfinished routing step later by the time its job was out (R456). -/
def State.moveDeadlines (s : State) (by_ : Nat) : State :=
  { s with hg := { s.hg with steps := s.hg.steps.map fun p => { p with deadline := p.deadline + by_ } } }

/-- The incoming job starts: ejection refusal ends and its engines and cores run (R456, R457). -/
def State.resumeJob (s : State) : State :=
  let j := s.jobNum
  let s := match tblFind j s.sw.leftAt with
    | some t => s.moveDeadlines (s.now - t)
    | none => s
  let s : State := { s with
    sw := { s.sw with phase := .none, stopped := false, outJob := none, inJob := none, held := none, leftAt := tblErase j s.sw.leftAt },
    fab := { s.fab with refuse := false, stopJob := none } }
  ((s.startIssue.endIdle).startHeld).beginWanted

/-- SWITCH_READY: the reload is complete (R457). A context image that reads bad leaves the job FAILED and the rest of the turn idle
(R461); a switch that is not ready at the resume point is late (R460 kind 1). -/
def State.switchReady (s : State) (us : List Upset) : State :=
  if s.sw.phase != .reloading then s
  else match s.sw.inJob with
  | none => s
  | some j =>
    let s := us.foldl State.upset s
    let slot := (s.residentSlot j).getD 0
    let (bad, s) := s.imageBad (s.saveBase slot)
    let s := s.setFlag Reg.WM_SCHED Fld.WM_SCHED_SWITCHING false
    match bad with
    | some _ =>
      (s.failJob j).endSwitchIdle
    | none =>
      let s := s.reloadContext j (s.saveBase slot)
      let s := s.setFld Reg.WM_SCHED Fld.WM_SCHED_RUNNING j
      let s := s.setFlag Reg.WM_SCHED Fld.WM_SCHED_RUN_VALID true
      let s := s.setFld Reg.WM_SCHED Fld.WM_SCHED_LAST_SWITCH_NS (s.now - s.sw.edge)
      let s := s.countWrap Reg.WM_CNT Fld.WM_CNT_SWITCHES 1
      let s : State := { s with sw := { s.sw with phase := .ready, since := s.now, held := some j } }
      let r := s.sw.edge + s.resumeUs * 1000
      if !s.sw.gang then s.resumeJob
      else if r < s.now then (s.switchLate (s.sw.outJob.getD 0) j 1 ((s.now - r) / 1000)).resumeJob
      else s

/-- RESUME_POINT: at B + RESUME_US a gang job whose switch is ready starts (R457). -/
def State.resumePoint (s : State) : State :=
  if s.sw.phase = .ready && decide (s.sw.edge + s.resumeUs * 1000 ≤ s.now) then s.resumeJob else s

-- The turn plan ----------------------------------------------------------------------------------------------------

/-- An armed plan flip applies at boundary `n` (R89, R447). -/
def State.planFlip (s : State) (n : Nat) : State :=
  if s.flag Reg.WM_PLAN_FLIP Fld.WM_PLAN_FLIP_ARMED &&
      s.armedFor s.tb.planArmed (s.fld Reg.WM_PLAN_FLIP Fld.WM_PLAN_FLIP_FLIP_TURN) n then
    let s := s.copyRange (Reg.WM_PLAN 0) (Reg.WM_PLAN_IF 0) 0x8000
    let s := s.setReg Reg.WM_PLAN_CTRL_IF (s.fld Reg.WM_PLAN_CTRL Fld.WM_PLAN_CTRL_LEN_M1)
    let s := s.setReg Reg.WM_PLAN_ORIGIN_IF (s.fld Reg.WM_PLAN_ORIGIN Fld.WM_PLAN_ORIGIN_ORIGIN)
    s.setFlag Reg.WM_PLAN_FLIP Fld.WM_PLAN_FLIP_ARMED false
  else s

/-- The jobs the GANG slots of one copy of the plan name. -/
def State.planned (s : State) (base len : Nat) : List Nat :=
  ((s.regRange base (8 * (len + 1))).filter fun e => bitAt e.2 8).map fun e => e.2 % 256

/-- Does a GANG slot of either copy name a job (R449)? -/
def State.planNames (s : State) (j : Nat) : Bool :=
  (s.planned (Reg.WM_PLAN_IF 0) (s.fld Reg.WM_PLAN_CTRL_IF Fld.WM_PLAN_CTRL_LEN_M1)).contains j ||
  (s.planned (Reg.WM_PLAN 0) (s.fld Reg.WM_PLAN_CTRL Fld.WM_PLAN_CTRL_LEN_M1)).contains j

/-- The single-device jobs that are runnable and not FAILED (R451). -/
def State.runnableSingles (s : State) : List Nat :=
  s.knownJobs.filter fun j => !s.flag (Reg.WM_JOB0 j) Fld.WM_JOB0_GANG && !s.jobFailed j && s.jobRunnable j

/-- DEFICIT at the end of a free turn from `start` to `stop` (R452). -/
def State.payDeficits (s : State) (start stop : Nat) : State :=
  let f := s.runnableSingles
  let share (j : Nat) : Nat := max 1 (s.fld (Reg.WM_JOB0 j) Fld.WM_JOB0_SHARE)
  let total := sumNats (f.map share)
  let us := (stop - start) / 1000
  let s := f.foldl (fun s j => s.setDeficit j (s.deficit j + ((us * share j / total : Nat) : Int))) s
  match s.job with
  | some j =>
    if s.flag (Reg.WM_JOB0 j) Fld.WM_JOB0_GANG then s
    else s.setDeficit j (s.deficit j - (((stop - max start s.sw.since) / 1000 : Nat) : Int))
  | none => s

/-- The job with the highest DEFICIT, the lower Job ID winning a tie (R453). -/
def State.highest (s : State) : List Nat → Option Nat
  | [] => none
  | j :: js =>
    match State.highest s js with
    | none => some j
    | some k => if s.deficit k ≤ s.deficit j then some j else some k

/-- The victim of an eviction (R454): of the resident contexts no plan slot names, the lowest DEFICIT, a tie going to the higher ID. -/
def State.victim (s : State) : List Nat → Option Nat
  | [] => none
  | j :: js =>
    match State.victim s js with
    | none => some j
    | some k => if s.deficit j < s.deficit k then some j else some k

/-- Start to swap a job in (R446, R449, R453): into a free save area, or one that an eviction frees. `keep` is not evicted. An eviction
made under R454 is counted. -/
def State.swapIn (s : State) (j : Nat) (keep : List Nat) : State :=
  if s.swapping j || s.resident j then s
  else
    let taken := s.sw.swaps.map fun w => w.slot
    let free := (List.range 16).find? fun i =>
      !s.flag (Reg.WM_SAVE i) Fld.WM_SAVE_VALID && s.saveBase i != 0 && !taken.contains i
    match free with
    | some i => { s with sw := { s.sw with swaps := s.sw.swaps ++ [⟨j, false, i⟩] } }
    | none =>
      let may := s.knownJobs.filter fun k =>
        s.resident k && !s.planNames k && !s.swapping k && !keep.contains k && s.job != some k && !s.jobRunnable k
      match s.victim may with
      | none => s
      | some k =>
        let i := (s.residentSlot k).getD 0
        let s : State := { s with sw := { s.sw with swaps := s.sw.swaps ++ [⟨k, true, i⟩, ⟨j, false, i⟩] } }
        s.countWrap Reg.WM_CNT Fld.WM_CNT_EVICTIONS 1

/-- Swap in the gang jobs of the slots that come up two and three turns on (R449). -/
def State.prefetchGang (s : State) (n : Nat) : State :=
  [2, 3].foldl (fun s k =>
    let w := s.reg (Reg.WM_PLAN_IF (s.planSlot (n + k)))
    if bitAt w 8 && !s.jobFailed (w % 256) && s.flag (Reg.WM_JOB0 (w % 256)) Fld.WM_JOB0_VALID then s.swapIn (w % 256) [] else s) s

/-- A preemption request at a boundary (R90): inside a switch it waits for that switch to end, and replaces one that waits already
(DEDUCED, log entry 24). -/
def State.askSwitch (s : State) (inn : Option Nat) (gang : Bool) (edge : Nat) : State :=
  if s.sw.phase = .none then s.beginSwitch inn gang edge else { s with sw := { s.sw with want := some (inn, gang, edge) } }

/-- The turn runs a job: it is counted, and a switch is asked for unless it is loaded already (R448, R464). -/
def State.chooseJob (s : State) (j : Nat) (gang : Bool) (edge : Nat) : State :=
  let s := s.countWrap (Reg.WM_ACCT4 j) Fld.WM_ACCT4_TURNS_RUN 1
  if s.job = some j && !s.sw.stopped then s else s.askSwitch (some j) gang edge

/-- A GANG slot names a job that cannot run: the turn is idle and the loaded job is switched out (R448, R460 kind 2). -/
def State.idleTurn (s : State) (named edge : Nat) : State :=
  let s := s.switchLate s.jobNum named 2 0
  if s.job.isSome || s.sw.phase != .none then s.askSwitch none true edge else s.idleFrom

/-- A free slot (R453, R454): the resident runnable single-device job with the highest DEFICIT runs; a swapped-out one that stands
higher, or alone, is swapped in. With no job to run the loaded one stays, and waiting for a swap is idle time. -/
def State.freeTurn (s : State) (edge : Nat) : State :=
  let f := s.runnableSingles
  let here := s.highest (f.filter s.resident)
  let away := s.highest (f.filter fun j => !s.resident j)
  let s := match away, here with
    | some a, none => (s.swapIn a []).idleFrom
    | some a, some h => if s.deficit h < s.deficit a then s.swapIn a [h] else s
    | none, _ => s
  match here with
  | some h => s.chooseJob h false edge
  | none => s

/-- Action 5 of R90 at boundary `n`: plan flip, DEFICIT, and the slot of the new turn (R447, R448, R452). `slotBad` says that the
in-force slot reads uncorrectable (R462). -/
def State.planStep (s : State) (n oldLen : Nat) (slotBad : Bool) : State :=
  let edge := (s.boundary n).toNat
  let s := s.planFlip n
  let s := if s.sw.phase = .none then s.endIdle else s.countIdle
  let s := s.knownJobs.foldl State.settleRunnable s
  let s := if s.sw.free then s.payDeficits (max (edge - oldLen * 1000) s.tb.floor) edge else s
  let s := s.prefetchGang n
  let w := s.reg (Reg.WM_PLAN_IF (s.planSlot n))
  let s : State := { s with sw := { s.sw with free := !slotBad && !bitAt w 8, want := none } }
  if s.ecc.halted || s.ecc.kill then s
  else if slotBad then
    let (v, s) := s.takeFree .unreadSlot
    s.idleTurn (v % 256) edge
  else if bitAt w 8 then
    let j := w % 256
    if s.resident j && !s.jobFailed j && s.flag (Reg.WM_JOB0 j) Fld.WM_JOB0_VALID then s.chooseJob j true edge else s.idleTurn j edge
  else s.freeTurn edge

/-- The exchange and collective deadlines up to a boundary are checked before its actions (R94). -/
def State.deadlinesBy (s : State) (edge : Nat) : State :=
  let s := s.hg.steps.foldl (fun s _ => s.missDeadline edge) s
  if s.col.deadline ≤ edge then s.colDeadline else s

/-- TURN_BOUNDARY: the next turn boundary has come. Deadlines up to it are checked, and then its five actions run in order (R90, R94). `us`
are upsets of the voted words that the re-vote finds, `slotBad` an uncorrectable plan slot. The placement flip of a job that is out waits
(R466). -/
def State.turnBoundary (s : State) (us : List VoteUpset) (slotBad : Bool) : State :=
  let n := s.nextBoundary
  if !s.timeValid || decide ((s.now : Int) < s.boundary n) then s
  else
    let s := s.deadlinesBy (s.boundary n).toNat
    let s := s.revoteAll us
    let s := if s.flag Reg.HG_PLACE_FLIP Fld.HG_PLACE_FLIP_ARMED && !(s.sw.stopped && s.sw.held.isSome) &&
        s.armedFor s.tb.flipArmed (s.fld Reg.HG_PLACE_FLIP Fld.HG_PLACE_FLIP_FLIP_TURN) n then s.placementFlip else s
    let s := if s.flag Reg.FWD_FLIP Fld.FWD_FLIP_ARMED &&
        s.armedFor s.tb.fwdArmed (s.fld Reg.FWD_FLIP Fld.FWD_FLIP_FLIP_TURN) n then s.forwardingFlip else s
    let oldLen := s.turnLen
    let s := s.changeTurnLen n
    let s : State := { s with tb := { s.tb with lastTurn := some n } }
    (s.closeAdmission).planStep n oldLen slotBad

-- Modes ------------------------------------------------------------------------------------------------------------

/-- CANON_WRITE: a core writes CL_CTRL.CANON of its own cluster (R468); against the job's mode it sets MIXED. -/
def State.canonWrite (s : State) (n v : Nat) : State :=
  if !s.clusterPresent n then s
  else
    let s := s.setFld (Reg.CL_CTRL n) Fld.CL_CTRL_CANON (v % 2)
    match s.job with
    | some j => if s.fld (Reg.WM_REPRO j) Fld.WM_REPRO_CANON != v % 2 then s.setFlag (Reg.WM_REPRO j) Fld.WM_REPRO_MIXED true else s
    | none => s

/-- WM_REPRO_j: mode and freeze; any write clears MIXED and REFOLDED (R468, R481). Travo Link is refused. -/
def State.reproWrite (s : State) (src : Source) (j v : Nat) : State :=
  let a := Reg.WM_REPRO j
  if !WriteSource.wmMgmt.accepts src then s.setupLocked a
  else
    let s := s.setFld a Fld.WM_REPRO_CANON (bitsOf v 0 1)
    let s := s.setFld a Fld.WM_REPRO_FREEZE (bitsOf v 1 1)
    (s.setFlag a Fld.WM_REPRO_MIXED false).setFlag a Fld.WM_REPRO_REFOLDED false

/-- WM_PLAN_FLIP: the write that sets ARMED arms the flip (R89, R447). -/
def State.planFlipWrite (s : State) (v : Nat) : State :=
  let s := s.setReg Reg.WM_PLAN_FLIP v
  if bitAt v 63 then { s with tb := { s.tb with planArmed := s.armTime } } else s

/-- Word 0 of WM_JOB_j: clearing VALID ends FAILED (R461); an unknown job has no image. -/
def State.jobWrite (s : State) (j v : Nat) : State :=
  let a := Reg.WM_JOB0 j
  let s := s.setFld a Fld.WM_JOB0_VALID (bitsOf v 0 1)
  let s := s.setFld a Fld.WM_JOB0_GANG (bitsOf v 1 1)
  let s := s.setFld a Fld.WM_JOB0_ALWAYS (bitsOf v 2 1)
  let s := s.setFld a Fld.WM_JOB0_SHARE (max 1 (bitsOf v 16 16))
  let s : State := if bitAt v 0 then s
    else
      let t : State := s.setFld a Fld.WM_JOB0_STATE 0
      { t with sw := { t.sw with images := tblErase j t.sw.images, leftAt := tblErase j t.sw.leftAt } }
  s.settleRunnable j

end Sys2Proof.Machine
end

