-- ==== Sys2Proof/Machine/Protect.lean ====
section
/-! DEFINITION. HBM3E controller accesses, patrol scrubbing, heartbeat, Watermaster recovery and retirement (R485, R498 to R500, R503 to
R508). -/

namespace Sys2Proof.Machine

/-- HBM_ACCESS: a controller completes an access of an engine to its stack (R485): `onDie` corrections the stack reports are counted, upsets
that leave the stack strike the sectors, and the data or the end of the write go on. -/
def State.hbmAccess (s : State) (q : RsvRequest) (us : List Upset) (onDie : Nat) : State :=
  let s := if onDie = 0 then s else s.countWrap Reg.ECC_CNT_ODE Fld.ECC_CNT_ODE_ON_DIE onDie
  if hbmSize < q.addr + q.len then s.unmapped q.who q.addr (if q.write then .write else .read)
  else
    let s := (us.filter fun u => isHbm u.addr).foldl State.upset s
    if q.write then
      let (st, s) := s.writeLocalBe (q.data.length / 4096 + 2) q.who s.node q.addr q.be q.data q.poison
      s.emit (.bus q.who q.addr st [])
    else
      let (st, bs, s) := s.readLocal q.who q.addr q.len
      s.emit (.bus q.who q.addr st bs)

-- Scrubbing --------------------------------------------------------------------------------------------------------

/-- Is patrol scrubbing on at this moment: inside the scrub slot, with no switch in progress (R93, R498)? -/
def State.scrubOpen (s : State) : Bool :=
  s.flag Reg.ECC_SCRUB Fld.ECC_SCRUB_ENABLE && s.sw.phase == .none && (match s.turnNow with
    | none => false
    | some n => decide ((s.scrubSlot n).1 ≤ (s.now : Int)) && decide ((s.now : Int) < (s.scrubSlot n).2))

/-- Scrub one stored word or sector (R499): corrected in place, written poisoned, or left poisoned. -/
def State.scrubWord (s : State) (k : Nat) : State :=
  let (st, s) := s.checkWord k 1
  if st = Code.uncorrectable then s.poisonWord k else s

/-- Scrub the stored words of a range. -/
def State.scrubRange (s : State) (a n : Nat) : State :=
  ((s.marks.filter fun e => decide (a ≤ e.1) && decide (e.1 < a + n)).map fun e => e.1).foldl State.scrubWord s

/-- Scrub a word of storage outside the local map, with `n` of its bits in error (R494 classes 3 and 4, R499). -/
def State.scrubOther (s : State) (cls unit : Nat) (u : Upset) : State :=
  let n := u.bits.length
  if n = 0 then s
  else
    let (v, s) := s.takeFree .logAddress
    let a := v % 2 ^ 64
    if n ≤ 2 then
      let s := s.countWrap Reg.ECC_CNT_SRAM Fld.ECC_CNT_SRAM_CORRECTED 1
      (s.logEntry a unit (n - 1) 1 (if n = 1 then u.bits.head? else none)).eccEvent cls unit 0 false a
    else
      let s := s.countWrap Reg.ECC_CNT_SRAM Fld.ECC_CNT_SRAM_UNCORR 1
      let s := s.logEntry a unit 3 1 none
      let (d, s) := s.uncorrectableDetail 0 1
      (s.fault unit Code.uncorrectable none d).eccEvent cls unit 0 true a

/-- Lines or sectors a scrubber has visited, by range (0 Reservoir, 1 scratchpads, 2 HBM, 3 Headgate, 4 ports) and place. -/
def State.scrubbed (s : State) (range place : Nat) : Nat := tblGetD (range * 64 + place) 0 s.ecc.scrubPos

def State.noteScrub (s : State) (range place : Nat) : State :=
  { s with ecc := { s.ecc with scrubPos := tblSet (range * 64 + place) (s.scrubbed range place + 1) s.ecc.scrubPos } }

/-- The least of some numbers, 0 for none. -/
def leastOf : List Nat → Nat
  | [] => 0
  | [x] => x
  | x :: xs => min x (leastOf xs)

/-- Full passes of a range: every one of its places has been visited that many times over (R498, R509). -/
def State.passes (s : State) (range size : Nat) (places : List Nat) : Nat :=
  leastOf (places.map fun p => s.scrubbed range p / size)

/-- Store the pass counters (R509). -/
def State.countPasses (s : State) : State :=
  let cl := (List.range 32).filter s.clusterPresent
  let s := s.setFld Reg.ECC_SCRUB_PASS Fld.ECC_SCRUB_PASS_RSV_PASSES (s.passes 0 (2 ^ 20) (List.range 4))
  let s := s.setFld Reg.ECC_SCRUB_PASS Fld.ECC_SCRUB_PASS_SP_PASSES (s.passes 1 (2 ^ 16) cl)
  let s := s.setFld Reg.ECC_SCRUB_PASS Fld.ECC_SCRUB_PASS_HBM_PASSES (s.passes 2 (48 * 2 ^ 25) (List.range 8))
  s.setFld Reg.ECC_SCRUB_PASS Fld.ECC_SCRUB_PASS_OTHER_PASSES
    (min (s.passes 3 (2 ^ 16) (List.range 2)) (s.passes 4 (Config.portBufferLines + 1) (List.range 4)))

/-- The local HBM address of a byte of a stack (R36). -/
def stackAddr (stack off : Nat) : Nat := off / 4096 * 2 ^ 15 + stack * 4096 + off % 4096

/-- SCRUB_READ: a patrol scrubber visits a line or a sector (R498, R499); the upsets that have struck it come with the visit. -/
def State.scrubRead (s : State) (t : ScrubTarget) (us : List Upset) : State :=
  if !s.scrubOpen then s
  else
    let visit (s : State) (range place a n : Nat) : State :=
      let s := (us.filter fun u => decide (a ≤ u.addr) && decide (u.addr < a + n)).foldl State.upset s
      ((s.scrubRange a n).noteScrub range place).countPasses
    match t with
    | .rsvLine d l => visit s 0 (d % 4) (rsvBase + d % 4 * 2 ^ 32 + l % 2 ^ 20 * 256) 256
    | .spLine n l => if s.clusterPresent n then visit s 1 n (scratchBase + n * 2 ^ 24 + l % 2 ^ 16 * 256) 256 else s
    | .hbmSector k i =>
      if s.fld Reg.ECC_SCRUB Fld.ECC_SCRUB_HBM_GBPS = 0 then s
      else visit s 2 (k % 8) (stackAddr (k % 8) (i % (48 * 2 ^ 25) * 32)) 32
    | .headgate d _ => ((us.foldl (fun s u => s.scrubOther 3 (0x2020 + d % 2 * 0x100) u) s).noteScrub 3 (d % 2)).countPasses
    | .portBuf d _ => ((us.foldl (fun s u => s.scrubOther 4 (stageUnit (d % 4)) u) s).noteScrub 4 (d % 4)).countPasses

-- Heartbeat, recovery, retirement ----------------------------------------------------------------------------------

/-- HEARTBEAT: PERIOD_US has passed and the hardware writes count and time to companion memory (R507). -/
def State.heartbeat (s : State) : State :=
  if s.flag Reg.ECC_HB_CTRL Fld.ECC_HB_CTRL_ENABLE then
    s.companionWrite hostWriter (s.reg Reg.ECC_HB_ADDR) (leBytes 8 (s.reg Reg.ECC_HB_COUNT) ++ leBytes 8 s.stamp)
  else s

/-- WM_RECOVER: a write of ECC_WM_RECOVER (R508). GO stops every job at its next tile boundary, fails every known job and resets the
Watermaster cores; `image` is what the companion holds at the image's address when the ROM copies it again. -/
def State.wmRecover (s : State) (src : Source) (v : Nat) (image : List Byte) : State :=
  if !WriteSource.travo.accepts src then s.setupLocked Reg.ECC_WM_RECOVER
  else if !bitAt v 0 then s
  else
    let s := s.knownJobs.foldl State.failJob s
    let s := s.stopIssue
    { s with ecc := { s.ecc with kill := true, recover := true }, boot := { s.boot with image := image } }

/-- RETIRE_CLUSTER: a write of ECC_RETIRE_CL asks for retirement of the clusters whose bits it sets (R505, R506, R509). -/
def State.retireWrite (s : State) (v : Nat) : State :=
  (List.range 32).foldl (fun s n => if bitAt v n && !bitAt (s.reg Reg.ECC_RETIRE_CL) n then s.requestRetire n else s) s

/-- ECC_RSV_RETIRE_d: granules are retired until reset (R503); Travo Link is refused (R509). -/
def State.rsvRetireWrite (s : State) (src : Source) (d w v : Nat) : State :=
  let a := Reg.ECC_RSV_RETIRE (d % 4) (w % 1024)
  if !WriteSource.wmMgmt.accepts src then s.setupLocked a else s.setReg a (s.reg a ||| v % 2 ^ 64)

end Sys2Proof.Machine
end

