-- ==== Sys2Proof/Machine/Boot.lean ====
section
/-! DEFINITION. Boot: the board descriptor and its checks, repairs, kept state, the image steps, recovery, the fused minimum SVN, and the
device reset (R497, R501, R502, R511 to R519, R545, R547). -/

namespace Sys2Proof.Machine

-- The board descriptor ---------------------------------------------------------------------------------------------

/-- The PORT_n word of the descriptor (R512). -/
def portWord (d : List Byte) (n : Nat) : Nat := fieldAt d (128 + 8 * n) 8

/-- Is the descriptor well formed: MAGIC, VERSION, CRC, and reserved fields zero (R512, R513 check 0x03)? -/
def descOk (d : List Byte) : Bool :=
  d.length == 1024 && fieldAt d 0 4 == 0x54444B47 && fieldAt d 4 2 == 1 && fieldAt d 1020 4 == crc32c (d.take 1020) &&
  fieldAt d 10 1 / 4 == 0 && fieldAt d 11 1 == 0 && fieldAt d 14 2 == 0 && fieldAt d 56 8 == 0 && fieldAt d 256 764 == 0 &&
  (List.range 16).all fun n => bitsOf (portWord d n) 13 3 == 0 && bitsOf (portWord d n) 37 27 == 0

/-- Is the port map consistent (R513 check 0x06)? -/
def portMapOk (d : List Byte) : Bool :=
  (List.range 16).all fun n =>
    let w := portWord d n
    let role := bitsOf w 5 3
    let mode := bitsOf w 1 2
    mode != 3 && bitsOf w 3 2 != 3 && decide (role < 4) && bitsOf w 11 2 != 3 &&
    (role != 1 || (decide (n < 12) && bitsOf w 8 3 == n / 2)) && (role != 3 || decide (12 ≤ n)) &&
    (mode != 2 || (n % 2 == 0 && !bitAt (portWord d (n + 1)) 0)) &&
    (!(bitAt w 0 && (role == 1 || role == 2)) || bitAt w 36)

/-- Is the time source present (R513 check 0x07)? -/
def timeSourceOk (d : List Byte) (pps : Bool) : Bool :=
  match fieldAt d 10 1 % 4 with
  | 0 => (List.range 16).any fun n => bitAt (portWord d n) 0 && bitsOf (portWord d n) 11 2 == 1
  | 1 => pps
  | _ => true

/-- The first check that fails, by CODE (R513); none when all up to 0x09 pass. -/
def State.bootCode (s : State) (b : BootInput) : Option Nat :=
  let dies := b.compute % 256 == 255 && b.reservoir % 16 == 15 && b.headgate % 4 == 3 && b.ports % 16 == 15 && b.control && b.link
  if !dies then some 1
  else if !b.descRead then some 2
  else if !descOk b.desc then some 3
  else if fieldAt b.desc 6 2 != s.fuses.part then some 4
  else if sliceOf b.desc 96 32 != b.regId then some 5
  else if !portMapOk b.desc then some 6
  else if !timeSourceOk b.desc b.pps then some 7
  else if b.open_ % 2 ^ 11 != 0 || b.shorted % 2 ^ 11 != 0 then some 8
  else if b.hbm % 256 != 255 then some 9
  else none

/-- The registers that take their values from the descriptor (R512). -/
def State.loadDescriptor (s : State) (d : List Byte) : State :=
  let s := s.setFld Reg.FWD_IDENT Fld.FWD_IDENT_NODE (fieldAt d 8 2)
  let s := s.setFld Reg.FT_CTRL Fld.FT_CTRL_SRC (fieldAt d 10 1 % 4)
  let s := s.setFld Reg.TL_CTRL Fld.TL_CTRL_WIN_GIB (min (fieldAt d 12 2) 4096)
  let s := s.setFld Reg.SEC_MGMT_BOX Fld.SEC_MGMT_BOX_BASE (fieldAt d 48 8)
  let s := s.setReg256 (Reg.SEC_MGR_HASH 0) (sliceOf d 64 32)
  (List.range 16).foldl (fun s n =>
    let w := portWord d n
    let s := s.setReg (Reg.FP_CFG n) (putBits (s.reg (Reg.FP_CFG n)) 0 13 (w % 2 ^ 13))
    s.setReg (Reg.FP_EXPECT n) (bitsOf w 16 16 + bitsOf w 32 4 * 2 ^ 16 + bitsOf w 36 1 * 2 ^ 20)) s

/-- Is a soft-repair entry skipped (R502): a reserved KIND, or no spare left? -/
def repairSkipped (e : Nat × Bool) : Bool := !e.2 || e.1 % 16 = 0 || decide (3 < e.1 % 16)

/-- The set-up offsets of the ECC_ counters that boot re-applies (R497, R509). -/
def keptCounters : List Nat :=
  [Reg.ECC_SCRUB_PASS, Reg.ECC_VOTE, Reg.ECC_CNT_SRAM, Reg.ECC_CNT_HBM, Reg.ECC_CNT_ODE, Reg.ECC_CNT_MISC]

/-- Kept counters and unit states are re-applied (R497, R514). -/
def State.reapply (s : State) (b : BootInput) : State :=
  let s := (b.kept.filter fun e => keptCounters.contains e.1).foldl (fun s e => s.setReg e.1 (e.2 % 2 ^ 64)) s
  b.units.foldl (fun s u => s.setBucket (bucketKey u.cls u.unit u.lane) ⟨u.level % 2 ^ 24, u.lasting, u.events⟩) s

/-- The identity seeds (R520). -/
def identitySeeds (secret : Nat) : List Byte :=
  let part (c : Nat) : List Byte := hmac256 (beBytes 32 secret) ([0x47, 0x4E, 0x42, 0x2D, 0x49, 0x44] ++ [BitVec.ofNat 8 c])
  (part 1 ++ part 2).take 48

/-- Is the identity key derived: in PRODUCTION only (R520)? -/
def State.production (s : State) : Bool := s.fuses.lifecycle == 1

/-- The firmware has started: the clocks leave the safe clock, and enabled ports begin to come up (R511, R514). -/
def State.firmwareStarts (s : State) : State :=
  let s := s.setFld Reg.PWR_STATUS Fld.PWR_STATUS_STEP 0
  let s := s.setFld (Reg.PWR_RAIL 0) Fld.PWR_RAIL_SET_MV (nthD s.fuses.stepMv 0 720)
  (List.range 16).foldl (fun s p =>
    if s.leadPort p == p && s.flag (Reg.FP_CFG p) Fld.FP_CFG_ENABLE && s.portStage p == 0 && s.portRole p != 0 then s.enterPort p 1
    else s) s

/-- RESET_RELEASE: RESET_N has risen and the boot ROM runs (R511 to R517, R520). -/
def State.resetRelease (s : State) (b : BootInput) : State :=
  if s.pwr.trip || s.reg Reg.SEC_BOOT_STATUS != 0 then s
  else
    let s : State := { s with pwr := { s.pwr with resetLow := false, rose := s.clock.elapsedNs } }
    let s := s.setReg Reg.TOP_DIE_STATUS (b.compute % 256 + b.reservoir % 16 * 2 ^ 8 + b.headgate % 4 * 2 ^ 12 + b.ports % 16 * 2 ^ 14 +
      b2n b.control * 2 ^ 18 + b2n b.link * 2 ^ 19 + b.hbm % 256 * 2 ^ 20)
    let s := if b.link && b.lanes != 0 then
        (s.setFlag Reg.TL_STATUS Fld.TL_STATUS_UP true).setFld Reg.TL_STATUS Fld.TL_STATUS_LANES b.lanes
      else s
    let s := s.setReg Reg.PWR_SENSE (b.open_ % 2 ^ 11 + b.shorted % 2 ^ 11 * 2 ^ 11)
    let s := s.setFld Reg.SEC_BOOT_STATUS Fld.SEC_BOOT_STATUS_PHASE 1
    match s.bootCode b with
    | some c => s.setFld Reg.SEC_BOOT_STATUS Fld.SEC_BOOT_STATUS_CODE c
    | none =>
      let s := s.setFld Reg.SEC_BOOT_STATUS Fld.SEC_BOOT_STATUS_PHASE 2
      let s := s.loadDescriptor b.desc
      let s : State := { s with mem := [], marks := [] }
      let s := (s.reapply b).countSat Reg.ECC_CNT_MISC Fld.ECC_CNT_MISC_REPAIR_SKIPPED (b.repairs.filter repairSkipped).length
      let list := (b.repairs.map fun e => leBytes 8 e.1).flatten
      let s : State := { s with boot := { s.boot with
        imageAddr := fieldAt b.desc 16 8, imageLen := fieldAt b.desc 24 4, program := b.program,
        early := [(0, beBytes 32 s.fuses.romDigest), (0, sha256 b.desc), (1, sha256 list)] } }
      let s := if s.production then s.setReg256 (Reg.SEC_ID_PUB 0) (Config.slhPublic (identitySeeds s.fuses.secret)) else s
      let (ok, s) := s.imageSteps b.image s.boot.imageLen
      if ok then s.firmwareStarts else s

/-- RECOVERY_GO: a write of SEC_RECOVERY_CTRL from Travo Link (R518). GO repeats the image steps on the image the companion has placed. -/
def State.recoveryGo (s : State) (src : Source) (v : Nat) (image program : List Byte) : State :=
  if !WriteSource.travo.accepts src then s.setupLocked Reg.SEC_RECOVERY_CTRL
  else
    let s := s.setFld Reg.SEC_RECOVERY_CTRL Fld.SEC_RECOVERY_CTRL_LEN (v % 2 ^ 32)
    if !bitAt v 32 || s.phase != 3 then s
    else
      let s : State := { s with boot := { s.boot with
        imageAddr := s.reg Reg.SEC_RECOVERY_ADDR - companionBase, imageLen := v % 2 ^ 32, program := program } }
      let again := s.ecc.recover
      let (ok, s) := s.imageSteps image (v % 2 ^ 32)
      if !ok then s else if again then s.recovered else s.firmwareStarts

/-- SEC_SVN_BURN: the management channel raises the fused minimum, never above the running image's SVN (R519). -/
def State.svnBurn (s : State) (src : Source) (v : Nat) : State :=
  if !WriteSource.mgmt.accepts src then s.setupLocked Reg.SEC_SVN_BURN
  else
    let n := v % 2 ^ 32
    if s.fuses.minSvn < n && decide (n ≤ s.fld Reg.SEC_SVN Fld.SEC_SVN_IMAGE) then
      let t : State := { s with fuses := { s.fuses with minSvn := n } }
      t.setFld Reg.SEC_SVN Fld.SEC_SVN_MIN n
    else s

/-- POWER_RESET: PWRGOOD or RESET_N has fallen (R547): nothing is kept but the fuses. A trip stays until the rails are removed (R545). -/
def State.powerReset (s : State) (railsRemoved : Bool) : State :=
  let t := State.atReset s.fuses
  { t with pwr := { t.pwr with resetLow := true, trip := s.pwr.trip && !railsRemoved, smbAddr := s.pwr.smbAddr },
           out := s.out, free := s.free, pending := s.pending }

end Sys2Proof.Machine
end

