-- ==== Sys2Proof/Machine/Power.lean ====
section
/-! DEFINITION. Power: the governor and its clock steps, safe hold, sense checks, AVSBus errors, temperature and trip, the SMBus sideband,
and time with its clock changes (R536 to R552). -/

namespace Sys2Proof.Machine

-- Clock steps ------------------------------------------------------------------------------------------------------

def State.stepMv (s : State) (step : Nat) : Nat := nthD s.fuses.stepMv step 720
def State.setMv (s : State) (mv : Nat) : State := s.setFld (Reg.PWR_RAIL 0) Fld.PWR_RAIL_SET_MV mv
def State.setClock (s : State) (n : Nat) : State := s.setFld Reg.PWR_STATUS Fld.PWR_STATUS_STEP n
def State.tjMax (s : State) : Nat := s.fld Reg.PWR_STATUS Fld.PWR_STATUS_TJ_MAX

/-- Report a step down under one cause (R544): the record at most once per cause and counter window, the counts, and SMBALERT_N. -/
def State.clockStepped (s : State) (old new cause : Nat) : State :=
  let d := new + old * 2 ^ 4 + cause * 2 ^ 8 + s.tjMax * 2 ^ 12 + s.fld Reg.PWR_STATUS Fld.PWR_STATUS_TJ_DIE * 2 ^ 20
  let s := s.faultOncePerWindow (limitKey Code.clockStepped cause 0) 0x4014 Code.clockStepped none d
  let s := if cause = 1 || cause = 7 then s.countSat Reg.PWR_CNT Fld.PWR_CNT_THERMAL 1
           else if cause = 2 || cause = 3 then s.countSat Reg.PWR_CNT Fld.PWR_CNT_CAP 1 else s
  let s := s.setFld Reg.PWR_STATUS Fld.PWR_STATUS_CAUSE cause
  { s with pwr := { s.pwr with alert := true } }

/-- Step down to `new` under some causes (R542, R544): the clock changes first, then the lower voltage is written. A step up under way is
given up. -/
def State.stepDown (s : State) (new : Nat) (causes : List Nat) : State :=
  let old := s.clockStep
  let s : State := { s with pwr := { s.pwr with stepUp := none, clockAt := none } }
  let s := (s.setClock new).setMv (s.stepMv new)
  causes.foldl (fun s c => s.clockStepped old new c) s

/-- Enter safe hold (R540, R543): STEP 5 until reset. -/
def State.safeHold (s : State) (cause : Nat) : State :=
  let s := s.setFlag Reg.PWR_STATUS Fld.PWR_STATUS_SAFE_HOLD true
  if s.clockStep < 5 then s.stepDown 5 [cause] else s

/-- The cap in force, and whether the BMC set it (R543, R550). -/
def State.cap (s : State) : Nat × Bool :=
  let c := s.fld Reg.PWR_CTRL Fld.PWR_CTRL_CAP_W
  let b := s.fld Reg.PWR_CTRL Fld.PWR_CTRL_BMC_CAP_W
  (min c b, decide (b < c))

/-- How long a condition has held: since when it has, given whether it holds now. -/
def heldSince (was : Option Nat) (holds : Bool) (now : Nat) : Option Nat := if holds then some (was.getD now) else none

/-- Has a condition held for 10 ms? -/
def heldLong (since : Option Nat) (now : Nat) : Bool := match since with
  | some t => decide (t + 10000000 ≤ now)
  | none => false

/-- What the thermal and the power demand ask (R543): the lowest step each allows, from the present one. -/
def State.thermalDemand (s : State) : Nat :=
  let cur := s.clockStep
  if 105 ≤ s.tjMax then 5
  else if s.fld Reg.PWR_CTRL Fld.PWR_CTRL_STEP_C ≤ s.tjMax then min 5 (cur + 1)
  else if heldLong s.pwr.cool s.clock.elapsedNs then cur - 1 else cur
def State.powerDemand (s : State) (watts : Nat) : Nat :=
  let cur := s.clockStep
  if s.cap.1 < watts then min 5 (cur + 1) else if heldLong s.pwr.low s.clock.elapsedNs then cur - 1 else cur

/-- GOVERNOR_INTERVAL: 100 µs have passed; the governor reads both rails and chooses the highest step demanded (R537, R542, R543). -/
def State.governor (s : State) (mv0 a0 mv1 a1 watts : Nat) : State :=
  if s.phase < 4 then s
  else
    let rail (s : State) (n mv a : Nat) : State :=
      (s.setFld (Reg.PWR_RAIL n) Fld.PWR_RAIL_READ_MV mv).setFld (Reg.PWR_RAIL n) Fld.PWR_RAIL_AMPS a
    let s := rail (rail s 0 mv0 a0) 1 mv1 a1
    let s := s.setFld Reg.PWR_POWER Fld.PWR_POWER_WATTS watts
    let now := s.clock.elapsedNs
    let cool := decide (s.tjMax < s.fld Reg.PWR_CTRL Fld.PWR_CTRL_STEP_C - s.fld Reg.PWR_CTRL Fld.PWR_CTRL_HYST_C)
    let low := decide (watts * 100 < s.cap.1 * 95)
    let s : State := { s with pwr := { s.pwr with
      cool := heldSince s.pwr.cool cool now, low := heldSince s.pwr.low low now,
      avsFails := s.pwr.avsFails.filter fun e => e.1 % 4 = 0 } }
    let cur := s.clockStep
    let th := s.thermalDemand
    let po := s.powerDemand watts
    let new := max th po
    if s.flag Reg.PWR_STATUS Fld.PWR_STATUS_SAFE_HOLD then s
    else if cur < new && ((s.pwr.stepUp.isNone && s.pwr.clockAt.isNone) || 105 ≤ s.tjMax) then
      s.stepDown new ((if cur < th then [if 105 ≤ s.tjMax then 7 else 1] else []) ++
        (if cur < po then [if s.cap.2 then 3 else 2] else []))
    else if new < cur && s.pwr.stepUp.isNone && s.pwr.clockAt.isNone then
      let s := s.setMv (s.stepMv (cur - 1))
      { s with pwr := { s.pwr with stepUp := some (cur - 1), cool := none, low := none } }
    else s

/-- VOLTAGE_WRITE_DONE: the regulator has completed the higher voltage; the clock changes 20 µs later (R542). -/
def State.voltageDone (s : State) : State :=
  match s.pwr.stepUp with
  | none => s
  | some n =>
    { s with pwr := { s.pwr with stepUp := none, clockAt := some (s.clock.ticks + 25000, n),
                                 avsFails := s.pwr.avsFails.filter fun e => e.1 % 4 != 0 } }

/-- One run of engine-clock ticks: the records of the cycle that ends are written (R22), the time passes and the engine cycles in it
are charged (R72, R450). -/
def State.runTicks (s : State) (n : Nat) : State :=
  let cycles := (s.tick n).clock.cycles - s.clock.cycles
  let s := if cycles = 0 then s else s.writeFaults
  (s.chargeCycles cycles).tick n

/-- FT_TICK with the clock change of a step up that falls due inside it (R72, R542), and the engine time it charges (R450). -/
def State.ticks (s : State) (n : Nat) : State :=
  match s.pwr.clockAt with
  | some (due, step) =>
    let d := due - s.clock.ticks
    if d ≤ n then
      let t := (s.runTicks d).setClock step
      let u : State := { t with pwr := { t.pwr with clockAt := none } }
      u.runTicks (n - d)
    else s.runTicks n
  | none => s.runTicks n

/-- RAIL_FAULT: the regulator asserts its status alert (R537, R540). -/
def State.railFault (s : State) : State := s.safeHold 6

/-- SENSE_CHECK: 100 µs have passed; each pair's reading is compared with its rail monitor, in mV (R539). -/
def State.senseCheck (s : State) (readings : List (Nat × Nat)) : State :=
  (readings.take 11).zipIdx.foldl (fun s e =>
    let (sense, monitor) := e.1
    let pair := e.2
    let run := if 50 < absDiff sense monitor then tblGetD pair 0 s.pwr.sense + 1 else 0
    let s : State := { s with pwr := { s.pwr with sense := tblPut pair 0 run s.pwr.sense } }
    if run < 3 then s
    else
      let shorted := decide (sense * 5 < monitor)
      let bit := 2 ^ (if shorted then pair + 11 else pair)
      (s.setReg Reg.PWR_SENSE (s.reg Reg.PWR_SENSE ||| bit)).safeHold 5) s

/-- AVSBUS_ERROR: an AVSBus operation (0 Voltage write, 1 Voltage read, 2 Current read, 3 Status read) of a rail failed (R537). It is
retried up to three times; the fourth failure puts the device in safe hold, and a step up that waited for it is given up (R552). -/
def State.avsError (s : State) (rail op : Nat) : State :=
  let k := rail % 2 * 4 + op % 4
  let n := tblGetD k 0 s.pwr.avsFails + 1
  if n < 4 then
    let t : State := { s with pwr := { s.pwr with avsFails := tblPut k 0 n s.pwr.avsFails } }
    t.countSat Reg.PWR_CNT Fld.PWR_CNT_AVS_ERR 1
  else
    let t : State := { s with pwr := { s.pwr with avsFails := tblErase k s.pwr.avsFails,
                                                  stepUp := if op % 4 = 0 then none else s.pwr.stepUp } }
    t.safeHold 4

-- Temperature ------------------------------------------------------------------------------------------------------

/-- The hottest reading: die and degrees. -/
def hottest : List (Nat × Nat) → Nat × Nat
  | [] => (0, 0)
  | r :: rs => let h := hottest rs; if h.2 ≤ r.2 then r else h

/-- TEMP_REFRESH: 100 µs have passed and the junction sensors are read, as die (UNIT [15:8]) and °C (R545). At 115 °C the device
trips. -/
def State.tempRefresh (s : State) (readings : List (Nat × Nat)) : State :=
  if readings.isEmpty then s
  else
    let h := hottest readings
    let s := s.setFld Reg.PWR_STATUS Fld.PWR_STATUS_TJ_MAX (min h.2 255)
    let s := s.setFld Reg.PWR_STATUS Fld.PWR_STATUS_TJ_DIE (h.1 % 256)
    if h.2 < 115 then s
    else
      let s : State := { s with pwr := { s.pwr with trip := true } }
      (List.range 16).foldl (fun s p => ((s.dropHeld p).enterPort p 0).setLanes p 0) s

-- SMBus ------------------------------------------------------------------------------------------------------------

/-- One byte of the SMBus packet error code (CRC-8, polynomial 0x07; log entry 8). -/
def pecBits : Nat → Nat → Nat
  | 0, c => c
  | n + 1, c => pecBits n (if 128 ≤ c then (c * 2) % 256 ^^^ 0x07 else c * 2)
def pec (bs : List Nat) : Nat := bs.foldl (fun c b => pecBits 8 (c ^^^ b)) 0

/-- The 7-bit target address (R549). -/
def State.smbTarget (s : State) : Nat := 0x60 + s.pwr.smbAddr % 4

/-- Does the target serve: from 5 ms after RESET_N rose (R549)? -/
def State.smbServes (s : State) : Bool := !s.pwr.resetLow && decide (s.pwr.rose + 5000000 ≤ s.clock.elapsedNs)

/-- Answer a block read: byte count, data, PEC (R549). -/
def State.smbAnswer (s : State) (cmd : Nat) (data : List Byte) : State :=
  if s.smbServes then
    let a := s.smbTarget * 2
    let body := data.length :: data.map BitVec.toNat
    s.emit (.smbus ((body ++ [pec ([a, cmd, a + 1] ++ body)]).map (BitVec.ofNat 8)))
  else s.emit .smbusNack

def State.smbPart (s : State) : State :=
  s.smbAnswer 1 (leBytes 2 s.fuses.part ++ leBytes 1 (s.fuses.letter % 16 + s.fuses.digit % 16 * 16) ++ leBytes 2 s.node ++
    leBytes 1 s.fuses.lifecycle ++ leBytes 2 0)
def State.smbBoot (s : State) : State :=
  s.smbAnswer 2 (leBytes 1 (s.fld Reg.SEC_BOOT_STATUS Fld.SEC_BOOT_STATUS_CODE) ++ leBytes 1 s.phase ++ leBytes 2 0)
def State.smbThermal (s : State) : State :=
  s.smbAnswer 3 (leBytes 1 s.tjMax ++ leBytes 1 (s.fld Reg.PWR_STATUS Fld.PWR_STATUS_TJ_DIE) ++ leBytes 1 s.clockStep ++
    leBytes 1 (s.fld Reg.PWR_STATUS Fld.PWR_STATUS_CAUSE) ++ leBytes 2 (s.fld Reg.PWR_CNT Fld.PWR_CNT_THERMAL) ++ leBytes 2 0)
def State.smbPower (s : State) : State :=
  s.smbAnswer 4 (leBytes 2 (s.fld Reg.PWR_POWER Fld.PWR_POWER_WATTS) ++ leBytes 2 (s.fld (Reg.PWR_RAIL 0) Fld.PWR_RAIL_READ_MV) ++
    leBytes 2 (s.fld (Reg.PWR_RAIL 0) Fld.PWR_RAIL_AMPS) ++ leBytes 2 (s.fld (Reg.PWR_RAIL 1) Fld.PWR_RAIL_AMPS))
def State.smbFault (s : State) : State :=
  s.smbAnswer 5 (match s.flt.last with | some r => r.bytes | none => List.replicate 32 0)

/-- BMC_CAP_W_WRITE: command 0x10 (R549, R550); a wrong PEC is NACKed. -/
def State.bmcCapWrite (s : State) (v : Nat) (pecOk : Bool) : State :=
  if s.smbServes && pecOk then s.setFld Reg.PWR_CTRL Fld.PWR_CTRL_BMC_CAP_W v else s.emit .smbusNack

/-- ALERT_RESPONSE: the Alert Response Address read answers with the target's address and clears SMBALERT_N (R549). -/
def State.alertResponse (s : State) : State :=
  if s.smbServes && s.pwr.alert then
    let t : State := { s with pwr := { s.pwr with alert := false } }
    let a := s.smbTarget * 2
    t.emit (.smbus ([a, pec [0x19, a]].map (BitVec.ofNat 8)))
  else s.emit .smbusNack

end Sys2Proof.Machine
end

