-- ==== Sys2Proof/Machine/Setup.lean ====
section
/-! DEFINITION. Set-up space as a whole: what a write of each register does, whatever command brings it, and what a read returns
(R12 to R14, R32, R40, R214, R400, R412). -/

namespace Sys2Proof.Machine

-- Instances --------------------------------------------------------------------------------------------------------

/-- The instance of a block with stride `2 ^ 16` that a set-up offset lies in. -/
def setupInstance (a : Nat) : Nat := a / 0x10000 % 0x100

/-- The COL_ registers held once and shown in instance 0 (R400). -/
def colShared (o : Nat) : Bool := decide (o < 0x30) || (decide (0x40 ≤ o) && decide (o < 0x80)) || decide (0x1000 ≤ o)

/-- Does a set-up offset lie in the instance block of a cluster that is absent or retired (R14, R40)? -/
def State.absentInstance (s : State) (a : Nat) : Bool :=
  let block := a / 0x1000000
  let n := setupInstance a
  (block == 4 || block == 5 || (block == 9 && !(n == 0 && colShared (a % 0x10000)))) && !s.clusterPresent n

/-- The set-up offset at which a control core's access to its own cluster's instances lands (R214, R400); none where the address is
unmapped to it. -/
def coreSetup (n a : Nat) : Option Nat :=
  let block := a / 0x1000000
  if (block == 4 || block == 5 || block == 9) && setupInstance a == n then
    some (if block == 9 && colShared (a % 0x10000) then 0x9000000 + a % 0x10000 else a)
  else none

-- Management refusals and the fingerprint --------------------------------------------------------------------------

/-- Write MGMT_REFUSED, at most one of a kind in a counter window; the others are counted (R527). -/
def State.mgmtRefused (s : State) (kind node : Nat) : State :=
  let key := limitKey Code.mgmtRefused kind 0
  if s.flt.limits.contains key then s.countWrap Reg.SEC_CNT_MGMT Fld.SEC_CNT_MGMT_REJECTED 1
  else s.faultOncePerWindow key 0x4000 Code.mgmtRefused none (kind + node % 2 ^ 16 * 2 ^ 4)

/-- The words the fabric set-up fingerprint covers, in ascending set-up address (R528). -/
def fingerprintWords : List Nat :=
  [Reg.FWD_IDENT] ++ (List.range 256).map Reg.FWD_POS_IF ++ (List.range 256).map Reg.FWD_RACK_IF ++
  ((List.range 256).map fun r => [Reg.FWD_PREFIX0 r, Reg.FWD_PREFIX1 r]).flatten ++
  [Reg.JT_RACKWIN, Reg.JT_EXPORT, Reg.JT_EXPORT_SIZE, Reg.JT_MGMT_WIN] ++ (List.range 128).map Reg.JT_MEMBER ++
  ((List.range 256).map fun w => [Reg.JT_WIN0 w, Reg.JT_WIN1 w, Reg.JT_WIN2 w, Reg.JT_WIN2 w + 8]).flatten

/-- A write to a word of the fingerprint clears SEC_FP_CTRL.VALID (R528). -/
def State.touchFingerprint (s : State) (a : Nat) : State :=
  if fingerprintWords.contains a then s.setFlag Reg.SEC_FP_CTRL Fld.SEC_FP_CTRL_VALID false else s

-- Registers whose write does more than store -----------------------------------------------------------------------

/-- FWD_IDENT: a partition tag changes only through zero; a write that changes it otherwise leaves PTAG and applies NODE (R13, R526). -/
def State.identWrite (s : State) (v : Nat) : State :=
  let old := s.fld Reg.FWD_IDENT Fld.FWD_IDENT_PTAG
  let new := bitsOf v 16 16
  if old != 0 && new != 0 && old != new then
    (s.mgmtRefused 3 ((s.mg.session.map MgSession.node).getD 0)).writePlain Reg.FWD_IDENT (putBits v 16 16 old)
  else s.writePlain Reg.FWD_IDENT v

/-- FWD_FLIP: the write that sets ARMED arms the flip (R89, R314). -/
def State.fwdFlipWrite (s : State) (v : Nat) : State :=
  let s := s.setReg Reg.FWD_FLIP v
  if bitAt v 63 then { s with tb := { s.tb with fwdArmed := s.armTime } } else s

/-- FT_CTRL: the field-by-field write, and what a change of SRC does (R79). -/
def State.ftCtrlWrite (s : State) (v : Nat) : State :=
  let old := s.ftSrc
  let s := s.writePlain Reg.FT_CTRL v
  s.sourceChanged old s.ftSrc

/-- CL_CTRL: the whole register, and what its CANON does (R237, R468). -/
def State.clCtrlWrite (s : State) (n v : Nat) : State := (s.writePlain (Reg.CL_CTRL n) v).canonWrite n v

/-- CL_BUF_CMD (R218, R253); action 3 is reserved. -/
def State.bufCommand (s : State) (n v : Nat) : State :=
  match bitsOf v 8 2 with
  | 0 => s.fillBegin n (bitsOf v 0 8)
  | 1 => s.fillEnd n (bitsOf v 0 8)
  | 2 => s.freeBuf n (bitsOf v 0 8)
  | _ => s

/-- TOP_SETUP_LOCK: once set, the lock stays set until reset (R13, R47). -/
def State.lockWrite (s : State) (v : Nat) : State :=
  let t : State := { s with lock := s.lock || bitAt v 0 }
  t.setFlag Reg.TOP_SETUP_LOCK Fld.TOP_SETUP_LOCK_LOCK t.lock

/-- The requester that a set-up source is where a register distinguishes cores (R230, R379). -/
def Source.requester : Source → Requester
  | .travo => .link
  | .wm k => .wm k
  | .mgmt => .wm 0
  | .core n k => .core n k

/-- A word written into COL_LAUNCH launches whatever operation its first word names (R374, R379). -/
def State.launchWord (s : State) (src : Source) (off v : Nat) : State :=
  let who := Source.requester src
  let op := match s.launchKey who with
    | some key => bitsOf (nthD (tblGetD key (List.replicate 8 0) s.col.latches) 0 0) 0 8
    | none => 0
  s.colWrite op who off [v]

/-- A word written into a push window of cluster `n` by one of its cores: tile, DMA, vector and Flume windows (R230, R246, R253, R273).
The windows latch for each core, so a write from elsewhere meets no latch. -/
def State.pushWrite (s : State) (src : Source) (n : Nat) (flume : Bool) (o v : Nat) : State :=
  match src with
  | .core m k =>
    if m != n then s
    else if flume then s.flmPush n k (o - 0x40) [v]
    else if o < 0x80 then s.tilePush n k (o - 0x40) [v]
    else if o < 0xA0 then s.dmaPush n 0 k (o - 0x80) [v]
    else if o < 0xC0 then s.dmaPush n 1 k (o - 0xA0) [v]
    else s.vecPush n k (o - 0xC0) [v]
  | _ => s

/-- JT_CTRL: RET_GUARD is held to 1 to T_DEAD − 1 beside its own limits (R359, R371). -/
def State.jtCtrlWrite (s : State) (v : Nat) : State :=
  let s := s.writePlain Reg.JT_CTRL v
  s.setFld Reg.JT_CTRL Fld.JT_CTRL_RET_GUARD
    (max 1 (min (s.fld Reg.JT_CTRL Fld.JT_CTRL_RET_GUARD) (s.fld Reg.JT_CTRL Fld.JT_CTRL_T_DEAD - 1)))

/-- The write of one register of each block beyond its stored fields, by block and offset in it; `image` and `program` are what the
boot ROM finds when the write makes it read (R508, R518). -/
def State.writeBlock (s : State) (src : Source) (a v : Nat) (image program : List Byte) : State :=
  let o := a % 0x1000000
  let n := setupInstance a
  let p := a % 0x10000
  match a / 0x1000000 with
  | 0 => if a = Reg.TOP_SETUP_LOCK then s.lockWrite v else s.writePlain a v
  | 1 => if 0x1000 ≤ o && o < 0x1800 then (s.regionWrite ((o - 0x1000) / 8) v).startHeld else s.writePlain a v
  | 2 =>
    let c := (o - 0x100000) / 32
    if o % 32 = 0 then s.chanWrite c v else if o % 32 = 0x18 then s.resetChannel c v else s.writePlain a v
  | 3 =>
    if 0x40000 ≤ o && o < 0x80000 then s.layerWrite ((o - 0x40000) / 64) (o % 64 / 8) v
    else if 0x10000 ≤ o && o < 0x18000 then s.zoneWrite ((o - 0x10000) / 32) (o % 32 / 8) v
    else if a = Reg.HG_PLACE_CTRL then s.placeCtrlWrite v
    else if a = Reg.HG_PLACE_FLIP then s.placeFlipWrite v
    else s.writePlain a v
  | 4 =>
    if p = 0 then s.clCtrlWrite n v
    else if p = 8 then s.coreRunWrite src n v
    else if p = 0x1800 then s.bufCommand n v
    else if 0x1000 ≤ p && p < 0x1800 then s.bufWrite n ((p - 0x1000) / 8) v
    else if 0x600 ≤ p && p < 0x700 && p % 64 = 0x18 then s.atomCtrl n ((p - 0x600) / 64) v
    else s.writePlain a v
  | 6 => if p = 0 then s.portEnable n v else s.writePlain a v
  | 7 => if a = Reg.FWD_IDENT then s.identWrite v else if a = Reg.FWD_FLIP then s.fwdFlipWrite v else s.writePlain a v
  | 8 => if a = Reg.JT_CTRL then s.jtCtrlWrite v else s.writePlain a v
  | 9 => if p = 0x80 then s.colFinish n v else if p = 0x88 then s.colFinishRes n v else s.writePlain a v
  | 10 => if 0x100000 ≤ o && o < 0x180000 then s.ringWrite ((o - 0x100000) / 32) (o % 32 / 8) v else s.writePlain a v
  | 11 =>
    if a = Reg.WM_PLAN_FLIP then s.planFlipWrite v
    else if 0x10000 ≤ o && o < 0x11000 && o % 16 = 0 then s.jobWrite ((o - 0x10000) / 16) v
    else if 0x30000 ≤ o && o < 0x30800 then s.reproWrite src ((o - 0x30000) / 8) v
    else s.writePlain a v
  | 12 =>
    if a = Reg.FT_CTRL then s.ftCtrlWrite v
    else if a = Reg.FT_TURN_ORIGIN then s.writeTurnOrigin v
    else if a = Reg.FT_TURN_LEN then s.writeTurnLen v
    else if a = Reg.FT_TURN_CHANGE then s.writeTurnChange v
    else if a = Reg.FT_EPOCH_TAI then s.writeEpoch v
    else s.writePlain a v
  | 13 =>
    if a = Reg.ECC_WM_RECOVER then s.wmRecover src v image
    else if a = Reg.ECC_RETIRE_CL then s.retireWrite v
    else if 0x10000 ≤ o then s.rsvRetireWrite src ((o - 0x10000) / 0x2000) (o % 0x2000 / 8) v
    else s.writePlain a v
  | 14 =>
    if a = Reg.SEC_SVN_BURN then s.svnBurn src v
    else if a = Reg.SEC_RECOVERY_CTRL then s.recoveryGo src v image program
    else s.writePlain a v
  | _ => s.writePlain a v

/-- Is a source a control core? -/
def isCore : Source → Bool
  | .core _ _ => true
  | _ => false

/-- The push and launch windows and the Sluice ports of the cores: they have no register of their own (R230, R246, R253, R255, R273,
R379). -/
def State.windowWrite (s : State) (src : Source) (a v : Nat) : State :=
  let n := setupInstance a
  let p := a % 0x10000
  match a / 0x1000000 with
  | 4 =>
    if 0x40 ≤ p && p < 0xE0 then s.pushWrite src n false p v
    else if 0x200 ≤ p && p < 0x600 && isCore src then s.slcPortWrite n ((p - 0x200) / 0x100) (p % 0x100) v
    else s
  | 5 => if 0x40 ≤ p && p < 0x60 then s.pushWrite src n true p v else s
  | 9 => if 0x40 ≤ p && p < 0x80 then s.launchWord src (p - 0x40) v else s
  | _ => s

/-- A write that has arrived at the set-up interface, or in a core's own cluster, at a set-up offset (R12 to R14): an absent instance
and an unassigned address ignore it; a source the register does not accept is refused whole with SETUP_LOCKED. -/
def State.writeOffset (s : State) (src : Source) (a v : Nat) (image program : List Byte) : State :=
  if s.absentInstance a then s
  else match regDescAt a with
    | none => s.windowWrite src a v
    | some d =>
      if !d.src.accepts src then s.setupLocked a
      else (s.writeBlock src a (v % 2 ^ 64) image program).touchFingerprint a

/-- The window of set-up space in the local map (R35). -/
def inSetup (addr : Nat) : Bool := decide (setupBase ≤ addr) && decide (addr < setupBase + 0x10000000)

/-- May Travo Link write this register in the safe state (R511)? -/
def recoveryRegister (a : Nat) : Bool := a == Reg.SEC_RECOVERY_ADDR || a == Reg.SEC_RECOVERY_CTRL

/-- A set-up write at a local address, from any source (R13, R32, R214): a core reaches only its own cluster's instances, and in the
safe state Travo Link writes only the registers of recovery. -/
def State.setupWriteAt (s : State) (src : Source) (addr v : Nat) (image program : List Byte) : State :=
  let a := addr - setupBase
  let who := Source.requester src
  if !inSetup addr then s.unmapped who addr .write
  else match src with
    | .core n _ =>
      match coreSetup n a with
      | some b => s.writeOffset src b v image program
      | none => s.unmapped who addr .write
    | .travo => if s.safeState && !recoveryRegister a then s else s.writeOffset src a v image program
    | _ => s.writeOffset src a v image program

-- Reads ------------------------------------------------------------------------------------------------------------

/-- A stored word with its write-only fields read as zero (R12). -/
def readMask (d : RegDesc) (v : Nat) : Nat :=
  d.fields.foldl (fun v f => if f.acc == .wo then putBits v f.lo f.w 0 else v) v

/-- ECC_UNIT_STATE: the bucket of the unit ECC_UNIT_SEL names; a lane bucket for a port (R492, R494, R509). -/
def State.unitState (s : State) : Nat :=
  let u := s.fld Reg.ECC_UNIT_SEL Fld.ECC_UNIT_SEL_UNIT
  let lane := s.fld Reg.ECC_UNIT_SEL Fld.ECC_UNIT_SEL_LANE
  let port := u / 0x1000 == 3 && u % 0x100 < 4
  match s.ecc.buckets.find? fun e => e.1 / 4 % 65536 == u && (if port then e.1 / 4 / 65536 == 7 && e.1 % 4 == lane else true) with
  | some e => min e.2.level (2 ^ 24 - 1) + b2n e.2.lasting * 2 ^ 24 + e.2.events % 2 ^ 32 * 2 ^ 32
  | none => 0

/-- SEALED of 64 regions (R110). -/
def State.sealedWord (s : State) (i : Nat) : Nat :=
  sumNats ((List.range 64).map fun b => if (s.sealedLayer (64 * i + b)).isSome then 2 ^ b else 0)

/-- The word at a set-up offset as a read returns it: hidden state where a field shows it, the stored word elsewhere. -/
def State.readWordAt (s : State) (a : Nat) : Nat :=
  let o := a % 0x1000000
  match a / 0x1000000 with
  | 0 => if a = Reg.TOP_CLUSTER_MAP then s.present.toNat else if a = Reg.TOP_SETUP_LOCK then b2n s.lock else s.reg a
  | 1 =>
    if 0x2000 ≤ o && o < 0x2020 then s.sealedWord ((o - 0x2000) / 8)
    else if a = Reg.RSV_VARVE_LOST then putBits (s.reg a) 32 9 s.rsv.buffer.length
    else s.reg a
  | 2 =>
    let c := (o - 0x100000) / 32
    if o % 32 = 8 then s.chanWord1 c else if o % 32 = 0x10 then s.chanWord2 c else s.reg a
  | 3 => if a = Reg.HG_PLACE_CTRL then putBits (s.reg a) 37 1 (b2n s.placeBusy) else s.reg a
  | 4 => if a % 0x10000 = 0x2000 then s.reg a + s.arrayBusy (setupInstance a) else s.reg a
  | 5 => if a % 0x10000 = 0x128 then s.reg a + s.flumeBusy (setupInstance a) else s.reg a
  | 10 => if 0x100000 ≤ o && o < 0x180000 && o % 32 = 0x18 then s.ringState ((o - 0x100000) / 32) else s.reg a
  | 11 => if 0x10000 ≤ o && o < 0x11000 && o % 16 = 0 then s.jobWord ((o - 0x10000) / 16) else s.reg a
  | 12 =>
    if a = Reg.FT_STATUS then s.ftStatus else if a = Reg.FT_NOW then s.ftNow else if a = Reg.FT_OFFSET then s.ftOffset
    else if a = Reg.FT_TURN_NOW then s.ftTurnNow else s.reg a
  | 13 => if a = Reg.ECC_UNIT_STATE then s.unitState else s.reg a
  | _ => s.reg a

/-- Instances 1 to 3 of RSV_ and FWD_ show what is held once (R103, R314, R333). -/
def mirrored (a : Nat) : Nat :=
  let o := a % 0x1000000
  if a / 0x1000000 = 1 && 0x100000 ≤ o && 0x1000 ≤ o % 0x100000 && o % 0x100000 < 0x1800 then 0x1000000 + o % 0x100000
  else if a / 0x1000000 = 7 && 0x100000 ≤ o && o < 0x400000 && !(0x100 ≤ o % 0x100000 && o % 0x100000 < 0x120) then
    0x7000000 + o % 0x100000
  else a

/-- What stands at an offset without a register: the Sluice ports of the cores (R255), else zero (R14). -/
def State.windowRead (s : State) (a : Nat) : Nat :=
  let p := a % 0x10000
  if a / 0x1000000 = 4 && 0x200 ≤ p && p < 0x600 then s.slcPortRead (setupInstance a) ((p - 0x200) / 0x100) (p % 0x100) else 0

/-- A read at a set-up offset: zero where nothing is assigned and from an absent instance (R14). -/
def State.setupRead (s : State) (addr : Nat) : Nat :=
  let a := mirrored addr
  if s.absentInstance a then 0
  else match regDescAt a with
    | none => s.windowRead a
    | some d => readMask d (s.readWordAt a)

/-- A set-up read by a requester at a local address: a core reads its own cluster's instances (R214). -/
def State.setupReadAt (s : State) (addr : Nat) : Nat := if inSetup addr then s.setupRead (addr - setupBase) else 0

-- Travo Link -------------------------------------------------------------------------------------------------------

/-- One 8-byte piece of an uncached write to set-up space (R403): a write carries a whole register, so a piece whose byte enables
leave part of one out changes nothing. A 32-bit register takes four bytes. -/
def State.ucPiece (s : State) (addr be v : Nat) (image program : List Byte) : State :=
  match (regDescAt (addr - setupBase)).map RegDesc.width4 with
  | some true =>
    let s := if be % 16 = 15 then s.setupWriteAt .travo addr (v % 2 ^ 32) image program else s
    if be / 16 % 16 = 15 then s.setupWriteAt .travo (addr + 4) (v / 2 ^ 32) image program else s
  | _ => if be % 256 = 255 then s.setupWriteAt .travo addr v image program else s

/-- The 8-byte piece of an uncached read of set-up space. -/
def State.ucWord (s : State) (addr : Nat) : Nat :=
  match (regDescAt (addr - setupBase)).map RegDesc.width4 with
  | some true => s.setupReadAt addr + s.setupReadAt (addr + 4) * 2 ^ 32
  | _ => s.setupReadAt addr

/-- Does an address lie on a doorbell page (R35, R412)? -/
def inDoorbell (addr : Nat) : Bool := decide (doorbellBase ≤ addr) && decide (addr < doorbellBase + 0x4000000)

/-- UC_RD: an uncached read of 8 or 16 bytes (R403, R405, R407, R412); `bad` when the device word that holds the register is
uncorrectable. -/
def State.ucRead (s : State) (txn addr size : Nat) (bad : Bool) : State :=
  let n := if size = 4 then 16 else 8
  if inSetup addr then
    if bad then s.ucAnswer txn Code.uncorrectable addr true (List.replicate n 0)
    else s.ucAnswer txn 0 addr false
      (if n = 16 then leBytes 8 (s.ucWord addr) ++ leBytes 8 (s.ucWord (addr + 8)) else leBytes 8 (s.ucWord addr))
  else if inDoorbell addr && !s.safeState then
    let r := (addr - doorbellBase) / 4096
    let o := (addr - doorbellBase) % 4096
    if bad then s.ucAnswer txn Code.uncorrectable addr true (List.replicate n 0)
    else if o = 0x100 && n = 16 then s.poll txn r
    else if o = 0x10 && n = 8 then s.ucAnswer txn 0 addr false (leBytes 8 (s.ringState r))
    else s.ucAnswer txn 0 addr false (List.replicate n 0)
  else if inDoorbell addr then s.ucAnswer txn 0 addr false (List.replicate n 0)
  else (s.unmapped .link addr .read).ucAnswer txn Code.addressUnmapped addr false (List.replicate n 0)

/-- A doorbell write of 8 bytes (R412, R413). -/
def State.doorbellWrite (s : State) (addr v : Nat) : State :=
  let r := (addr - doorbellBase) / 4096
  match (addr - doorbellBase) % 4096 with
  | 0 => s.dbTail r v
  | 8 => s.dbHead r v
  | _ => s

/-- UC_WR: an uncached write of 8 or 16 bytes, applied and answered with UC_ACK (R403, R405, R412). -/
def State.ucWrite (s : State) (txn addr size be : Nat) (data image program : List Byte) : State :=
  let lo := leNat (sliceOf data 0 8)
  let hi := leNat (sliceOf data 8 8)
  let ack (s : State) (st : Nat) : State := s.sendFlit ⟨0x1B, false, txn % 4096, st, size, addr, 0, []⟩
  if inSetup addr then
    let s := s.ucPiece addr be lo image program
    ack (if size = 4 then s.ucPiece (addr + 8) (be / 256) hi image program else s) 0
  else if inDoorbell addr then
    ack (if size = 3 && be % 256 = 255 && !s.safeState then s.doorbellWrite addr lo else s) 0
  else ack (s.unmapped .link addr .write) Code.addressUnmapped

-- Cores ------------------------------------------------------------------------------------------------------------

/-- The set-up source that a core is. -/
def setupSource : Requester → Option Source
  | .core n k => some (.core n k)
  | .wm k => some (.wm k)
  | _ => none

/-- The set-up offset a requester's access names, where set-up space is open to it. -/
def setupOffset (who : Requester) (addr : Nat) : Option Nat :=
  if !inSetup addr then none
  else match who with
    | .core n _ => coreSetup n (addr - setupBase)
    | .wm _ => some (addr - setupBase)
    | _ => none

/-- Does a load of an atomic port's RESULT or STATUS wait for its atomic to close (R357)? -/
def State.atomLoadWaits (s : State) (a : Nat) : Bool :=
  let p := a % 0x10000
  let i := 4 * setupInstance a + (p - 0x600) / 64
  a / 0x1000000 == 4 && decide (0x600 ≤ p) && decide (p < 0x700) && (p % 64 == 0x20 || p % 64 == 0x28) &&
    (s.atomBusy i || !(s.core i).atomWait.isEmpty)

/-- Does a load of a Sluice port's TAG wait for the answer (R255)? -/
def State.tagLoadWaits (s : State) (a : Nat) : Bool :=
  let p := a % 0x10000
  a / 0x1000000 == 4 && decide (0x200 ≤ p) && decide (p < 0x600) && p % 0x100 == 8 &&
    (s.core (4 * setupInstance a + (p - 0x200) / 0x100)).slcTag.isNone

/-- Does a Watermaster core's access name a doorbell page (R412)? -/
def wmDoorbell (who : Requester) (addr : Nat) : Bool :=
  inDoorbell addr && (match who with | .wm _ => true | _ => false)

/-- What a doorbell page answers to an 8-byte load (R412): DB_STATE, and zero everywhere else or for another size. -/
def State.doorbellRead (s : State) (addr len : Nat) : Nat :=
  if (addr - doorbellBase) % 4096 = 0x10 && len = 8 then s.ringState ((addr - doorbellBase) / 4096) else 0

/-- A load by any engine: set-up space for the cores it is open to (R214) and, for the Watermaster, doorbell pages (R412), else
local memory or the fabric. A load that waits for the atomic port or the Sluice port holds its core until the answer comes (R255, R357). -/
def State.engineLoad (s : State) (who : Requester) (mgmt : Bool) (addr len : Nat) (sink : Sink) : State :=
  match setupOffset who addr with
  | some a =>
    if !s.mayIssue who then s
    else if s.atomLoadWaits a || s.tagLoadWaits a then
      match coreKey who with
      | some i => s.onCore i fun c => { c with loads := c.loads ++ [(a, (len, sink))] }
      | none => s
    else s.deliver ⟨who, Op.load, false, addr, s.node, len, sink, len == 8, 0, false⟩ 0 (leBytes len (s.setupRead a))
  | none =>
    if wmDoorbell who addr then
      if !s.mayIssue who then s
      else s.deliver ⟨who, Op.load, false, addr, s.node, len, sink, len == 8, 0, false⟩ 0 (leBytes len (s.doorbellRead addr len))
    else s.loadIssue who mgmt addr len sink

/-- The 8-byte pieces of a store, in ascending order. -/
def storeWords : Nat → List Byte → List Nat
  | 0, _ => []
  | fuel + 1, bs => if bs.isEmpty then [] else leNat (bs.take 8) :: storeWords fuel (bs.drop 8)

/-- A store by any engine: set-up space and, for the Watermaster, doorbell pages (R214, R412), else local memory or the fabric. A store of
more than 8 bytes to set-up space writes its words in ascending order, which fills a push window whole (R230). A store of fewer than 8
bytes, or with byte enables clear, writes its zero-extended low bytes as the whole register: R13 gives whole-register writes alone
(DESIGN CHOICE, log entry 13). -/
def State.engineStore (s : State) (who : Requester) (mgmt : Bool) (addr be : Nat) (data : List Byte) (poison : Bool) (ilen : Nat) :
    State :=
  match setupSource who, coreKey who with
  | some src, some i =>
    let bell := wmDoorbell who addr
    if !(bell || (setupOffset who addr).isSome) then s.storeIssue who mgmt addr be data poison ilen
    else if !s.mayIssue who then s
    else
      let s := if bell then (if data.length = 8 && be % 256 = 255 then s.doorbellWrite addr (leNat data) else s)
        else (storeWords data.length data).zipIdx.foldl (fun s w => s.setupWriteAt src (addr + 8 * w.2) w.1 [] []) s
      s.onCore i fun c => c.advance ilen
  | _, _ => s.storeIssue who mgmt addr be data poison ilen

end Sys2Proof.Machine
end

