-- ==== Sys2Proof/Machine/Mgmt.lean ====
section
/-! DEFINITION. The management channel: mailboxes, frames, the handshake, set-up through SET and GET, attestation, the fingerprint and
job start, and teardown (R520 to R533). Fields whose width the spec does not give are eight bytes, little-endian (log entry 26). -/

namespace Sys2Proof.Machine

-- The firmware's fabric work ---------------------------------------------------------------------------------------

/-- The management firmware as a requester (R335). -/
def mgmtUser : Requester := .control

/-- A MGMT operation of the firmware. -/
def State.mgOp (s : State) (op addr len aop : Nat) (data : List Byte) (sink : Sink) : State :=
  s.issueAny ⟨mgmtUser, op, true, addr, len, 255, aop, false, false, false, data, sink⟩

/-- Store bytes by MGMT stores, in pieces between 256-byte boundaries; the last word is filled with zeros (R336, R522). -/
def State.mgStores (s : State) (a : Nat) (data : List Byte) : State :=
  let data := data ++ List.replicate ((8 - data.length % 8) % 8) 0
  (pieces256 (data.length / 256 + 2) a data).foldl (fun s p => s.mgOp Op.store p.1 p.2.length 0 p.2 .none) s

def State.pushTasks (s : State) (ts : List MgTask) : State := { s with mg := { s.mg with tasks := s.mg.tasks ++ ts } }

/-- A chunk's length, and where it lies on every node of the launch (R530, R531; log entry 27). -/
def Launch.chunkBytes (l : Launch) : Nat := 2 ^ l.chunkLog
def Launch.chunkAddr (l : Launch) (i : Nat) : Nat := l.dest + i * l.chunkBytes
def Launch.noticeAddr (l : Launch) (i : Nat) : Nat := l.ctrl + 2 * 2 ^ 20 + 64 * i
def Launch.haveAddr (l : Launch) : Nat := l.ctrl + 6 * 2 ^ 20
def Launch.ackAddr (l : Launch) (child : Nat) : Nat := l.ctrl + 6 * 2 ^ 20 + 8192 * (1 + child)

/-- The index that stands for the digest list (R531). -/
def listIndex : Nat := 0xFFFFFFFF

/-- The 64 bytes of a notice (R531). -/
def noticeBytes (id index len : Nat) (digest : List Byte) : List Byte :=
  leBytes 8 id ++ leBytes 4 index ++ leBytes 4 len ++ List.replicate 16 0 ++ digest

/-- The digest the list gives chunk `i`, as it lies in the control area. -/
def State.listDigest (s : State) (l : Launch) (i : Nat) : List Byte := (s.readLocal mgmtUser (l.ctrl + 32 * i) 32).2.1

/-- What sends the list to a child, and what sends it a chunk (R531). The list's notice takes the place of notice 0 (log entry 27). -/
def listTasks (l : Launch) (child : Nat) : List MgTask :=
  [.copy (nodeAddr child l.ctrl) l.ctrl (32 * l.chunks), .fence,
   .store (nodeAddr child (l.noticeAddr 0)) (noticeBytes l.id listIndex (32 * l.chunks % 2 ^ 32) l.digest), .fence]
def State.chunkTasks (s : State) (l : Launch) (child i : Nat) : List MgTask :=
  [.copy (nodeAddr child (l.chunkAddr i)) (l.chunkAddr i) l.chunkBytes, .fence,
   .store (nodeAddr child (l.noticeAddr i)) (noticeBytes l.id i (l.chunkBytes % 2 ^ 32) (s.listDigest l i)), .notice child i]

/-- Send a child what its HAVE bitmap, just read, lacks (R532): the list too when it holds no chunk. -/
def State.sendMissing (s : State) (child : Nat) : State :=
  match s.mg.launch with
  | none => s
  | some l =>
    let bits := s.mg.bitmap
    let lacks := l.have_.filter fun i => !bitAt (leNat [nthD bits (i / 8) 0]) (i % 8)
    let list := if l.listOk && bits.all (· == 0) then listTasks l child else []
    let s : State := { s with mg := { s.mg with bitmap := [] } }
    s.pushTasks (list ++ (lacks.map fun i => s.chunkTasks l child i).flatten)

/-- Note when a notice was stored, once per child and chunk (R532). -/
def State.noteNotice (s : State) (child i : Nat) : State :=
  match s.mg.launch with
  | none => s
  | some l =>
    let key := 65536 * child + i
    let e := tblGetD key (s.clock.elapsedNs, 0) l.sent
    { s with mg := { s.mg with launch := some { l with sent := tblSet key e l.sent } } }

/-- Take the answer of the head task's load, if it is in: its bytes. Otherwise issue the load unless it is on its way. -/
def State.mgLoad (s : State) (a len : Nat) : Option (List Byte) × Bool × State :=
  match s.mg.got with
  | some bs => (some bs, true, { s with mg := { s.mg with got := none, waits := false } })
  | none =>
    if s.mg.waits then (none, false, s)
    else
      let t : State := { s with mg := { s.mg with waits := true } }
      (none, true, t.mgOp Op.load a len 0 [] .mgmt)

/-- One piece of the firmware's work; none when it waits for the fabric (R522, R531, R532). -/
def State.mgStep (s : State) : Option State :=
  match s.mg.tasks with
  | [] => none
  | t :: rest =>
    let pop (s : State) : State := { s with mg := { s.mg with tasks := rest } }
    match t with
    | .store a data => some ((pop s).mgStores a data)
    | .copy a src n =>
      let (_, bs, s) := s.readLocal mgmtUser src n
      some ((pop s).mgStores a bs)
    | .fence => if s.opsOpen mgmtUser then none else some (pop s)
    | .await a =>
      match s.mgLoad a 8 with
      | (some bs, _, s) => if leNat (bs.take 8) = 0 then some (pop s) else some (s.mgLoad a 8).2.2
      | (none, moved, s) => if moved then some s else none
    | .load a =>
      match s.mgLoad a 256 with
      | (some bs, _, s) => some (pop { s with mg := { s.mg with bitmap := s.mg.bitmap ++ bs } })
      | (none, moved, s) => if moved then some s else none
    | .orMask a m => some ((pop s).mgOp Op.atomic a 8 4 (leBytes 8 m ++ leBytes 8 0) .none)
    | .missing child => some ((pop s).sendMissing child)
    | .notice child i => some ((pop s).noteNotice child i)

/-- Do what can be done of the firmware's work; `fuel` bounds it, and the rest waits for the next event. -/
def State.mgRun : Nat → State → State
  | 0, s => s
  | n + 1, s => match s.mgStep with
    | none => s
    | some t => State.mgRun n t
def State.mgPump (s : State) : State := State.mgRun (4 * s.mg.tasks.length + 4) s

-- Frames -----------------------------------------------------------------------------------------------------------

/-- A frame as it lies in a slot (R522, R524): its fields, and its bytes from header to payload. -/
structure MgFrame where
  slot    : Nat
  type    : Nat
  len     : Nat
  seq     : Nat
  session : Nat
  payload : List Byte
  signed  : List Byte
  tag     : List Byte
  deriving DecidableEq, Repr

/-- The types a device accepts (R524). -/
def mgIncoming (t : Nat) : Bool :=
  [0x01, 0x03, 0x10, 0x12, 0x20, 0x30, 0x40, 0x41, 0x42, 0x45, 0x50, 0x51].contains t

/-- A field of a payload. -/
def MgFrame.field (f : MgFrame) (i n : Nat) : Nat := fieldAt f.payload i n
def MgFrame.word (f : MgFrame) (i : Nat) : Nat := f.field (8 * i) 8

/-- The address of slot `i` of the inbound mailbox (R522). -/
def State.boxSlot (s : State) (i : Nat) : Nat := s.reg Reg.SEC_MGMT_BOX + i * 0x8000

/-- The slot that holds the lowest SEQ (R522). -/
def State.mailSlot (s : State) : Option Nat :=
  let seqs := (List.range 16).map fun i => (i, (s.readLocal mgmtUser (s.boxSlot i) 8).2.1)
  ((seqs.map fun e => (e.1, leNat e.2)).foldl (fun (best : Option (Nat × Nat)) (e : Nat × Nat) =>
    if e.2 = 0 then best
    else match best with
      | none => some e
      | some b => if e.2 < b.2 then some e else best) none).map fun e => e.1

/-- Read the frame in a slot. -/
def State.frameIn (s : State) (i : Nat) : MgFrame × State :=
  let a := s.boxSlot i + 64
  let (_, h, s) := s.readLocal mgmtUser a 32
  let len := fieldAt h 4 4
  let (p, tag, s) := if len ≤ 32608 then
      let (_, p, s) := s.readLocal mgmtUser (a + 32) len
      let (_, t, s) := s.readLocal mgmtUser (a + 32 + len) 32
      (p, t, s)
    else ([], [], s)
  (⟨i, fieldAt h 0 1, len, fieldAt h 8 8, fieldAt h 16 8, p, h ++ p, tag⟩, s)

/-- Take a frame out of its slot (R522). -/
def State.takeSlot (s : State) (i : Nat) : State := (s.writeLocal mgmtUser (s.boxSlot i) (List.replicate 8 0) false).2

/-- A frame is accepted: its SEQ is the last, and it is counted (R527, R534). -/
def State.acceptFrame (s : State) (f : MgFrame) : State :=
  let t : State := { s with mg := { s.mg with lastIn := f.seq } }
  t.countWrap Reg.SEC_CNT_MGMT Fld.SEC_CNT_MGMT_FRAMES 1

/-- Why a frame is refused before its own checks (R527): 4 for its form or for want of a channel, 0 for its tag, 1 for its SEQ. -/
def State.frameRefusal (s : State) (f : MgFrame) : Option Nat :=
  let late := if f.seq ≤ s.mg.lastIn then some 1 else none
  if !mgIncoming f.type || 32608 < f.len then some 4
  else if f.type = 0x01 then late
  else if f.type = 0x03 then (if s.mg.shakes.any fun h => h.id == f.session then late else some 4)
  else match s.mg.session with
    | none => some 4
    | some c => if c.id != f.session then some 4 else if hmac256 c.kIn f.signed != f.tag then some 0 else late

/-- The next frame in the inbound mailbox, taken by the command of its type (R522, R524, R527): `act` is what a frame of this type does
once its form, channel, tag and SEQ are good. Frames that are no frame a device takes are discarded by whichever command comes. -/
def State.intake (s : State) (type node : Nat) (act : State → MgFrame → State) : State :=
  if s.phase < 4 || s.ecc.recover then s
  else match s.mailSlot with
  | none => s
  | some i =>
    let (f, t) := s.frameIn i
    if mgIncoming f.type && f.type != type then s
    else
      let t := t.takeSlot i
      match t.frameRefusal f with
      | some kind => t.mgmtRefused kind node
      | none => (act t f).mgPump

/-- Send a frame to an outbound mailbox (R522, R524): wait until the slot is free, store the frame, fence, store its SEQ. -/
def State.sendFrame (s : State) (node off session : Nat) (key : Option (List Byte)) (type : Nat) (payload : List Byte) : State :=
  let seq := s.mg.outSeq + 1
  let body := leBytes 4 type ++ leBytes 4 payload.length ++ leBytes 8 seq ++ leBytes 8 session ++ List.replicate 8 0 ++ payload
  let full := match key with
    | some k => body ++ hmac256 k body
    | none => body
  let slot := nodeAddr node ((off + (seq - 1) % 16 * 0x8000) % 2 ^ 40)
  let t : State := { s with mg := { s.mg with outSeq := seq } }
  t.pushTasks [.await slot, .store (slot + 64) full, .fence, .store slot (leBytes 8 seq)]

/-- Send a frame of the open channel. -/
def State.reply (s : State) (type : Nat) (payload : List Byte) : State :=
  match s.mg.session with
  | none => s
  | some c => s.sendFrame c.node c.off c.id (some c.kOut) type payload

-- The handshake and attestation ------------------------------------------------------------------------------------

/-- The signed message of an attestation report (R521). -/
def State.reportBytes (s : State) (nonce : List Byte) : List Byte :=
  leBytes 4 1 ++ leBytes 2 s.fuses.part ++ leBytes 2 (s.fuses.letter % 16 + s.fuses.digit % 16 * 16) ++ leBytes 8 s.stamp ++
  leBytes 2 s.node ++ leBytes 2 (s.fld Reg.FWD_IDENT Fld.FWD_IDENT_PTAG) ++ leBytes 4 (s.fld Reg.SEC_SVN Fld.SEC_SVN_IMAGE) ++
  leBytes 4 (s.fuses.lifecycle % 4 + s.phase * 4) ++ leBytes 4 0 ++ nonce ++ s.reg256 (Reg.SEC_ID_PUB 0) ++
  ((List.range 4).map fun m => s.reg256 (Reg.SEC_MEAS m 0)).flatten ++ s.reg256 (Reg.SEC_FP 0)

/-- Bytes held to a length. -/
def sized (n : Nat) (bs : List Byte) : List Byte := (bs ++ List.replicate n 0).take n

/-- Ask for a report (R521): requests are served one at a time; in lifecycle RMA they are refused (R520). -/
def State.askReport (s : State) (nonce : List Byte) (offer : Bool) : State :=
  if !s.production then s
  else
    let t : State := { s with mg := { s.mg with attest := s.mg.attest ++ [⟨nonce, offer⟩] } }
    t.setFlag Reg.SEC_ATTEST_CTRL Fld.SEC_ATTEST_CTRL_BUSY true

/-- HELLO (R525): the manager's key is checked, a key pair generated, and OFFER follows once its report is signed. With ENABLE clear it
is not accepted (R534). -/
def State.helloFrame (s : State) (node : Nat) (f : MgFrame) : State :=
  let pub := sliceOf f.payload 32 32
  if !s.flag Reg.SEC_MGMT_CTRL Fld.SEC_MGMT_CTRL_ENABLE then s
  else if sha256 pub != s.reg256 (Reg.SEC_MGR_HASH 0) then s.mgmtRefused 2 node
  else
    let s := s.acceptFrame f
    let (n, s) := s.takeFree .kemPair
    let ek := sized 1184 (Config.kemKey n)
    let id := fieldAt f.payload 0 8
    let h : Handshake := ⟨id, f.payload, ek, [], n, pub, fieldAt f.payload 64 2, fieldAt f.payload 66 8⟩
    let t : State := { s with mg := { s.mg with shakes := (s.mg.shakes.filter fun x => x.id != id) ++ [h] } }
    t.askReport (sha256 (f.payload.take 32 ++ ek)) true

def State.hello (s : State) (node : Nat) : State := s.intake 0x01 node fun s f => s.helloFrame node f

/-- ATTEST_SIGNED: the oldest report is signed and sent, in ATTEST_RSP or in the OFFER that waits for it (R521, R525). -/
def State.attestSigned (s : State) : State :=
  match s.mg.attest with
  | [] => s
  | j :: rest =>
    let msg := s.reportBytes j.nonce
    let report := msg ++ sized 17088 (Config.slhSign (identitySeeds s.fuses.secret) msg)
    let s : State := { s with mg := { s.mg with attest := rest } }
    let s := s.setFlag Reg.SEC_ATTEST_CTRL Fld.SEC_ATTEST_CTRL_BUSY (!rest.isEmpty)
    let s := s.countWrap Reg.SEC_ATTEST_CTRL Fld.SEC_ATTEST_CTRL_REPORTS 1
    if !j.offer then (s.reply 0x21 report).mgPump
    else match s.mg.shakes.find? fun h => sha256 (h.hello.take 32 ++ h.ek) == j.nonce with
      | none => s
      | some h =>
        let offer := h.ek ++ report
        let t : State := { s with mg := { s.mg with
          shakes := s.mg.shakes.map fun x => if x.id == h.id then { x with offer := offer } else x } }
        (t.sendFrame h.node h.off h.id none 0x02 offer).mgPump

/-- ACCEPT (R525): the manager's signature over th is verified, the shared secret decapsulated and the keys derived; READY opens the
channel, and a session open until then ends. -/
def State.acceptShake (s : State) (node : Nat) (f : MgFrame) : State :=
  match s.mg.shakes.find? fun h => h.id == f.session with
  | none => s
  | some h =>
    let ct := f.payload.take 1088
    let th := sha256 (h.hello ++ h.offer ++ ct)
    if h.offer.isEmpty || !Config.slhVerify128f h.pub th (sliceOf f.payload 1088 17088) then s.mgmtRefused 2 node
    else
      let s := s.acceptFrame f
      let ss := Config.kemSecret h.key ct
      let tagIn : List Byte := [0x47, 0x4E, 0x42, 0x2D, 0x4D, 0x47, 0x4D, 0x54, 0x2D, 0x49, 0x4E]
      let tagOut : List Byte := [0x47, 0x4E, 0x42, 0x2D, 0x4D, 0x47, 0x4D, 0x54, 0x2D, 0x4F, 0x55, 0x54]
      let c : MgSession := ⟨h.id, hmac256 ss (tagIn ++ th), hmac256 ss (tagOut ++ th), h.node, h.off⟩
      let s := s.sendFrame h.node h.off h.id none 0x04 []
      let t : State := { s with mg := { s.mg with session := some c, shakes := s.mg.shakes.filter fun x => x.id != h.id } }
      t.setFlag Reg.SEC_MGMT_CTRL Fld.SEC_MGMT_CTRL_OPEN true

def State.accept (s : State) (node : Nat) : State := s.intake 0x03 node fun s f => s.acceptShake node f

/-- ATTEST: a report is queued for the nonce (R521). -/
def State.attest (s : State) (node : Nat) : State :=
  s.intake 0x20 node fun s f => (s.acceptFrame f).askReport (sized 32 f.payload) false

-- Set-up through frames --------------------------------------------------------------------------------------------

/-- The first refusal that a management write meets: the code of the record it writes (R13, R526). -/
def State.writeRefusal (s : State) (addr v : Nat) : Option Nat :=
  let probe : State := { s with flt := { s.flt with fresh := [], limits := [] } }
  (probe.setupWriteAt .mgmt addr v [] []).flt.fresh.findSome? fun r =>
    let code := r.code.toNat
    if code / 16 = 8 || code = Code.bufferBusy || code = Code.addressUnmapped then some code else none

/-- Apply the writes of a SET frame in order: how many were applied, and the first refusal's code and address (R524, R526). -/
def State.setWrites : List (Nat × Nat) → Nat → Nat → Nat → State → (Nat × Nat × Nat) × State
  | [], n, code, addr, s => ((n, code, addr), s)
  | (a, v) :: ws, n, code, addr, s =>
    let refused := s.writeRefusal a v
    let s := s.setupWriteAt .mgmt a v [] []
    match refused with
    | none => State.setWrites ws (n + 1) code addr s
    | some c => if code = 0 then State.setWrites ws n c a s else State.setWrites ws n code addr s

def setRspBytes (r : Nat × Nat × Nat) : List Byte := leBytes 8 r.1 ++ leBytes 8 r.2.1 ++ leBytes 8 r.2.2

/-- SET: the writes are applied with management source and answered with SET_RSP (R526). -/
def State.setFrame (s : State) (node : Nat) : State :=
  s.intake 0x10 node fun s f =>
    let ws := (List.range (f.len / 16)).map fun i => (f.word (2 * i), f.word (2 * i + 1))
    let (r, s) := State.setWrites ws 0 0 0 (s.acceptFrame f)
    s.reply 0x11 (setRspBytes r)

/-- GET: set-up addresses are read and answered with GET_RSP (R524). -/
def State.getFrame (s : State) (node : Nat) : State :=
  s.intake 0x12 node fun s f =>
    let vs := ((List.range (f.len / 8)).map fun i => leBytes 8 (s.setupReadAt (f.word i))).flatten
    (s.acceptFrame f).reply 0x13 vs

/-- TIME_ANNOUNCE (R76, R79). -/
def State.timeAnnounce (s : State) (node : Nat) : State :=
  s.intake 0x50 node fun s f => (s.acceptFrame f).timeAnnounced (f.word 0)

-- Fingerprint and job start ----------------------------------------------------------------------------------------

/-- The fabric set-up fingerprint (R528). -/
def State.fingerprint (s : State) : List Byte := sha256 ((fingerprintWords.map fun a => leBytes 8 (s.reg a)).flatten)

/-- Job start (R50, R85, R373, R468, R529): with no job loaded and fabric time valid, the set-up as it stands becomes the job's, its
routing steps count from 0, the collective program is written to every enabled cluster, and the engines run. -/
def State.startJob (s : State) (j : Nat) : State :=
  if s.job.isSome || s.sw.phase != .none || s.mg.tear.isSome || !s.timeValid then s
  else
    let s : State := { s with hg := s.hg.newJob }
    let s := s.setFld Reg.WM_SCHED Fld.WM_SCHED_RUNNING j
    let s := s.setFlag Reg.WM_SCHED Fld.WM_SCHED_RUN_VALID true
    let s := s.applyCanon j
    let on := (List.range s.fuses.clusters).filter s.clusterPresent
    let s := s.setFld (Reg.WM_REPRO j) Fld.WM_REPRO_CLUSTERS_AT_START on.length
    let s := on.foldl (fun s n => (s.writeLocal mgmtUser (scratchAddr n 0xFF8000) (s.boot.program.take 32768) false).2) s
    let s : State := { s with sw := { s.sw with since := s.now } }
    s.resumeJob

/-- START: the fingerprint is computed unless it is current, and compared; the job starts only on a match (R528, R529). SET_RSP with zero
writes answers either way, and SEC_FP_CTRL.MATCHED tells which. -/
def State.start (s : State) (node : Nat) : State :=
  s.intake 0x51 node fun s f =>
    let s := s.acceptFrame f
    let fp := if s.flag Reg.SEC_FP_CTRL Fld.SEC_FP_CTRL_VALID then s.reg256 (Reg.SEC_FP 0) else s.fingerprint
    let s := if fp == sliceOf f.payload 8 32 then
        let s := s.setFlag Reg.SEC_FP_CTRL Fld.SEC_FP_CTRL_MATCHED true
        let s := s.setReg256 (Reg.SEC_FP 0) fp
        let s := s.setFlag Reg.SEC_FP_CTRL Fld.SEC_FP_CTRL_VALID true
        (s.extendMeas 3 fp).startJob (f.word 0 % 256)
      else s.setFlag Reg.SEC_FP_CTRL Fld.SEC_FP_CTRL_MATCHED false
    s.reply 0x11 (setRspBytes (0, 0, 0))

-- Teardown ---------------------------------------------------------------------------------------------------------

/-- Change the teardown in progress. -/
def State.setTear (s : State) (t : Option Teardown) : State := { s with mg := { s.mg with tear := t } }

/-- Step 1 of R533: every waiting or running request of the job commits ABORTED, and the job stops without being saved. -/
def State.tearQuiesce (s : State) (j : Nat) : State :=
  let s := (s.tl.requests.filter fun q => q.job == j).foldl (fun s q =>
    if s.tl.requests.any (fun p => p.ring == q.ring && p.ptr == q.ptr) then s.commit q Code.aborted 0 else s) s
  if s.job = some j then
    let t : State := s.stopIssue
    { t with sw := { t.sw with stopped := true } }
  else s

/-- Move a teardown on as far as it goes now (R533): it waits for the end of a switch, quiesces, and once the job has stopped at its
tile boundary the drain begins. -/
def State.tearNext (s : State) : State :=
  match s.mg.tear with
  | none => s
  | some t =>
    let s := if t.stage = .waiting && s.sw.phase == .none then
        (s.setTear (some { t with stage := .quiescing })).tearQuiesce t.job
      else s
    match s.mg.tear with
    | some u =>
      if u.stage = .quiescing && (s.job != some u.job || s.clustersIdle) then
        let s := if s.job = some u.job then s.setFlag Reg.WM_SCHED Fld.WM_SCHED_RUN_VALID false else s
        let s := s.setTear (some { u with stage := .draining, since := s.clock.elapsedNs })
        { s with fab := { s.fab with stopJob := some u.job } }
      else s
    | none => s

/-- QUIESCE: tear down a job (R533). -/
def State.quiesce (s : State) (node : Nat) : State :=
  s.intake 0x30 node fun s f =>
    let s := s.acceptFrame f
    if s.mg.tear.isSome then s else (s.setTear (some ⟨f.word 0 % 256, .waiting, 0⟩)).tearNext

/-- Step 3 of R533: the Reservoir and the enabled scratchpads are zeroed, every region is FREE, and the window table, the member, zone
and group tables are clear; with the regions goes what had landed in them and the job's Headgate progress (R50, R70). -/
def State.tearScrub (s : State) : State :=
  let on := (List.range s.fuses.clusters).filter s.clusterPresent
  let ranges := (rsvBase, 4 * 2 ^ 32) :: on.map fun n => (scratchAddr n 0, 2 ^ 24)
  let hit (a : Nat) : Bool := ranges.any fun r => decide (r.1 ≤ a) && decide (a < r.1 + r.2)
  let tables : List (Nat × Nat) :=
    [(Reg.RSV_REGION 0, 0x800), (Reg.JT_WIN0 0, 0x2000), (Reg.JT_MEMBER 0, 0x400), (Reg.HG_ZONE0 0, 0x8000), (Reg.COL_GROUP 0, 0x800)]
  let table (a : Nat) : Bool := tables.any fun r => decide (r.1 ≤ a) && decide (a < r.1 + r.2)
  { s with mem := s.mem.filter fun c => !hit c.1, marks := s.marks.filter fun e => !hit e.1,
           regs := s.regs.filter fun e => !table e.1,
           rsv := { s.rsv with sealBits := [], sealed := [], sealTimes := [], tables := [], varve := [], marks := [] },
           hg := { s.hg.newJob with landings := [] } }

/-- TEARDOWN_DRAIN_END: T_DEAD after the drain began (R533 steps 2 to 6). `ranges` are the job's HBM ranges, which the firmware knows. -/
def State.teardownEnd (s : State) (ranges : List (Nat × Nat)) : State :=
  match s.mg.tear with
  | none => s
  | some t =>
    if t.stage != .draining || s.clock.elapsedNs < t.since + s.tDead * 1000 then s
    else
      let s : State := { s with fab := { s.fab with refuse := true } }
      let s := s.tearScrub
      let s := (ranges.filter fun r => decide (r.1 + r.2 ≤ hbmSize)).foldl (fun s r =>
        { (s.dropMarks r.1 r.2) with mem := memZero s.mem r.1 r.2 }) s
      let s := s.setFld Reg.FWD_IDENT Fld.FWD_IDENT_PTAG 0
      let s := s.setFlag Reg.SEC_FP_CTRL Fld.SEC_FP_CTRL_VALID false
      ((s.setTear none).reply 0x31 (leBytes 8 s.now)).mgPump

end Sys2Proof.Machine
end

