-- ==== Sys2Proof/Machine/Launch.lean ====
section
/-! DEFINITION. Launch broadcast: a node takes an image in chunks from its parent, checks them, acknowledges them and passes them on
(R530 to R532). A child's DEST_ADDR and CTRL_ADDR are taken to be this node's (log entry 27). -/

namespace Sys2Proof.Machine

def State.setLaunch (s : State) (l : Option Launch) : State := { s with mg := { s.mg with launch := l } }

/-- Zero a range of local HBM (log entry 27). -/
def State.zeroRange (s : State) (a n : Nat) : State :=
  if hbmSize < a + n then s else { (s.dropMarks a n) with mem := memZero s.mem a n }

/-- LAUNCH (R530). Payload words: IMAGE_ID, CHUNKS, CHUNK_LOG2, four of LIST_DIGEST, DEST_ADDR, CTRL_ADDR, PARENT, eight children (all ones
for none), T_ACK. The bitmaps start empty. -/
def State.launch (s : State) (node : Nat) : State :=
  s.intake 0x40 node fun s f =>
    let s := s.acceptFrame f
    let children := ((List.range 8).map fun i => f.word (10 + i)).filter fun c => c != 2 ^ 64 - 1
    let l : Launch :=
      { id := f.word 0, chunks := f.word 1, chunkLog := f.word 2, digest := sliceOf f.payload 24 32, dest := f.word 7, ctrl := f.word 8,
        parent := f.word 9 % 2 ^ 16, children := children.map fun c => c % 2 ^ 16, tAck := f.word 18, listOk := false, have_ := [],
        sent := [] }
    if l.chunks = 0 || 65536 < l.chunks || l.chunkLog < 16 || 24 < l.chunkLog then s
    else
      let s := s.setReg Reg.SEC_LAUNCH_STATUS 0
      (s.zeroRange l.haveAddr (9 * 8192)).setLaunch (some l)

/-- The launch commits once the list and all chunks are verified (R532). -/
def State.launchCommit (s : State) : State :=
  match s.mg.launch with
  | none => s
  | some l =>
    if l.listOk && l.have_.length = l.chunks && !s.flag Reg.SEC_LAUNCH_STATUS Fld.SEC_LAUNCH_STATUS_COMMITTED then
      let s := s.extendMeas 3 l.digest
      let s := s.setFlag Reg.SEC_LAUNCH_STATUS Fld.SEC_LAUNCH_STATUS_COMMITTED true
      s.reply 0x44 (leBytes 8 l.id)
    else s

/-- Acknowledge a chunk: its bit is ORed into the parent's ACK bitmap for this node (R531); which of the eight that is, the spec does
not say. The root has no parent. -/
def State.launchAck (s : State) (l : Launch) (i : Nat) : State :=
  if l.parent = s.node then s
  else
    let (k, s) := s.takeFree .ackIndex
    s.pushTasks [.orMask (nodeAddr l.parent (l.ackAddr (k % 8) + i / 64 * 8)) (2 ^ (i % 64))]

/-- A chunk is verified: its HAVE bit is set, it is acknowledged and passed to the children (R531). -/
def State.launchHave (s : State) (l : Launch) (i : Nat) : State :=
  let l : Launch := { l with have_ := l.have_ ++ [i] }
  let s := s.setLaunch (some l)
  let s := s.countSat Reg.SEC_LAUNCH_STATUS Fld.SEC_LAUNCH_STATUS_HAVE_COUNT 1
  let a := l.haveAddr + i / 8
  let old := leNat (s.readLocal mgmtUser a 1).2.1
  let s := (s.writeLocal mgmtUser a (leBytes 1 (old ||| 2 ^ (i % 8))) false).2
  let s := s.launchAck l i
  (s.pushTasks (l.children.map fun c => s.chunkTasks l c i).flatten).launchCommit

/-- LAUNCH_NOTICE: the notice of chunk `i`, or of the digest list, has arrived (R531). -/
def State.launchNotice (s : State) (i : Nat) : State :=
  match s.mg.launch with
  | none => s
  | some l =>
    let list := i == listIndex
    let (_, n, s) := s.readLocal mgmtUser (l.noticeAddr (if list then 0 else i)) 64
    let len := fieldAt n 12 4
    let digest := sliceOf n 32 32
    if (!list && l.chunks ≤ i) || fieldAt n 0 8 != l.id || fieldAt n 8 4 != i then s
    else if list then
      if l.listOk then s
      else
        let (_, bs, s) := s.readLocal mgmtUser l.ctrl (32 * l.chunks)
        if sha256 bs != l.digest || digest != l.digest then s.mgmtRefused 5 l.parent
        else
          let l : Launch := { l with listOk := true }
          (((s.setLaunch (some l)).pushTasks (l.children.map (listTasks l)).flatten).launchCommit).mgPump
    else if l.have_.contains i then (s.launchAck l i).mgPump
    else
      let (_, bs, s) := s.readLocal mgmtUser (l.chunkAddr i) (min len l.chunkBytes)
      let d := sha256 bs
      if !l.listOk || l.chunkBytes < len || d != s.listDigest l i || d != digest then s.mgmtRefused 5 l.parent
      else (s.launchHave l i).mgPump

/-- Has a child's ACK bit for a chunk been set (R531)? -/
def State.childAcked (s : State) (l : Launch) (child i : Nat) : Bool :=
  match l.children.zipIdx.find? fun e => e.1 == child with
  | none => true
  | some e => bitAt (leNat (s.readLocal mgmtUser (l.ackAddr e.2 + i / 8) 1).2.1) (i % 8)

/-- LAUNCH_ACK_TIMEOUT: a child's ACK bit is missing T_ACK after its notice, and the chunk is sent once more; missing after twice that,
the manager is told (R532). -/
def State.ackTimeout (s : State) (child i : Nat) : State :=
  match s.mg.launch with
  | none => s
  | some l =>
    match tblFind (65536 * child + i) l.sent with
    | none => s
    | some (t, n) =>
      if s.childAcked l child i then s
      else
        let mark (s : State) (k : Nat) : State := s.setLaunch (some { l with sent := tblSet (65536 * child + i) (t, k) l.sent })
        if n = 0 && t + l.tAck * 1000 ≤ s.clock.elapsedNs then ((mark s 1).pushTasks (s.chunkTasks l child i)).mgPump
        else if n = 1 && t + 2 * l.tAck * 1000 ≤ s.clock.elapsedNs then
          ((mark s 2).reply 0x43 (leBytes 8 l.id ++ leBytes 8 child ++ leBytes 8 i)).mgPump
        else s

/-- LAUNCH_CHILD: IMAGE_ID and the orphan (R532); its HAVE bitmap is read and what it lacks is sent. -/
def State.launchChild (s : State) (node : Nat) : State :=
  s.intake 0x41 node fun s f =>
    let s := s.acceptFrame f
    match s.mg.launch with
    | none => s
    | some l =>
      let c := f.word 1 % 2 ^ 16
      if f.word 0 != l.id || 8 ≤ l.children.length || l.children.contains c then s
      else
        let s := s.setLaunch (some { l with children := l.children ++ [c] })
        s.pushTasks (((List.range 32).map fun k => .load (nodeAddr c (l.haveAddr + 256 * k))) ++ [.missing c])

/-- REPARENT: IMAGE_ID and the new parent (R532). -/
def State.reparent (s : State) (node : Nat) : State :=
  s.intake 0x42 node fun s f =>
    let s := s.acceptFrame f
    match s.mg.launch with
    | none => s
    | some l => if f.word 0 != l.id then s else s.setLaunch (some { l with parent := f.word 1 % 2 ^ 16 })

/-- LAUNCH_ABORT: the launch state clears, and the chunks become plain HBM contents (R532). -/
def State.launchAbort (s : State) (node : Nat) : State :=
  s.intake 0x45 node fun s f =>
    ((s.acceptFrame f).setLaunch none).setReg Reg.SEC_LAUNCH_STATUS 0

end Sys2Proof.Machine
end

