-- ==== Sys2Proof/Machine/Switched.lean ====
section
/-! DEFINITION. Switched ports: Jorper packets, their acknowledgement and retransmission, connection epochs, and drift records
(R326, R327, R331, R366 to R370). -/

namespace Sys2Proof.Machine

/-- The 32 bytes of a Jorper packet header (R366); type 0 DATA, 1 ACK. -/
def packetHeader (p : SwPacket) (type : Nat) : List Byte :=
  leBytes 1 (1 + type * 16) ++ leBytes 1 p.cells.length ++ leBytes 2 p.srcGw ++ leBytes 2 p.dstGw ++ leBytes 2 p.ptag ++
  leBytes 4 p.psn ++ leBytes 4 p.cum ++ leBytes 8 p.sack ++ leBytes 4 p.epoch ++ leBytes 4 0

/-- The ones' complement sum of 16-bit big-endian words. -/
def onesSum : List Byte → Nat → Nat
  | [], acc => acc
  | [a], acc => acc + a.toNat * 256
  | a :: b :: rest, acc => onesSum rest ((acc + a.toNat * 256 + b.toNat) % 65535)

/-- The UDP checksum over the IPv6 pseudo-header (R326). -/
def udpChecksum (src dst udp : List Byte) : Nat :=
  let v := 65535 - onesSum (src ++ dst ++ beBytes 4 udp.length ++ beBytes 4 17 ++ udp) 0 % 65535
  if v = 0 then 65535 else v

/-- The outer headers and the Jorper header of a packet (R326): flow label and class from its oldest cell; an ACK uses the two
gateways and class MGMT. -/
def State.swHeaders (s : State) (port : Nat) (p : SwPacket) (type : Nat) : List Byte :=
  let (src, dest, cls) := match p.cells with
    | c :: _ => (c.src, c.dest, c.cls)
    | [] => (s.node, p.dstGw, Cls.mgmt)
  let label := th64 (src * 65536 ||| dest) 0 % 2 ^ 20
  let dscp := bitsOf (s.reg Reg.FWD_SW_DSCP) (6 * (cls % 4)) 6
  let srcAddr := beBytes 8 (s.reg Reg.FWD_SW_PREFIX) ++ beBytes 8 s.node
  let dstAddr := beBytes 8 (s.reg (Reg.FWD_PREFIX0 (dest / 256))) ++ beBytes 8 p.dstGw
  let jorper := packetHeader p type
  let body := jorper ++ (p.cells.map Cell.bytes).flatten
  let udp := beBytes 2 (0xC000 ||| label % 2 ^ 14) ++ beBytes 2 (s.fld Reg.FWD_SW Fld.FWD_SW_UDP_PORT) ++
    beBytes 2 (8 + body.length)
  beBytes 6 (s.reg (Reg.FWD_NEXTHOP (port % 4))) ++ beBytes 6 (s.portMac port) ++ beBytes 2 0x86DD ++
  beBytes 4 (6 * 2 ^ 28 + dscp * 4 * 2 ^ 20 + label) ++ beBytes 2 (8 + body.length) ++ beBytes 1 17 ++
  beBytes 1 (s.fld Reg.FWD_SW Fld.FWD_SW_HOP_LIMIT) ++ srcAddr ++ dstAddr ++
  udp ++ beBytes 2 (udpChecksum srcAddr dstAddr (udp ++ beBytes 2 0 ++ body)) ++ jorper

/-- Send a packet on a port in FORWARDING. -/
def State.emitPacket (s : State) (port : Nat) (p : SwPacket) (type : Nat) : State :=
  if s.forwarding port then s.emit (.packet port (s.swHeaders port p type) p) else s

/-- A DATA packet of a connection. -/
def State.dataPacket (s : State) (gw epoch psn : Nat) (cells : List Cell) : SwPacket :=
  ⟨s.node, gw, s.fld Reg.FWD_IDENT Fld.FWD_IDENT_PTAG, psn, 0, 0, epoch, cells⟩

/-- The gateway of a cell's rack (R326). -/
def State.gatewayOf (s : State) (c : Cell) : Nat := s.fld (Reg.FWD_PREFIX1 (c.dest / 256)) Fld.FWD_PREFIX1_GW_NODE

/-- Cells a port's retransmission store holds (R367). -/
def State.storeCells (s : State) (port : Nat) : Nat :=
  ((s.fab.tx.filter fun e => e.2.port == port).map fun e => (e.2.held.map fun h => h.cells.length).foldl (· + ·) 0).foldl (· + ·) 0

/-- SW_PACKET_SEND: a packet of up to 31 cells for one gateway leaves, once it is full or its oldest cell has waited 500 ns
(R367). -/
def State.swPacketSend (s : State) (p : Nat) : State :=
  let port := s.leadPort p
  if s.portRole port != 3 || !s.forwarding port then s
  else
    let valid (c : Cell) : Bool := s.flag (Reg.FWD_PREFIX1 (c.dest / 256)) Fld.FWD_PREFIX1_VALID
    let queue := tblGetD port [] s.fab.egress
    let stale := queue.filter fun e => !valid e.1
    let queue := queue.filter fun e => valid e.1
    let s : State := { s with fab := { s.fab with egress := tblSet port queue s.fab.egress } }
    let s := stale.foldl (fun s e => s.dropCell (port / 4) 2 e.1) s
    let mine (gw : Nat) : List (Cell × Nat) := queue.filter fun e => s.gatewayOf e.1 == gw
    let ready (gw : Nat) : Bool :=
      decide (31 ≤ (mine gw).length) || (mine gw).any fun e => decide (e.2 + 500 ≤ s.clock.elapsedNs)
    match (queue.map fun e => s.gatewayOf e.1).find? ready with
    | none => s
    | some gw =>
      let cells := ((sortBy (fun a b : Cell × Nat => a.1.older b.1) (mine gw)).take 31)
      if 8192 < s.storeCells port + cells.length then s
      else
        let conn := tblGetD gw ⟨port, tblGetD port 0 s.fab.epochs, 0, []⟩ s.fab.tx
        let held : HeldPacket := ⟨conn.psn, cells.map fun e => e.1, s.clock.elapsedNs, 0, none⟩
        let next : TxConn := { conn with port := port, psn := (conn.psn + 1) % 2 ^ 32, held := conn.held ++ [held] }
        let rest := cells.foldl (fun (q : List (Cell × Nat)) e => q.erase e) queue
        let s : State := { s with fab := { s.fab with tx := tblSet gw next s.fab.tx, egress := tblSet port rest s.fab.egress } }
        s.emitPacket port (s.dataPacket gw conn.epoch conn.psn held.cells) 0

/-- Discard a packet or frame on a switched port (R327). -/
def State.swDiscard (s : State) (port : Nat) : State :=
  s.countWrap (Reg.FWD_CNT_SW (port / 4)) Fld.FWD_CNT_SW_SW_DISCARD 1

/-- The partition check of a packet (R322, R368). -/
def State.packetPtagOk (s : State) (p : SwPacket) : Bool :=
  p.ptag == s.fld Reg.FWD_IDENT Fld.FWD_IDENT_PTAG ||
  (p.ptag == 0 && p.cells.all fun c => c.cls == Cls.mgmt && c.dest == s.node)

/-- The cell a packet's partition drop is reported under. -/
def packetCell (p : SwPacket) : Cell :=
  { dest := p.dstGw, src := p.srcGw, ptag := p.ptag, cls := 0, hops := 0, injTime := 0, injSeq := 0, op := 0, lenW := 0, aop := 0,
    aw := false, signed := false, seal_ := false, poison := false, status := 0, be := 0, life := 0, tag := 0, offset := 0,
    job := 0, payload := [] }

/-- Does an arriving packet meet the conditions of R327: for this device's address, UDP without extension header, to UDP_PORT, and with a
correct checksum? -/
def State.swAccepts (s : State) (o : SwOuter) (p : SwPacket) (type : Nat) : Bool :=
  let body := packetHeader p type ++ (p.cells.map Cell.bytes).flatten
  let udp := beBytes 2 o.sport ++ beBytes 2 o.dport ++ beBytes 2 o.len ++ beBytes 2 0 ++ body
  o.dst == s.ownAddress && o.next == 17 && o.dport == s.fld Reg.FWD_SW Fld.FWD_SW_UDP_PORT && o.len == 8 + body.length &&
    o.sum == udpChecksum (beBytes 16 o.src) (beBytes 16 o.dst) udp

/-- Is sequence number `a` before `b`, modulo 2^32? -/
def psnBefore (a b : Nat) : Bool := let d := (b + 2 ^ 32 - a) % 2 ^ 32; d != 0 && decide (d < 2 ^ 31)

/-- CUM advances over marked packets; `fuel` bounds the run (R368). -/
def advanceCum : Nat → Nat → List Nat → Nat × List Nat
  | 0, cum, ms => (cum, ms)
  | fuel + 1, cum, ms => if ms.contains cum then advanceCum fuel ((cum + 1) % 2 ^ 32) (ms.filter (· != cum)) else (cum, ms)

/-- One more DATA packet of a connection to acknowledge (R368). -/
def RxConn.owe (c : RxConn) (now port : Nat) : RxConn :=
  { c with unacked := c.unacked + 1, since := if c.unacked = 0 then now else c.since, port := port }

/-- A DATA packet of the epoch a connection holds (R368): marked and its cells put into the ingress buffer, or discarded. -/
def State.swData (s : State) (port : Nat) (p : SwPacket) (c : RxConn) : State :=
  let put (s : State) (c : RxConn) : State := { s with fab := { s.fab with rx := tblSet p.srcGw c s.fab.rx } }
  if psnBefore p.psn c.cum || c.marks.contains p.psn then
    (put s (c.owe s.clock.elapsedNs port)).countWrap Reg.JT_CNT_SW Fld.JT_CNT_SW_SW_DUP 1
  else if 1024 ≤ (p.psn + 2 ^ 32 - c.cum) % 2 ^ 32 || decide (512 < (s.fab.ingress.filter fun e => e.1 == port).length + p.cells.length) then
    (put s c).swDiscard port
  else
    let r := advanceCum (c.marks.length + 1) c.cum (c.marks ++ [p.psn])
    let s := put s ({ c with cum := r.1, marks := r.2 }.owe s.clock.elapsedNs port)
    p.cells.foldl (fun s x =>
      if s.ptagOk x then { s with fab := { s.fab with ingress := s.fab.ingress ++ [(port, x)] } } else s.dropPtag port x) s

/-- SW_PACKET_RECEIVE: a DATA packet arrives on a switched port (R327, R368, R370). -/
def State.swPacketReceive (s : State) (q : Nat) (o : SwOuter) (p : SwPacket) : State :=
  let port := s.leadPort q
  if s.portRole port != 3 || !s.forwarding port then s
  else if !s.swAccepts o p 0 then s.swDiscard port
  else if !s.packetPtagOk p then s.dropPtag port (packetCell p)
  else match tblFind p.srcGw s.fab.rx with
    | some c =>
      if c.epoch = p.epoch then s.swData port p c
      else if p.psn = 0 then s.swData port p ⟨p.epoch, 0, [], 0, 0, port⟩
      else s.swDiscard port
    | none => if p.psn = 0 then s.swData port p ⟨p.epoch, 0, [], 0, 0, port⟩ else s.swDiscard port

/-- SACK of a connection (R366): bit i for PSN CUM + 1 + i. -/
def RxConn.sack (c : RxConn) : Nat :=
  joinChunks 1 ((List.range 64).map fun i => b2n (c.marks.contains ((c.cum + 1 + i) % 2 ^ 32)))

/-- SW_ACK_SEND: a connection is acknowledged after eight DATA packets, or 1 µs after the first unacknowledged one (R368). -/
def State.swAckSend (s : State) (src : Nat) : State :=
  match tblFind src s.fab.rx with
  | none => s
  | some c =>
    if 8 ≤ c.unacked || (decide (0 < c.unacked) && decide (c.since + 1000 ≤ s.clock.elapsedNs)) then
      let s : State := { s with fab := { s.fab with rx := tblSet src { c with unacked := 0 } s.fab.rx } }
      s.emitPacket c.port ⟨s.node, src, s.fld Reg.FWD_IDENT Fld.FWD_IDENT_PTAG, 0, c.cum, c.sack, c.epoch, []⟩ 1
    else s

/-- The retransmission timeout in nanoseconds (R371). -/
def State.rtoNs (s : State) : Nat := s.fld Reg.JT_SW Fld.JT_SW_RTO * 1000

/-- Send a held packet again (R369). -/
def State.resend (s : State) (gw : Nat) (conn : TxConn) (h : HeldPacket) (sack : Bool) : State :=
  let now := s.clock.elapsedNs
  let h : HeldPacket := { h with sent := now, tries := h.tries + 1, sackAt := if sack then some now else h.sackAt }
  let conn : TxConn := { conn with held := conn.held.map fun x => if x.psn = h.psn then h else x }
  let s : State := { s with fab := { s.fab with tx := tblSet gw conn s.fab.tx } }
  (s.countWrap Reg.JT_CNT_SW Fld.JT_CNT_SW_SW_RETX 1).emitPacket conn.port (s.dataPacket gw conn.epoch h.psn h.cells) 0

/-- SW_ACK_RECEIVE: an ACK packet frees what it acknowledges and has the packets it shows missing sent again, each at most once per
RTO (R369, R370). -/
def State.swAckReceive (s : State) (q : Nat) (o : SwOuter) (p : SwPacket) : State :=
  let port := s.leadPort q
  if s.portRole port != 3 || !s.forwarding port then s
  else if !s.swAccepts o p 1 then s.swDiscard port
  else if !s.packetPtagOk p then s.dropPtag port (packetCell p)
  else match tblFind p.srcGw s.fab.tx with
    | none => s
    | some conn =>
      if conn.epoch != p.epoch then s
      else
        let sacked (psn : Nat) : Bool :=
          let i := (psn + 2 ^ 32 - (p.cum + 1)) % 2 ^ 32
          decide (i < 64) && bitAt p.sack i
        let conn : TxConn := { conn with held := conn.held.filter fun h => !(psnBefore h.psn p.cum || sacked h.psn) }
        let s : State := { s with fab := { s.fab with tx := tblSet p.srcGw conn s.fab.tx } }
        let top := (List.range 64).foldl (fun m i => if bitAt p.sack i then i + 1 else m) 0
        let retries := s.fld Reg.JT_SW Fld.JT_SW_RETRIES
        conn.held.foldl (fun s h =>
          let missing := decide ((h.psn + 2 ^ 32 - p.cum) % 2 ^ 32 < top)
          let fresh := match h.sackAt with | none => true | some t => decide (t + s.rtoNs ≤ s.clock.elapsedNs)
          if missing && fresh && decide (h.tries < retries) then
            match tblFind p.srcGw s.fab.tx with
            | some c => s.resend p.srcGw c h true
            | none => s
          else s) s

/-- RTO_EXPIRE: a packet unacknowledged for RTO is sent again; after RETRIES retransmissions the connection is discarded and starts
a new epoch (R369, R370). -/
def State.rtoExpire (s : State) (gw psn : Nat) : State :=
  match tblFind gw s.fab.tx with
  | none => s
  | some conn =>
    match conn.held.find? fun h => h.psn == psn with
    | none => s
    | some h =>
      if s.clock.elapsedNs < h.sent + s.rtoNs then s
      else if h.tries < s.fld Reg.JT_SW Fld.JT_SW_RETRIES then s.resend gw conn h false
      else
        let conn' : TxConn := { conn with epoch := s.newEpoch (some conn.epoch), psn := 0, held := [] }
        let s : State := { s with fab := { s.fab with tx := tblSet gw conn' s.fab.tx } }
        s.fault (0x3013 + conn.port / 4 * 0x100) Code.pathLost none (gw + conn.port * 2 ^ 16)

-- Drift records ----------------------------------------------------------------------------------------------------

/-- PORT_n of a drift record (R331). -/
def State.driftPort (s : State) (p : Nat) : Nat :=
  let x := s.port p
  let occ := if s.fab.slots = 0 then 0 else min 255 (255 * x.occ / s.fab.slots)
  occ + min x.defl 65535 * 2 ^ 8 + min x.replays 255 * 2 ^ 24 + min x.uncorr 255 * 2 ^ 32 + s.portStage p * 2 ^ 40 +
    s.fld (Reg.FP_STATUS p) Fld.FP_STATUS_WIDTH * 2 ^ 44

/-- The 256 bytes of a drift record (R331). -/
def State.driftBytes (s : State) (window : Nat) : List Byte :=
  let n (k : Nat) : Nat := tblGetD k 0 s.fab.drift
  let c16 (v : Nat) : List Byte := leBytes 2 (min v 65535)
  (leBytes 1 1 ++ leBytes 1 s.winLog ++ leBytes 2 s.node ++ leBytes 2 (s.fld Reg.FWD_IDENT Fld.FWD_IDENT_PTAG) ++ leBytes 2 0 ++
   leBytes 8 window ++ c16 (n 0) ++ c16 (n 1) ++ c16 (n 2) ++ c16 (n 3) ++ c16 (n 4) ++ c16 (n 5) ++ c16 (n 6 / 1024) ++
   c16 (n 7) ++ ((List.range 16).map fun p => leBytes 8 (s.driftPort p)).flatten ++ List.replicate 256 0).take 256

/-- Port die 0 sends the drift record of a counter window, when enabled (R331). -/
def State.sendDrift (s : State) (window : Nat) (bytes : List Byte) : State :=
  if s.flag Reg.FWD_DRIFT Fld.FWD_DRIFT_ENABLE then
    let slot := window % 2 ^ s.fld Reg.FWD_DRIFT Fld.FWD_DRIFT_SLOTS_LOG2
    let a := nodeAddr (s.fld Reg.FWD_DRIFT Fld.FWD_DRIFT_FM_NODE) (s.fld Reg.FWD_DRIFT_BASE Fld.FWD_DRIFT_BASE_BASE + slot * 256)
    s.issueOp ⟨.port 0, Op.store, true, a, 256, 255, 0, false, false, false, bytes, .none⟩
  else s

end Sys2Proof.Machine
end

