-- ==== Sys2Proof/Machine/Operands.lean ====
section
/-! DEFINITION. How a command is answered: when it has its effect, what it cannot change, and the register writes whose row names a
register and its indices. -/

namespace Sys2Proof.Machine

/-- The parts of State that a command can change: every field but the queue. -/
inductive Part where
  | fuses | clock | tb | lock | present | regs | mem | marks | ecc | rsv | banks | chans | hg | fab
  | ports | cores | cls | col | tl | sw | boot | pwr | mg | flt | out | free
  deriving DecidableEq, Repr

/-- `t` within a scope: the parts the scope names are `t`'s and every other part, the queue among them, is `s`'s. Every meaning
names the parts its operations write, so a scope discards nothing: it says once, where a proof can use it, what a command leaves alone. -/
def State.keep (w : List Part) (s t : State) : State :=
  { fuses := if Part.fuses ∈ w then t.fuses else s.fuses
    clock := if Part.clock ∈ w then t.clock else s.clock
    tb := if Part.tb ∈ w then t.tb else s.tb
    lock := if Part.lock ∈ w then t.lock else s.lock
    present := if Part.present ∈ w then t.present else s.present
    regs := if Part.regs ∈ w then t.regs else s.regs
    mem := if Part.mem ∈ w then t.mem else s.mem
    marks := if Part.marks ∈ w then t.marks else s.marks
    ecc := if Part.ecc ∈ w then t.ecc else s.ecc
    rsv := if Part.rsv ∈ w then t.rsv else s.rsv
    banks := if Part.banks ∈ w then t.banks else s.banks
    chans := if Part.chans ∈ w then t.chans else s.chans
    hg := if Part.hg ∈ w then t.hg else s.hg
    fab := if Part.fab ∈ w then t.fab else s.fab
    ports := if Part.ports ∈ w then t.ports else s.ports
    cores := if Part.cores ∈ w then t.cores else s.cores
    cls := if Part.cls ∈ w then t.cls else s.cls
    col := if Part.col ∈ w then t.col else s.col
    tl := if Part.tl ∈ w then t.tl else s.tl
    sw := if Part.sw ∈ w then t.sw else s.sw
    boot := if Part.boot ∈ w then t.boot else s.boot
    pwr := if Part.pwr ∈ w then t.pwr else s.pwr
    mg := if Part.mg ∈ w then t.mg else s.mg
    flt := if Part.flt ∈ w then t.flt else s.flt
    out := if Part.out ∈ w then t.out else s.out
    free := if Part.free ∈ w then t.free else s.free
    pending := s.pending }

/-- Reporting: a register, a fault record and its way to the event ring, an answer. -/
def scopeReport : List Part := [.regs, .tl, .flt, .out]

/-- Accesses to the Reservoir storage and companion memory, with the error counting they can set off. -/
def scopeMemory : List Part := scopeReport ++ [.mem, .marks, .banks, .ecc, .hg, .ports, .cls, .free]

/-- The Reservoir dies besides. -/
def scopeReservoir : List Part := scopeMemory ++ [.rsv]

/-- Sluice channels besides. -/
def scopeSluice : List Part := scopeReservoir ++ [.chans]

/-- What a Sluice command of any requester can reach, a core's port among it. -/
def scopePort : List Part := scopeSluice ++ [.cores]

/-- Memory accesses that wake a core. -/
def scopeCompute : List Part := scopeMemory ++ [.cores]

/-- Fabric operations and what waits for them, the collective program among it. -/
def scopeFabric : List Part := scopeReservoir ++ [.fab, .cores, .col, .mg]

/-- What a set-up write can reach. -/
def scopeSetup : List Part := scopeFabric ++ [.fuses, .tb, .lock, .chans, .sw, .boot]

/-- Every part. -/
def scopeAll : List Part := scopeSetup ++ [.clock, .present, .pwr]

/-- Is the device powered and out of reset (R545, R547)? While it has tripped or RESET_N is low, only the sideband answers. -/
def State.live (s : State) : Bool := !s.pwr.trip && !s.pwr.resetLow

/-- A command that the device answers even while tripped or held in reset: its effect `f` within its scope `w`. -/
def State.answer (w : List Part) (f : State → State) (s : State) : Host.Outcome State Fault Refusal := .next (s.keep w (f s))

/-- A command that has its effect while the device is live (R545, R547), and none otherwise. -/
def State.act (w : List Part) (f : State → State) (s : State) : Host.Outcome State Fault Refusal :=
  if s.live then .next (s.keep w (f s)) else .next s

/-- A set-up write of the register that a row names: nothing where an index lies outside its range. -/
def State.rowWrite (s : State) (src : Source) (ok : Bool) (a : Nat) (v : Word) : State :=
  if ok then s.setupWriteAt src (setupBase + a) v.toNat [] [] else s

/-- COUNTER_WINDOW_CLOSE: the oldest window that has ended closes: buckets drain and limits start again, and the drift record leaves, none for
a cycle window (R92, R331, R492). After a change of WIN_LOG2 the numbers in between close one by one, or the count starts from the new
number when that lies lower (DESIGN CHOICE, log entry 41). -/
def State.windowClose (s : State) : State :=
  let w := s.tb.lastWindow
  if s.window < w then { s with tb := { s.tb with lastWindow := s.window } }
  else if w < s.window then
    let t : State := s.closeWindow
    let u : State := { t with tb := { t.tb with lastWindow := w + 1 } }
    if s.timeValid then u.sendDrift w (s.driftBytes w) else u
  else s

end Sys2Proof.Machine
end

