-- ==== Sys2Proof/Machine/ColProgram.lean ====
section
/-! DEFINITION. The collective program: reading SRC, the ring and direct algorithms, reduction, chunk transfer through the stage region, the
closing exchange and the outcome (R374, R380 to R399, R402). Its cores act while no command waits (log entry 42). -/

namespace Sys2Proof.Machine

-- Numbering --------------------------------------------------------------------------------------------------------

/-- The running collective's descriptor. -/
def State.colDesc (s : State) : ColDesc := ColDesc.ofWords s.col.desc

/-- Chunk bytes C and chunks p of a shard (R384). -/
def ColDesc.chunkBytes (d : ColDesc) : Nat := 2 ^ d.chunk
def ColDesc.p (d : ColDesc) : Nat := ceilDiv d.shard d.chunkBytes

/-- Bytes of the chunk with global index `k`; the last of a shard may be short (R384). -/
def ColDesc.chunkLen (d : ColDesc) (k : Nat) : Nat := min d.chunkBytes (d.shard - k % d.p * d.chunkBytes)

/-- Where chunk `k` stands in a buffer of one shard, and in one of all shards (R374, R384). -/
def ColDesc.inShard (d : ColDesc) (k : Nat) : Nat := k % d.p * d.chunkBytes
def ColDesc.inWhole (d : ColDesc) (k : Nat) : Nat := k / d.p * d.shard + d.inShard k

def ColDesc.reducing (d : ColDesc) : Bool := d.op == 1 || d.op == 2

/-- Header lines and ack words of a pair: SLOTS, or 8 in the fall-back (R385, R386). -/
def ColDesc.depth (d : ColDesc) : Nat := if d.slots = 0 then 8 else d.slots

/-- Does a member send its shards straight to their owners: the direct reduce-scatter of canonical mode (R380)? -/
def State.colDirect (s : State) : Bool := s.col.run.canon && s.colDesc.reducing

/-- The successor of the own slot, and the slot before it (R380). -/
def State.colNext (s : State) : Nat := (s.col.own + 1) % s.col.members
def State.colPrev (s : State) : Nat := (s.col.own + s.col.members - 1) % s.col.members

/-- The cluster that drives a chunk (R383). -/
def State.colDriver (s : State) (k : Nat) : Nat := nthD s.col.list (k % s.col.list.length) 0

/-- The chunks of a pair that a ring reduce-scatter, or a direct one, takes before its gather begins (R380, R386). -/
def State.gatherFrom (s : State) : Nat :=
  if !s.colDesc.reducing then 0 else if s.colDirect then s.colDesc.p else (s.col.members - 1) * s.colDesc.p

/-- How many chunks slot `x` sends to this member (R380). -/
def State.colExpects (s : State) (x : Nat) : Nat :=
  let d := s.colDesc
  let n := s.col.members
  let ring := if x = s.colPrev then (n - 1) * d.p else 0
  if x = s.col.own then 0
  else match d.op with
    | 1 => (if s.colDirect then d.p else ring) + ring
    | 2 => if s.colDirect then d.p else ring
    | 3 => if d.slots = 0 then d.p else ring
    | 4 =>
      if s.col.own = d.root then 0
      else if d.slots = 0 then (if x = d.root then n * d.p else 0)
      else if x = s.colPrev then n * d.p else 0
    | _ => 0

/-- Which chunk slot `x` sends with pair counter `t`, and its PHASE: 0 reduce, 1 gather, 2 broadcast (R380, R381, R387). A ring moves one
shard a round: towards its owner in a reduce-scatter, from its owner in a gather. -/
def State.colArriving (s : State) (x t : Nat) : Nat × Nat :=
  let d := s.colDesc
  let n := s.col.members
  let own := s.col.own
  if d.op = 4 then (t, 2)
  else if t < s.gatherFrom then
    if s.colDirect then (own * d.p + t, 0) else ((own + 2 * n - 2 - t / d.p) % n * d.p + t % d.p, 0)
  else if d.slots = 0 then (x * d.p + t, 1)
  else
    let u := t - s.gatherFrom
    ((own + 2 * n - 1 - u / d.p) % n * d.p + u % d.p, 1)

-- Changing the program's own state ---------------------------------------------------------------------------------

def State.onRun (s : State) (f : ColRun → ColRun) : State := { s with col := { s.col with run := f s.col.run } }

/-- The member's verdict becomes poisoned; the first cause stands (R389). -/
def State.colPoison (s : State) (cause : Nat) : State := s.onRun fun r => { r with cause := if r.cause = 0 then cause else r.cause }

/-- A chunk is ready to be sent (R386). -/
def State.colQueue (s : State) (peer t k phase : Nat) (data : List Byte) (poison : Bool) (src : Option Nat) : State :=
  let x : ColSend := { peer := peer, t := t, k := k, phase := phase, attempt := 0, data := data, poison := poison, src := src,
                       stage := .queued, lost := false, again := false, moved := false }
  s.onRun fun r => { r with sends := r.sends ++ [x] }

/-- Change the entry of one chunk sent, or take it out. -/
def State.colEdit (s : State) (x : ColSend) (f : ColSend → Option ColSend) : State :=
  let one (y : ColSend) : Option ColSend := if y.peer = x.peer ∧ y.t = x.t then f y else some y
  s.onRun fun r => { r with sends := r.sends.filterMap one }

/-- A DMA descriptor of the program completes on an engine of cluster `n`, one with the CRC flag setting CL_DMA_CRC (R386, R388). -/
def State.colDma (s : State) (n : Nat) (crc : Option (List Byte)) : State :=
  match crc with
  | some data => (s.setFld (Reg.CL_DMA_CRC n) Fld.CL_DMA_CRC_CRC0 (crc32c data)).dmaDone n 0
  | none => s.dmaDone n 0

-- Memory -----------------------------------------------------------------------------------------------------------

/-- Store bytes to a fabric address in operations of one line each (R336). -/
def State.colStore (s : State) (who : Requester) (addr : Nat → Nat) (data : List Byte) (poison : Bool) (sink : Sink) : State :=
  (pieces256 (data.length / 256 + 2) 0 data).foldl (fun s p =>
    s.issueOp ⟨who, Op.store, false, addr p.1, p.2.length, 255, 0, false, false, poison, p.2, sink⟩) s

/-- The fabric address of an offset of the stage region of a member's node: die view through node mode (R42, R385). -/
def State.stageAt (s : State) (slot o : Nat) : Nat :=
  let g := s.colDesc.region
  let x := (s.region g).place g o
  nodeAddr (s.slotNode slot) (dieOffset x.1 x.2)

/-- The staging slot of chunk `t` from sender `q`: by the sender wherever the collective has a direct reduce-scatter (R385; log entry 42). -/
def State.stageSlot (s : State) (sender t : Nat) : Nat :=
  let d := s.colDesc
  0x4_0000 + ((if s.colDirect then sender else 0) * d.slots + t % d.slots) * d.chunkBytes

/-- A word of this device's own stage region. -/
def State.stageBytes (s : State) (o n : Nat) : List Byte := s.peekLocal 2 (regionAddr s.colDesc.region o) n

/-- Is an operation of the program for a sink still open? -/
def State.colOpen (s : State) (sink : Sink) : Bool :=
  s.fab.opens.any (fun e => e.2.sink == sink) || s.fab.waiting.any fun w => w.op.sink == sink

/-- The chunks of SRC as this member reads it, each with its offset and length (R374, R384). -/
def State.srcChunks (s : State) : List (Nat × Nat) :=
  let d := s.colDesc
  match d.op with
  | 3 => (List.range d.p).map fun j => (d.inShard j, d.chunkLen j)
  | _ => if d.srcBytes s.col.members s.col.own = 0 then [] else
    (List.range (s.col.members * d.p)).map fun k => (d.inWhole k, d.chunkLen k)

/-- Read a piece of SRC (R374): at once from local memory, later through the fabric or from companion memory. -/
def State.colRead (s : State) (who : Requester) (off n : Nat) : State :=
  let a := s.colDesc.src + off
  if s.isFabric a then
    (spans256 (n / 256 + 2) a n).foldl (fun s p =>
      s.issueOp ⟨who, Op.load, false, p.1, p.2, 255, 0, false, false, false, [], .colSrc (p.1 - s.colDesc.src)⟩) s
  else match s.decode a with
    | .companion x => s.companionLoad who (x - companionBase) n (.colSrc off)
    | _ =>
      let (st, bs, s) := s.readLocal who a n
      s.colGot off (st != 0) bs

/-- SRC bytes as read: whether any of them is bad, and the bytes. -/
def State.srcPiece (s : State) (off n : Nat) : Bool × List Byte :=
  let ps := sortBy (fun a b => decide (a.1 ≤ b.1)) (s.col.run.src.filter fun e => decide (off ≤ e.1) && decide (e.1 < off + n))
  (ps.any fun e => e.2.1, (ps.map fun e => e.2.2).flatten)

/-- This member's contribution c(i) to chunk `k` of the whole (R381). -/
def State.contribution (s : State) (k : Nat) : Bool × List Byte := s.srcPiece (s.colDesc.inWhole k) (s.colDesc.chunkLen k)

/-- The address of chunk `k` in SRC, where it stands in local memory and can be read again (R389). -/
def State.srcAddr (s : State) (off : Nat) : Option Nat :=
  let a := s.colDesc.src + off
  match s.decode a with
  | .hbm _ | .rsv _ _ _ | .scratch _ _ => some a
  | _ => none

/-- Write chunk `k` of the result at offset `off` of DST, and keep the CRC that the writing DMA computes (R391). -/
def State.writeResult (s : State) (k off : Nat) (data : List Byte) : State :=
  let n := s.colDriver k
  let a := s.colDesc.dst + off
  let s := if s.isFabric a then s.colStore (.dma n 0) (fun o => a + o) data false .none else (s.writeData (.dma n 0) a data false).2
  (s.colDma n (some data)).onRun fun r => { r with crcs := tblSet k (crc32c data) r.crcs }

-- Reduction --------------------------------------------------------------------------------------------------------

/-- The vector unit's ADD of two chunks, element by element, with input and output in DTYPE (R247, R381). -/
def colAdd (dtype : Nat) (a b : List Byte) : List Byte :=
  let e := outBytes dtype
  ((List.range (a.length / e)).map fun i =>
    let x (bs : List Byte) : Nat := ofOut dtype (leNat (sliceOf bs (i * e) e))
    leBytes e (toOut dtype (add32 (x a) (x b)))).flatten

/-- The canonical sum red(0, n) of the contributions in slot order (R237, R382). -/
def colSum (dtype : Nat) (cs : List (List Byte)) : List Byte := redTree (colAdd dtype) [] (cs.length + 1) cs

/-- Where an owned chunk of a reduction goes in DST (R374). -/
def State.ownPlace (s : State) (k : Nat) : Nat := if s.colDesc.op = 1 then s.colDesc.inWhole k else s.colDesc.inShard k

/-- An owned chunk is complete: it is written, and in an ALL_REDUCE the gather takes it on (R374, R380). -/
def State.ownDone (s : State) (k : Nat) (data : List Byte) : State :=
  let s := s.writeResult k (s.ownPlace k) data
  if s.colDesc.op = 1 && decide (1 < s.col.members) then
    s.colQueue s.colNext (s.gatherFrom + k % s.colDesc.p) k 1 data false none
  else s

/-- Once every contribution to owned chunk `j` of a direct reduce-scatter has arrived, the owner sums them (R382). -/
def State.sumChunk (s : State) (j : Nat) : State :=
  let k := s.col.own * s.colDesc.p + j
  let (bad, mine) := s.contribution k
  let part (x : Nat) : Option (List Byte) :=
    if x = s.col.own then some mine else (s.col.run.parts.find? fun e => e.1 == (x, j)).map fun e => e.2
  let cs := (List.range s.col.members).filterMap part
  if cs.length < s.col.members then s
  else if bad then s.colPoison 2
  else (s.ownDone k (colSum s.colDesc.dtype cs)).onRun fun r => { r with parts := r.parts.filter fun e => e.1.2 != j }

-- Beginning --------------------------------------------------------------------------------------------------------

/-- Queue chunk `k` of SRC, which stands at offset `off` there, for a receiver. -/
def State.queueSrc (s : State) (peer t k phase off : Nat) : State :=
  let (bad, data) := s.srcPiece off (s.colDesc.chunkLen k)
  s.colQueue peer t k phase data bad (s.srcAddr off)

/-- The other slots. -/
def State.colOthers (s : State) : List Nat := (List.range s.col.members).filter (· != s.col.own)

/-- The shard with which a reduction begins at this member (R380, R381): in a ring that of the slot before it, sent to the successor; in a
direct reduce-scatter each shard, to its slot. -/
def State.beginReduce (s : State) : State :=
  let d := s.colDesc
  let send (s : State) (peer shard : Nat) : State :=
    (List.range d.p).foldl (fun s j => s.queueSrc peer j (shard * d.p + j) 0 (d.inWhole (shard * d.p + j))) s
  if s.col.members = 1 then
    (List.range d.p).foldl (fun s k =>
      let (bad, data) := s.contribution k
      if bad then s.colPoison 2 else s.ownDone k data) s
  else if s.colDirect then s.colOthers.foldl (fun s x => send s x x) s
  else send s s.colNext s.colPrev

/-- What this member gives a gather or a broadcast: chunks of its SRC, written to its own DST and sent on by the ring, or in the fall-back to
every member (R374, R380). -/
def State.beginGive (s : State) (phase : Nat) (chunks : List (Nat × Nat)) : State :=
  let peers := if s.col.members = 1 then [] else if s.colDesc.slots = 0 then s.colOthers else [s.colNext]
  chunks.zipIdx.foldl (fun s e =>
    let k := e.1.1
    let (bad, data) := s.srcPiece e.1.2 (s.colDesc.chunkLen k)
    let s := if bad then s.colPoison 2 else s.writeResult k (s.colDesc.inWhole k) data
    peers.foldl (fun s x => s.queueSrc x e.2 k phase e.1.2) s) s

/-- The first sends, and what is written at once, when SRC has been read (R374, R380). -/
def State.colBegin (s : State) : State :=
  let d := s.colDesc
  match d.op with
  | 1 | 2 => s.beginReduce
  | 3 => s.beginGive 1 ((List.range d.p).map fun j => (s.col.own * d.p + j, d.inShard j))
  | 4 => if s.col.own = d.root then s.beginGive 2 ((List.range (s.col.members * d.p)).map fun k => (k, d.inWhole k)) else s
  | _ => s

-- Taking chunks ----------------------------------------------------------------------------------------------------

/-- A chunk taken good is used (R380 to R382): summed, written, and passed on where the ring goes on. -/
def State.useChunk (s : State) (x t : Nat) (data : List Byte) : State :=
  let d := s.colDesc
  let (k, phase) := s.colArriving x t
  if phase = 0 then
    if s.colDirect then (s.onRun fun r => { r with parts := r.parts ++ [((x, k % d.p), data)] }).sumChunk (k % d.p)
    else
      let (bad, mine) := s.contribution k
      let sum := colAdd d.dtype data mine
      if bad then s.colPoison 2
      else if k / d.p = s.col.own then s.ownDone k sum
      else s.colQueue s.colNext (t + d.p) k 0 sum false none
  else if d.slots = 0 then s.onRun fun r => { r with crcs := tblSet k (crc32c data) r.crcs }
  else
    let s := s.writeResult k (d.inWhole k) data
    let on := if phase = 2 then s.colNext != d.root else decide (t < s.gatherFrom + (s.col.members - 2) * d.p)
    if on then s.colQueue s.colNext (if phase = 2 then t else t + d.p) k phase data false none else s

/-- A chunk header (R387). -/
def State.chunkHeader (s : State) (x : ColSend) : List Byte :=
  leBytes 8 s.colDesc.epoch ++ leBytes 4 s.colSeq ++ leBytes 4 x.t ++ leBytes 4 x.k ++ leBytes 4 x.data.length ++
  leBytes 4 (crc32c x.data) ++ leBytes 1 s.col.own ++ leBytes 1 (x.phase + x.attempt % 16 * 16) ++ leBytes 34 0

/-- The ack word of a chunk (R388). -/
def ackWord (t result attempt seq : Nat) : Nat := t + result * 2 ^ 32 + attempt * 2 ^ 40 + seq % 2 ^ 16 * 2 ^ 48

/-- Does a ring step of this number still run while a preemption request stands (R398)? -/
def State.colStepRuns (s : State) (t : Nat) : Bool :=
  !(s.col.list.any fun n => (s.cluster n).stop) || decide (t < s.col.run.steps)

/-- Take the next header from slot `x`, when it stands in its line and belongs to the running collective (R388): read the payload, compare
its CRC, use the chunk when it is good, and acknowledge it. A header already answered as bad is not taken again. -/
def State.colTake (s : State) (x : Nat) : State :=
  let d := s.colDesc
  let (t, judged) := tblGetD x (0, none) s.col.run.took
  let h := s.stageBytes (0x8000 + 512 * x + 64 * (t % d.depth)) 64
  let f (o n : Nat) : Nat := leNat (sliceOf h o n)
  let attempt := f 29 1 / 16
  if s.colExpects x ≤ t || !s.colStepRuns t || f 0 8 != d.epoch || f 8 4 != s.colSeq || f 12 4 != t || judged == some attempt then s
  else
    let (k, _) := s.colArriving x t
    let n := s.colDriver k
    let a := if d.slots = 0 then d.dst + d.inWhole k else regionAddr d.region (s.stageSlot x t)
    let (st, data, s) := s.readLocal (.dma n 0) a (min (f 20 4) d.chunkBytes)
    let s := s.colDma n (some data)
    let result := if st != 0 then 2 else if crc32c data != f 24 4 || data.length != d.chunkLen k then 1 else 0
    let s := s.onRun fun r => { r with
      took := tblSet x (if result = 0 then (t + 1, none) else (t, some attempt)) r.took, steps := max r.steps (t + 1) }
    let s := if result = 0 then s.useChunk x t data else if result = 2 then s.colPoison 2 else s
    (s.colStore (.dma n 0) (fun o => s.stageAt x (0x4000 + 64 * s.col.own + 8 * (t % d.depth) + o))
      (leBytes 8 (ackWord t result attempt s.colSeq)) false .none).colDma n none

-- Sending chunks ---------------------------------------------------------------------------------------------------

/-- Store a chunk into its staging slot at the receiver, or in the fall-back into the receiver's DST (R386; log entry 42). -/
def State.sendData (s : State) (x : ColSend) : State :=
  let d := s.colDesc
  let n := s.colDriver x.k
  let at_ (o : Nat) : Nat := if d.slots = 0 then nodeAddr (s.slotNode x.peer) (d.dst + d.inWhole x.k + o)
    else s.stageAt x.peer (s.stageSlot s.col.own x.t + o)
  (s.colStore (.dma n 0) at_ x.data x.poison (.colChunk x.peer x.t)).colDma n (some x.data)

/-- Send a chunk again into the same slot (R389, R399). -/
def State.sendChunkAgain (s : State) (x : ColSend) (attempt : Nat) : State :=
  let s := s.colEdit x fun y => some { y with attempt := attempt, stage := .storing, lost := false, again := true, moved := false }
  (s.onRun fun r => { r with resends := r.resends + 1 }).sendData x

/-- An attempt has failed (R389): RESEND_MAX failures, or a retained source that now reads bad, poison the verdict; else it is sent again. -/
def State.attemptFailed (s : State) (x : ColSend) : State :=
  if s.fld Reg.COL_CTRL Fld.COL_CTRL_RESEND_MAX ≤ x.attempt + 1 then (s.colPoison 1).colEdit x fun _ => none
  else
    let (st, s) := match x.src with
      | some a => let (st, _, s) := s.readLocal (.dma (s.colDriver x.k) 0) a x.data.length; (st, s)
      | none => (0, s)
    if st != 0 || x.poison then (s.colPoison 2).colEdit x fun _ => none else s.sendChunkAgain x (x.attempt + 1)

/-- May a chunk be sent now: it is the next for its receiver, its slot and header line have been acknowledged (R386), and its ring step
runs (R398)? -/
def State.maySend (s : State) (x : ColSend) : Bool :=
  let d := s.colDesc
  let w := leNat (s.stageBytes (0x4000 + 64 * x.peer + 8 * (x.t % d.depth)) 8)
  x.t == tblGetD x.peer 0 s.col.run.next && s.colStepRuns x.t &&
  (decide (x.t < d.depth) || (bitsOf w 0 32 == x.t - d.depth && bitsOf w 48 16 == s.colSeq % 2 ^ 16)) &&
  !(s.col.run.sends.any fun y => y.peer == x.peer && y.stage != .queued && y.t % d.depth == x.t % d.depth)

/-- The header of a chunk whose data stores have all closed is stored and the chunk counted (R386, R387, R400, R401). -/
def State.sendHeader (s : State) (x : ColSend) : State :=
  let n := s.colDriver x.k
  let s := s.colEdit x fun y => some { y with stage := .header }
  let line := 0x8000 + 512 * s.col.own + 64 * (x.t % s.colDesc.depth)
  let s := (s.colStore (.dma n 0) (fun o => s.stageAt x.peer (line + o)) (s.chunkHeader x) false (.colChunk x.peer x.t)).colDma n none
  let s := s.countWrap Reg.COL_CNT_CHUNK Fld.COL_CNT_CHUNK_SENT 1
  let s := if x.again then s.countWrap Reg.COL_CNT_CHUNK Fld.COL_CNT_CHUNK_RESENT 1 else s
  s.countWrap (Reg.COL_CL_STAT n) Fld.COL_CL_STAT_CHUNKS 1

/-- One chunk at its sender moves on as far as it can (R386 to R389). -/
def State.colSend (s : State) (x : ColSend) : State :=
  if x.stage = .queued then
    if s.maySend x then
      ((s.colEdit x fun y => some { y with stage := .storing }).onRun fun r =>
        { r with next := tblSet x.peer (x.t + 1) r.next, steps := max r.steps (x.t + 1) }).sendData x
    else s
  else if s.colOpen (.colChunk x.peer x.t) then s
  else if x.moved then s.sendChunkAgain x x.attempt
  else if x.lost then s.attemptFailed x
  else if x.stage = .storing then s.sendHeader x
  else
    let w := leNat (s.stageBytes (0x4000 + 64 * x.peer + 8 * (x.t % s.colDesc.depth)) 8)
    if bitsOf w 0 32 != x.t || bitsOf w 40 8 != x.attempt || bitsOf w 48 16 != s.colSeq % 2 ^ 16 then s
    else if bitsOf w 32 8 = 1 then s.attemptFailed x
    else s.colEdit x fun _ => none

-- Closing ----------------------------------------------------------------------------------------------------------

/-- The closing digest of some chunks of the result (R391). -/
def State.colDigest (s : State) (ks : List Nat) : Nat :=
  sumNats (ks.map fun k => th64 (tblGetD k 0 s.col.run.crcs) (0x2000_0000_0000_0000 ||| k)) % 2 ^ 64

/-- The chunks of the whole result, and DIGEST_OWN (R374). -/
def State.allChunks (s : State) : List Nat := List.range (s.col.members * s.colDesc.p)
def State.digestOwn (s : State) : Nat :=
  let d := s.colDesc
  match d.op with
  | 4 => if s.col.own = d.root then s.colDigest s.allChunks else 0
  | 5 => 0
  | _ => s.colDigest (rangeFrom (s.col.own * d.p) d.p)

/-- The closing record (R392). -/
def State.closingRecord (s : State) : List Byte :=
  let r := s.col.run
  leBytes 8 s.colDesc.epoch ++ leBytes 4 s.colSeq ++ leBytes 1 (if r.cause = 0 then 0 else Code.collectivePoisoned) ++ leBytes 1 r.cause ++
  leBytes 2 (min r.resends 65535) ++ leBytes 8 s.digestOwn ++ leBytes 8 r.finish ++ leBytes 8 r.hash ++ leBytes 24 0

/-- The number a held closing record of a slot has at an offset. -/
def State.closingField (s : State) (slot o n : Nat) : Nat := leNat (sliceOf (s.closing slot) o n)

/-- Does a held closing record carry a poisoned verdict? -/
def State.closingPoisoned (s : State) (slot : Nat) : Bool := s.closingHeld slot && s.closingField slot 12 1 == Code.collectivePoisoned

/-- Has the member's data phase ended (R392): all chunks it sent are acknowledged and all it expects are used, or a verdict is poisoned
already, its own or one it holds (R402; log entry 42)? -/
def State.dataEnded (s : State) : Bool :=
  let r := s.col.run
  r.cause != 0 || (List.range s.col.members).any s.closingPoisoned ||
  (r.sends.isEmpty && (List.range s.col.members).all fun x => decide (s.colExpects x ≤ (tblGetD x (0, none) r.took).1))

/-- Store the closing record into the closing table of every member that lacks it, the own one included (R392). -/
def State.sendClosings (s : State) : State :=
  ((List.range s.col.members).filter fun i => !s.col.run.out.contains i && !s.col.run.closed.contains i).foldl (fun s i =>
    let n := s.col.list.headD 0
    let t := (s.onRun fun r => { r with out := r.out ++ [i] }).colDma n none
    t.colStore (.dma n 0) (fun o => t.stageAt i (64 * t.col.own + o)) t.closingRecord false (.colClosing i)) s

/-- Does the closing check of R374 hold? -/
def State.closingCheck (s : State) : Bool :=
  let owns := (List.range s.col.members).map fun i => s.closingField i 16 8
  match s.colDesc.op with
  | 1 | 3 => s.colDigest s.allChunks == sumNats owns % 2 ^ 64
  | 4 => s.colDigest s.allChunks == s.closingField s.colDesc.root 16 8
  | _ => true

/-- The outcome once every record is held (R393). -/
def State.colOutcome (s : State) : Nat :=
  let slots := List.range s.col.members
  if slots.any s.closingPoisoned || (slots.any fun i => s.closingField i 32 8 != s.col.run.hash) || !s.closingCheck then
    Code.collectivePoisoned
  else Code.ok

/-- The laggard and MAX_SKEW, saturating (R395). -/
def State.colSkew (s : State) : Nat × Nat :=
  let fs := (List.range s.col.members).map fun i => s.closingField i 24 8
  let top := fs.foldl max 0
  (fs.idxOf top, min (top - fs.foldl min top) (2 ^ 32 - 1))

/-- The programs report the end of their parts: the lead's COL_FINISH_RES and COL_FINISH carry the outcome (R396). -/
def State.colReport (s : State) : State :=
  let (lag, skew) := s.colSkew
  let lead := s.col.list.headD 0
  let resends := sumNats ((List.range s.col.members).map fun i => s.closingField i 14 2)
  let v := s.colOutcome + lag * 2 ^ 8 + skew * 2 ^ 16
  s.col.list.foldl (fun s n => s.colFinish n (if n = lead then v else 0)) (s.colFinishRes lead resends)

-- The program ------------------------------------------------------------------------------------------------------

/-- Does the program run: each cluster of the launch list has a running core, and every running core of them has taken the interrupt
(R379; log entry 42)? -/
def State.colReady (s : State) : Bool :=
  (s.col.list.all fun n => (List.range 4).any fun k => s.coreRuns (4 * n + k)) &&
  s.colCores.all fun i => !s.coreRuns i || s.col.run.cores.contains i

/-- One pass of the collective program over its work (R380 to R396). -/
def State.colPass (s : State) : State :=
  let s := s.colEnter
  if !s.colReady then s
  else match s.col.run.phase with
    | .waiting =>
      s.srcChunks.zipIdx.foldl (fun s e => s.colRead (.dma (s.colDriver e.2) 0) e.1.1 e.1.2)
        (s.onRun fun r => { r with phase := .reading })
    | .reading =>
      if sumNats (s.col.run.src.map fun e => e.2.2.length) < s.colDesc.srcBytes s.col.members s.col.own then s
      else (s.onRun fun r => { r with phase := .moving }).colBegin
    | .moving =>
      let s := (List.range s.col.members).foldl State.colTake s
      let s := s.col.run.sends.foldl (fun s x =>
        match s.col.run.sends.find? fun y => y.peer == x.peer && y.t == x.t with
        | some y => s.colSend y
        | none => s) s
      if s.dataEnded then (s.onRun fun r => { r with phase := .closing, finish := s.ftNow }).sendClosings else s
    | .closing =>
      let s := s.sendClosings
      let slots := List.range s.col.members
      if slots.all fun i => s.closingHeld i && s.col.run.closed.contains i then s.colReport else s

/-- What the collective program can reach. -/
def scopeProgram : List Part := scopeFabric ++ [.chans, .sw]

/-- What the block does while no command waits: the collective program's cores work, when they run one (log entries 3 and 42). -/
def State.idle (s : State) : State :=
  if s.live && s.colBusy && s.col.raised.isSome then s.keep scopeProgram s.colPass.afterClose else s

end Sys2Proof.Machine
end

