-- ==== Sys2Proof/Machine/RunBoot.lean ====
section
/-! DEFINITION. The meanings of the commands of reset release and recovery, each its own definition over the shared operations. -/

namespace Sys2Proof.Machine

/-- RESET_RELEASE (R514). -/
def execResetRelease (found : BootInput) (s : State) : Host.Outcome State Fault Refusal :=
  State.answer [.regs, .mem, .marks, .ecc, .ports, .boot, .pwr, .free] (fun s => s.resetRelease found) s

/-- RECOVERY_GO (R518). -/
def execRecoveryGo (src : Source) (value : Word) (image program : List Byte) (s : State) : Host.Outcome State Fault Refusal :=
  State.act [.regs, .ecc, .ports, .boot, .flt, .free] (fun s =>
    s.setupWriteAt src (setupBase + Reg.SEC_RECOVERY_CTRL) value.toNat image program) s

/-- SEC_SVN_BURN_WRITE (R519). -/
def execSecSvnBurnWrite (src : Source) (value : Word) (s : State) : Host.Outcome State Fault Refusal :=
  State.act [.fuses, .regs, .flt] (fun s => s.rowWrite src (true) (Reg.SEC_SVN_BURN) value) s

end Sys2Proof.Machine
end

