-- ==== Sys2Proof/Machine/RunCluster.lean ====
section
/-! DEFINITION. The meanings of the commands of cores, tiles, buffers and DMA, each its own definition over the shared operations. -/

namespace Sys2Proof.Machine

/-- CL_CORE_RUN_WRITE (R215). -/
def execClCoreRunWrite (src : Source) (cluster : Nat) (value : Word) (s : State) : Host.Outcome State Fault Refusal :=
  State.act (scopeReport ++ [.cores, .fab]) (fun s => s.rowWrite src (decide (cluster < 32)) (Reg.CL_CORE_RUN cluster) value) s

/-- FENCE (R353). -/
def execFence (who : Requester) (s : State) : Host.Outcome State Fault Refusal :=
  State.act (scopeReport ++ [.cores]) (fun s => s.fence who) s

/-- AMO (R356). -/
def execAmo (who : Requester) (op : AmoOp) (wide : Bool) (rd rs1 rs2 : Nat) (s : State) : Host.Outcome State Fault Refusal :=
  State.act scopeFabric (fun s => s.amo who op wide rd rs1 rs2) s

/-- LR_SC (R356). -/
def execLrSc (who : Requester) (rs1 : Nat) (s : State) : Host.Outcome State Fault Refusal :=
  State.act (scopeReport ++ [.cores]) (fun s => s.lrSc who rs1) s

/-- CL_ATOM_CTRL_WRITE (R357). -/
def execClAtomCtrlWrite (cluster k : Nat) (value : Word) (s : State) : Host.Outcome State Fault Refusal :=
  State.act scopeFabric (fun s => s.atomCtrl cluster k value.toNat) s

/-- TILE_CMD_PUSH (R230). -/
def execTileCmdPush (cluster k off : Nat) (words : List Nat) (s : State) : Host.Outcome State Fault Refusal :=
  State.act [.regs, .cls] (fun s => s.tilePush cluster k off words) s

/-- MATMUL (R231). -/
def execMatmul (cluster : Nat) (accBad : Bool) (s : State) : Host.Outcome State Fault Refusal :=
  State.act scopeCompute (fun s => s.matmul cluster accBad) s

/-- TILE_RETIRE (R234). -/
def execTileRetire (cluster : Nat) (s : State) : Host.Outcome State Fault Refusal :=
  State.act (scopeReport ++ [.cores, .cls]) (fun s => s.tileRetire cluster) s

/-- TILE_BOUNDARY (R235). -/
def execTileBoundary (cluster : Nat) (s : State) : Host.Outcome State Fault Refusal :=
  State.act (scopeFabric ++ [.present, .chans, .sw, .boot]) (fun s => (s.tileBoundary cluster).tearNext.mgPump) s

/-- FILL_BEGIN (R218). -/
def execFillBegin (cluster buffer : Nat) (s : State) : Host.Outcome State Fault Refusal :=
  State.act [.regs, .flt] (fun s => s.fillBegin cluster buffer) s

/-- FILL_END (R218). -/
def execFillEnd (cluster buffer : Nat) (s : State) : Host.Outcome State Fault Refusal :=
  State.act [.regs, .flt] (fun s => s.fillEnd cluster buffer) s

/-- FREE (R218). -/
def execFree (cluster buffer : Nat) (s : State) : Host.Outcome State Fault Refusal :=
  State.act [.regs, .flt] (fun s => s.freeBuf cluster buffer) s

/-- CL_BUF_WRITE (R220). -/
def execClBufWrite (src : Source) (cluster buffer : Nat) (value : Word) (s : State) : Host.Outcome State Fault Refusal :=
  State.act [.regs, .flt] (fun s => s.rowWrite src (decide (cluster < 32) && decide (buffer < 255)) (Reg.CL_BUF cluster buffer) value) s

/-- DMA_PUSH (R221). -/
def execDmaPush (cluster engine k off : Nat) (words : List Nat) (s : State) : Host.Outcome State Fault Refusal :=
  State.act [.regs, .cls] (fun s => s.dmaPush cluster engine k off words) s

/-- DMA_START (R221). -/
def execDmaStart (cluster engine : Nat) (s : State) : Host.Outcome State Fault Refusal :=
  State.act scopeFabric (fun s => s.dmaStart cluster engine) s

/-- DMA_COMPLETE (R221). -/
def execDmaComplete (cluster engine : Nat) (s : State) : Host.Outcome State Fault Refusal :=
  State.act (scopeReport ++ [.cores, .cls]) (fun s => s.dmaComplete cluster engine) s

end Sys2Proof.Machine
end

