-- ==== Sys2Proof/Machine/RunCollective.lean ====
section
/-! DEFINITION. The meanings of the commands of collectives, each its own definition over the shared operations. -/

namespace Sys2Proof.Machine

/-- ALL_REDUCE (R374). -/
def execAllReduce (who : Requester) (off : Nat) (words : List Nat) (s : State) : Host.Outcome State Fault Refusal :=
  State.act [.regs, .col, .flt] (fun s => s.allReduce who off words) s

/-- REDUCE_SCATTER (R374). -/
def execReduceScatter (who : Requester) (off : Nat) (words : List Nat) (s : State) : Host.Outcome State Fault Refusal :=
  State.act [.regs, .col, .flt] (fun s => s.reduceScatter who off words) s

/-- ALL_GATHER (R374). -/
def execAllGather (who : Requester) (off : Nat) (words : List Nat) (s : State) : Host.Outcome State Fault Refusal :=
  State.act [.regs, .col, .flt] (fun s => s.allGather who off words) s

/-- BROADCAST (R374). -/
def execBroadcast (who : Requester) (off : Nat) (words : List Nat) (s : State) : Host.Outcome State Fault Refusal :=
  State.act [.regs, .col, .flt] (fun s => s.broadcast who off words) s

/-- BARRIER (R374). -/
def execBarrier (who : Requester) (off : Nat) (words : List Nat) (s : State) : Host.Outcome State Fault Refusal :=
  State.act [.regs, .col, .flt] (fun s => s.barrier who off words) s

/-- COLLECTIVE_INTERRUPT (R379). -/
def execCollectiveInterrupt (s : State) : Host.Outcome State Fault Refusal :=
  State.act (scopeReport ++ [.cores, .col]) (fun s => s.colInterrupt) s

/-- COL_FINISH (R396). -/
def execColFinish (cluster : Nat) (value : Word) (s : State) : Host.Outcome State Fault Refusal :=
  State.act (scopeSluice ++ [.cores, .col, .sw]) (fun s => s.colFinish cluster value.toNat) s

/-- COLLECTIVE_DEADLINE (R393). -/
def execCollectiveDeadline (s : State) : Host.Outcome State Fault Refusal :=
  State.act (scopeSluice ++ [.cores, .col, .sw]) (fun s => s.colDeadline) s

end Sys2Proof.Machine
end

