-- ==== Sys2Proof/Machine/RunFabric.lean ====
section
/-! DEFINITION. The meanings of the commands of loads, stores and atomics, each its own definition over the shared operations. -/

namespace Sys2Proof.Machine

/-- LOAD_ISSUE (R343). -/
def execLoadIssue (who : Requester) (mgmt : Bool) (addr : Word) (len : Nat) (sink : Sink) (s : State) : Host.Outcome State Fault
    Refusal :=
  State.act scopeFabric (fun s => s.engineLoad who mgmt addr.toNat len sink) s

/-- STORE_ISSUE (R343). -/
def execStoreIssue (who : Requester) (mgmt : Bool) (addr : Word) (be : Nat) (data : List Byte) (poison : Bool) (ilen : Nat) (s : State)
    : Host.Outcome State Fault Refusal :=
  State.act scopeSetup (fun s => s.engineStore who mgmt addr.toNat be data poison ilen) s

/-- ATOMIC_ISSUE (R343). -/
def execAtomicIssue (who : Requester) (mgmt : Bool) (addr : Word) (aop : Nat) (wide signed : Bool) (operand swap : Word) (sink : Sink)
    (s : State) : Host.Outcome State Fault Refusal :=
  State.act scopeFabric (fun s => s.atomicIssue who mgmt addr.toNat aop wide signed operand.toNat swap.toNat sink) s

/-- LOAD (R349). -/
def execLoad (die : Nat) (s : State) : Host.Outcome State Fault Refusal :=
  State.act (scopeMemory ++ [.fab]) (fun s => if die < 4 then s.serveLoadCell die else s) s

/-- STORE (R349). -/
def execStore (die : Nat) (s : State) : Host.Outcome State Fault Refusal :=
  State.act scopeFabric (fun s => if die < 4 then s.serveStoreCell die else s) s

/-- ATOMIC_ADD (R354). -/
def execAtomicAdd (die : Nat) (s : State) : Host.Outcome State Fault Refusal :=
  State.act (scopeReservoir ++ [.fab]) (fun s => if die < 4 then s.serveAtomicCell die 0 else s) s

/-- ATOMIC_MIN (R354). -/
def execAtomicMin (die : Nat) (s : State) : Host.Outcome State Fault Refusal :=
  State.act (scopeReservoir ++ [.fab]) (fun s => if die < 4 then s.serveAtomicCell die 1 else s) s

/-- ATOMIC_MAX (R354). -/
def execAtomicMax (die : Nat) (s : State) : Host.Outcome State Fault Refusal :=
  State.act (scopeReservoir ++ [.fab]) (fun s => if die < 4 then s.serveAtomicCell die 2 else s) s

/-- ATOMIC_AND (R354). -/
def execAtomicAnd (die : Nat) (s : State) : Host.Outcome State Fault Refusal :=
  State.act (scopeReservoir ++ [.fab]) (fun s => if die < 4 then s.serveAtomicCell die 3 else s) s

/-- ATOMIC_OR (R354). -/
def execAtomicOr (die : Nat) (s : State) : Host.Outcome State Fault Refusal :=
  State.act (scopeReservoir ++ [.fab]) (fun s => if die < 4 then s.serveAtomicCell die 4 else s) s

/-- ATOMIC_XOR (R354). -/
def execAtomicXor (die : Nat) (s : State) : Host.Outcome State Fault Refusal :=
  State.act (scopeReservoir ++ [.fab]) (fun s => if die < 4 then s.serveAtomicCell die 5 else s) s

/-- ATOMIC_SWAP (R354). -/
def execAtomicSwap (die : Nat) (s : State) : Host.Outcome State Fault Refusal :=
  State.act (scopeReservoir ++ [.fab]) (fun s => if die < 4 then s.serveAtomicCell die 6 else s) s

/-- ATOMIC_CAS (R354). -/
def execAtomicCas (die : Nat) (s : State) : Host.Outcome State Fault Refusal :=
  State.act (scopeReservoir ++ [.fab]) (fun s => if die < 4 then s.serveAtomicCell die 7 else s) s

/-- ATOMIC_FADD (R354). -/
def execAtomicFadd (die : Nat) (s : State) : Host.Outcome State Fault Refusal :=
  State.act (scopeReservoir ++ [.fab]) (fun s => if die < 4 then s.serveAtomicCell die 8 else s) s

/-- ATOMIC_BADD2 (R354). -/
def execAtomicBadd2 (die : Nat) (s : State) : Host.Outcome State Fault Refusal :=
  State.act (scopeReservoir ++ [.fab]) (fun s => if die < 4 then s.serveAtomicCell die 9 else s) s

/-- LOAD_RSP (R350). -/
def execLoadRsp (die : Nat) (s : State) : Host.Outcome State Fault Refusal :=
  State.act scopeFabric (fun s => if die < 4 then (s.takeLoadRsp die).mgPump else s) s

/-- ATOMIC_RSP (R350). -/
def execAtomicRsp (die : Nat) (s : State) : Host.Outcome State Fault Refusal :=
  State.act scopeFabric (fun s => if die < 4 then (s.takeAtomicRsp die).mgPump else s) s

/-- ACK (R339). -/
def execAck (die : Nat) (s : State) : Host.Outcome State Fault Refusal :=
  State.act scopeFabric (fun s => if die < 4 then (s.takeAck die).mgPump else s) s

/-- ACK_DELAY_EXPIRE (R349). -/
def execAckDelayExpire (die source : Nat) (s : State) : Host.Outcome State Fault Refusal :=
  State.act [.fab] (fun s => s.ackDelayExpire die source) s

/-- T_DEAD_EXPIRE (R358). -/
def execTDeadExpire (tag : Nat) (s : State) : Host.Outcome State Fault Refusal :=
  State.act scopeFabric (fun s => (s.deadExpire tag).mgPump) s

end Sys2Proof.Machine
end

