-- ==== Sys2Proof/Machine/RunFlume.lean ====
section
/-! DEFINITION. The meanings of the commands of the Flume, each its own definition over the shared operations. -/

namespace Sys2Proof.Machine

/-- FLUME_CMD_PUSH (R273). -/
def execFlumeCmdPush (cluster k off : Nat) (words : List Nat) (s : State) : Host.Outcome State Fault Refusal :=
  State.act [.regs, .cls] (fun s => s.flmPush cluster k off words) s

/-- GATHER (R276). -/
def execGather (cluster : Nat) (s : State) : Host.Outcome State Fault Refusal :=
  State.act (scopeReservoir ++ [.cores]) (fun s => s.flmIssue cluster 1) s

/-- COMPACT (R277). -/
def execCompact (cluster : Nat) (s : State) : Host.Outcome State Fault Refusal :=
  State.act (scopeReservoir ++ [.cores]) (fun s => s.flmIssue cluster 2) s

/-- MASK (R278). -/
def execMask (cluster : Nat) (s : State) : Host.Outcome State Fault Refusal :=
  State.act (scopeReservoir ++ [.cores]) (fun s => s.flmIssue cluster 3) s

/-- CHECK (R278). -/
def execCheck (cluster : Nat) (s : State) : Host.Outcome State Fault Refusal :=
  State.act (scopeReservoir ++ [.cores]) (fun s => s.flmIssue cluster 4) s

/-- MERGE (R278). -/
def execMerge (cluster : Nat) (s : State) : Host.Outcome State Fault Refusal :=
  State.act (scopeReservoir ++ [.cores]) (fun s => s.flmIssue cluster 5) s

/-- FLUME_COMPLETE (R273). -/
def execFlumeComplete (cluster : Nat) (s : State) : Host.Outcome State Fault Refusal :=
  State.act (scopeReport ++ [.cores, .cls]) (fun s => s.flmComplete cluster) s

end Sys2Proof.Machine
end

