-- ==== Sys2Proof/Machine/RunHeadgate.lean ====
section
/-! DEFINITION. The meanings of the commands of the Headgate, each its own definition over the shared operations. -/

namespace Sys2Proof.Machine

/-- LAYER_DESCRIPTOR_WRITE (R138). -/
def execLayerDescriptorWrite (src : Source) (layer word : Nat) (value : Word) (s : State) : Host.Outcome State Fault Refusal :=
  State.act [.regs, .flt] (fun s => s.rowWrite src (decide (layer < 4096) && decide (word < 8)) (Reg.HG_LAYER0 layer + 8 * word) value) s

/-- ROUTE_DECISION (R166). -/
def execRouteDecision (s : State) : Host.Outcome State Fault Refusal :=
  State.act scopePort (fun s => s.routeDecision) s

/-- RANK_ROUND (R161). -/
def execRankRound (s : State) : Host.Outcome State Fault Refusal :=
  State.act [.regs, .hg] (fun s => s.rankRound) s

/-- SORT_AND_DISPATCH (R187). -/
def execSortAndDispatch (s : State) : Host.Outcome State Fault Refusal :=
  State.act scopeFabric (fun s => s.sortAndDispatch) s

/-- SHAPE_RECORDS (R200). -/
def execShapeRecords (s : State) : Host.Outcome State Fault Refusal :=
  State.act (scopeFabric ++ [.chans]) (fun s => s.shapeRecords) s

/-- GATEWAY_RELAY (R197). -/
def execGatewayRelay (s : State) : Host.Outcome State Fault Refusal :=
  State.act scopeFabric (fun s => s.gatewayRelay) s

/-- DONE_ITEM (R201). -/
def execDoneItem (s : State) : Host.Outcome State Fault Refusal :=
  State.act (scopeFabric ++ [.chans]) (fun s => s.doneItem) s

/-- COMBINE (R204). -/
def execCombine (s : State) : Host.Outcome State Fault Refusal :=
  State.act scopeFabric (fun s => s.combine) s

/-- EXCHANGE_DEADLINE (R70). -/
def execExchangeDeadline (s : State) : Host.Outcome State Fault Refusal :=
  State.act scopeReservoir (fun s => s.exchangeDeadline) s

/-- HG_ZONE_WRITE (R189). -/
def execHgZoneWrite (src : Source) (zone word : Nat) (value : Word) (s : State) : Host.Outcome State Fault Refusal :=
  State.act [.regs, .flt] (fun s => s.rowWrite src (decide (zone < 1024) && decide (word < 4)) (Reg.HG_ZONE0 zone + 8 * word) value) s

/-- PLACE_LOAD (R178). -/
def execPlaceLoad (src : Source) (value : Word) (s : State) : Host.Outcome State Fault Refusal :=
  State.act [.regs, .hg, .flt] (fun s => s.rowWrite src (true) (Reg.HG_PLACE_CTRL) value) s

/-- PLACE_LOAD_DONE (R178). -/
def execPlaceLoadDone (s : State) : Host.Outcome State Fault Refusal :=
  State.act scopeMemory (fun s => s.placeLoadDone) s

/-- PLACE_COPY_DONE (R179). -/
def execPlaceCopyDone (s : State) : Host.Outcome State Fault Refusal :=
  State.act [.hg] (fun s => s.placeCopyDone) s

end Sys2Proof.Machine
end

