-- ==== Sys2Proof/Machine/RunHost.lean ====
section
/-! DEFINITION. The meanings of the commands of Travo Link, rings and requests, each its own definition over the shared operations. -/

namespace Sys2Proof.Machine

/-- TRAVO_FLIT_RECEIVE (R406). -/
def execTravoFlitReceive (msg seq ackSeq : Nat) (nak crcOk : Bool) (s : State) : Host.Outcome State Fault Refusal :=
  State.act (scopeReservoir ++ [.cores, .col, .mg]) (fun s => s.travoReceive msg seq ackSeq nak crcOk) s

/-- SNP_SHARED (R405). -/
def execSnpShared (txn line : Nat) (s : State) : Host.Outcome State Fault Refusal :=
  State.act [.tl, .out] (fun s => s.snoopShared txn line) s

/-- SNP_INV (R405). -/
def execSnpInv (txn line : Nat) (s : State) : Host.Outcome State Fault Refusal :=
  State.act [.tl, .out] (fun s => s.snoopInv txn line) s

/-- LINE (R405). -/
def execLine (txn : Nat) (poison : Bool) (data : List Byte) (s : State) : Host.Outcome State Fault Refusal :=
  State.act (scopeReservoir ++ [.cores, .col, .mg]) (fun s => s.lineData txn poison data) s

/-- GRANT (R405). -/
def execGrant (txn : Nat) (s : State) : Host.Outcome State Fault Refusal :=
  State.act (scopeReservoir ++ [.cores, .col, .mg]) (fun s => s.grantLine txn) s

/-- UC_RD (R405). -/
def execUcRd (txn : Nat) (addr : Word) (size : Nat) (bad : Bool) (s : State) : Host.Outcome State Fault Refusal :=
  State.act scopeReport (fun s => s.ucRead txn addr.toNat size bad) s

/-- UC_WR (R405). -/
def execUcWr (txn : Nat) (addr : Word) (size be : Nat) (data image program : List Byte) (s : State) : Host.Outcome State Fault Refusal :=
  State.act scopeSetup (fun s => s.ucWrite txn addr.toNat size be data image program) s

/-- TL_RING_WRITE (R410). -/
def execTlRingWrite (src : Source) (ring word : Nat) (value : Word) (s : State) : Host.Outcome State Fault Refusal :=
  State.act [.regs, .tl, .flt] (fun s =>
    s.rowWrite src (decide (ring < 16384) && decide (word < 3)) (Reg.TL_RING0 ring + 8 * word) value) s

/-- DB_TAIL (R413). -/
def execDbTail (ring value : Nat) (s : State) : Host.Outcome State Fault Refusal :=
  State.act [.tl, .flt] (fun s => if s.safeState then s else s.dbTail ring value) s

/-- DB_HEAD (R413). -/
def execDbHead (ring value : Nat) (s : State) : Host.Outcome State Fault Refusal :=
  State.act [.tl, .flt] (fun s => if s.safeState then s else s.dbHead ring value) s

/-- POLL (R422). -/
def execPoll (txn ring : Nat) (s : State) : Host.Outcome State Fault Refusal :=
  State.act [.regs, .tl, .out] (fun s => if s.safeState then s else s.poll txn ring) s

/-- PREFILL (R417). -/
def execPrefill (desc : List Byte) (bad : Bool) (s : State) : Host.Outcome State Fault Refusal :=
  State.act scopePort (fun s => s.prefill desc bad) s

/-- GENERATE (R417). -/
def execGenerate (desc : List Byte) (bad : Bool) (s : State) : Host.Outcome State Fault Refusal :=
  State.act scopePort (fun s => s.generate desc bad) s

/-- SESSION_SET (R429). -/
def execSessionSet (desc : List Byte) (bad : Bool) (image : List Byte) (imageBad : Bool) (s : State) : Host.Outcome State Fault Refusal :=
  State.act scopePort (fun s => s.sessionSetRequest desc bad image imageBad) s

/-- SESSION_CLOSE (R429). -/
def execSessionClose (desc : List Byte) (bad : Bool) (s : State) : Host.Outcome State Fault Refusal :=
  State.act scopePort (fun s => s.sessionCloseRequest desc bad) s

/-- ABORT (R427). -/
def execAbort (desc : List Byte) (bad : Bool) (s : State) : Host.Outcome State Fault Refusal :=
  State.act scopePort (fun s => s.abortRequestEntry desc bad) s

/-- CALL (R417). -/
def execCall (desc : List Byte) (bad : Bool) (s : State) : Host.Outcome State Fault Refusal :=
  State.act scopePort (fun s => s.callRequest desc bad) s

/-- CALL_RETURN (R417). -/
def execCallReturn (s : State) : Host.Outcome State Fault Refusal :=
  State.act scopePort (fun s => s.callReturn) s

/-- STEP_BOUNDARY (R435). -/
def execStepBoundary (results : List StepResult) (s : State) : Host.Outcome State Fault Refusal :=
  State.act (scopeFabric ++ [.chans]) (fun s => s.stepBoundary results) s

/-- COMMIT (R426). -/
def execCommit (s : State) : Host.Outcome State Fault Refusal :=
  State.act scopeReservoir (fun s => s.commitNext) s

/-- EVENT_RECORD_WRITE (R415). -/
def execEventRecordWrite (s : State) : Host.Outcome State Fault Refusal :=
  State.act [.tl, .flt, .out] (fun s => s.eventRecordWrite) s

end Sys2Proof.Machine
end

