-- ==== Sys2Proof/Machine/RunJobs.lean ====
section
/-! DEFINITION. The meanings of the commands of switches, swaps and reproducibility, each its own definition over the shared operations. -/

namespace Sys2Proof.Machine

/-- JOB_BOUNDARY (R455). -/
def execJobBoundary (s : State) : Host.Outcome State Fault Refusal :=
  State.act [.regs, .sw, .flt] (fun s => s.jobBoundary) s

/-- DRAIN_POINT (R457). -/
def execDrainPoint (s : State) : Host.Outcome State Fault Refusal :=
  State.act [.fab, .sw] (fun s => s.drainPoint) s

/-- DRAIN_END (R457). -/
def execDrainEnd (s : State) : Host.Outcome State Fault Refusal :=
  State.act [.fab, .sw] (fun s => s.drainEnd) s

/-- SWITCH_SAVE_DONE (R457). -/
def execSwitchSaveDone (s : State) : Host.Outcome State Fault Refusal :=
  State.act (scopeFabric ++ [.sw]) (fun s => s.switchSaveDone.tearNext.mgPump) s

/-- SWITCH_READY (R457). -/
def execSwitchReady (upsets : List Upset) (s : State) : Host.Outcome State Fault Refusal :=
  State.act (scopeFabric ++ [.tb, .chans, .sw]) (fun s => (s.switchReady upsets).tearNext.mgPump) s

/-- RESUME_POINT (R457). -/
def execResumePoint (s : State) : Host.Outcome State Fault Refusal :=
  State.act (scopeFabric ++ [.chans, .sw]) (fun s => s.resumePoint.tearNext.mgPump) s

/-- QUIESCE_OVERRUN (R460). -/
def execQuiesceOverrun (s : State) : Host.Outcome State Fault Refusal :=
  State.act [.sw] (fun s => s.quiesceOverrun) s

/-- SWAP_DONE (R446). -/
def execSwapDone (s : State) : Host.Outcome State Fault Refusal :=
  State.act (scopeMemory ++ [.sw]) (fun s => s.swapDone) s

/-- CANON_WRITE (R468). -/
def execCanonWrite (cluster : Nat) (canon : Bool) (s : State) : Host.Outcome State Fault Refusal :=
  State.act [.regs] (fun s => s.canonWrite cluster (b2n canon)) s

/-- WM_REPRO_WRITE (R481). -/
def execWmReproWrite (src : Source) (job : Nat) (value : Word) (s : State) : Host.Outcome State Fault Refusal :=
  State.act [.regs, .flt] (fun s => s.rowWrite src (decide (job < 256)) (Reg.WM_REPRO job) value) s

end Sys2Proof.Machine
end

