-- ==== Sys2Proof/Machine/RunMgmt.lean ====
section
/-! DEFINITION. The meanings of the commands of the management channel, launch and teardown, each its own definition over the shared operations. -/

namespace Sys2Proof.Machine

/-- HELLO (R525). -/
def execHello (node : Nat) (s : State) : Host.Outcome State Fault Refusal :=
  State.act scopeFabric (fun s => s.hello node) s

/-- ACCEPT (R525). -/
def execAccept (node : Nat) (s : State) : Host.Outcome State Fault Refusal :=
  State.act scopeFabric (fun s => s.accept node) s

/-- SET (R526). -/
def execSet (node : Nat) (s : State) : Host.Outcome State Fault Refusal :=
  State.act scopeSetup (fun s => s.setFrame node) s

/-- GET (R524). -/
def execGet (node : Nat) (s : State) : Host.Outcome State Fault Refusal :=
  State.act scopeFabric (fun s => s.getFrame node) s

/-- ATTEST (R521). -/
def execAttest (node : Nat) (s : State) : Host.Outcome State Fault Refusal :=
  State.act scopeFabric (fun s => s.attest node) s

/-- ATTEST_SIGNED (R521). -/
def execAttestSigned (s : State) : Host.Outcome State Fault Refusal :=
  State.act scopeFabric (fun s => s.attestSigned) s

/-- QUIESCE (R533). -/
def execQuiesce (node : Nat) (s : State) : Host.Outcome State Fault Refusal :=
  State.act (scopeFabric ++ [.sw]) (fun s => s.quiesce node) s

/-- TIME_ANNOUNCE (R79). -/
def execTimeAnnounce (node : Nat) (s : State) : Host.Outcome State Fault Refusal :=
  State.act (scopeFabric ++ [.tb, .sw]) (fun s => s.timeAnnounce node) s

/-- START (R529). -/
def execStart (node : Nat) (s : State) : Host.Outcome State Fault Refusal :=
  State.act (scopeFabric ++ [.chans, .sw, .boot]) (fun s => s.start node) s

/-- LAUNCH (R530). -/
def execLaunch (node : Nat) (s : State) : Host.Outcome State Fault Refusal :=
  State.act scopeFabric (fun s => s.launch node) s

/-- LAUNCH_NOTICE (R531). -/
def execLaunchNotice (index : Nat) (s : State) : Host.Outcome State Fault Refusal :=
  State.act (scopeFabric ++ [.boot]) (fun s => s.launchNotice index) s

/-- LAUNCH_ACK_TIMEOUT (R532). -/
def execLaunchAckTimeout (child index : Nat) (s : State) : Host.Outcome State Fault Refusal :=
  State.act scopeFabric (fun s => s.ackTimeout child index) s

/-- LAUNCH_CHILD (R532). -/
def execLaunchChild (node : Nat) (s : State) : Host.Outcome State Fault Refusal :=
  State.act scopeFabric (fun s => s.launchChild node) s

/-- REPARENT (R532). -/
def execReparent (node : Nat) (s : State) : Host.Outcome State Fault Refusal :=
  State.act scopeFabric (fun s => s.reparent node) s

/-- LAUNCH_ABORT (R532). -/
def execLaunchAbort (node : Nat) (s : State) : Host.Outcome State Fault Refusal :=
  State.act scopeFabric (fun s => s.launchAbort node) s

/-- TEARDOWN_DRAIN_END (R533). -/
def execTeardownDrainEnd (ranges : List (Nat × Nat)) (s : State) : Host.Outcome State Fault Refusal :=
  State.act scopeFabric (fun s => s.teardownEnd ranges) s

end Sys2Proof.Machine
end

