-- ==== Sys2Proof/Machine/RunPorts.lean ====
section
/-! DEFINITION. The meanings of the commands of ports, forwarding and switched ports, each its own definition over the shared operations. -/

namespace Sys2Proof.Machine

/-- PORT_ENABLE_WRITE (R300). -/
def execPortEnableWrite (src : Source) (port : Nat) (value : Word) (s : State) : Host.Outcome State Fault Refusal :=
  State.act [.regs, .ports, .flt, .free] (fun s => s.rowWrite src (decide (port < 16)) (Reg.FP_CFG port) value) s

/-- CM_TEST_DONE (R301). -/
def execCmTestDone (port : Nat) (found : List LaneTest) (s : State) : Host.Outcome State Fault Refusal :=
  State.act [.regs, .ports, .flt, .free] (fun s => if port < 16 then s.cmTestDone port found else s) s

/-- TRAIN_DONE (R300). -/
def execTrainDone (port : Nat) (failed : List Nat) (s : State) : Host.Outcome State Fault Refusal :=
  State.act [.regs, .ports] (fun s => if port < 16 then s.trainDone port failed else s) s

/-- LANE_ID_DONE (R302). -/
def execLaneIdDone (port laneMap polarity far : Nat) (swap : Bool) (s : State) : Host.Outcome State Fault Refusal :=
  State.act [.regs, .ports, .flt, .free] (fun s => if port < 16 then s.laneIdDone port laneMap polarity far swap else s) s

/-- ALIGN_DONE (R300). -/
def execAlignDone (port : Nat) (s : State) : Host.Outcome State Fault Refusal :=
  State.act [.regs, .ports] (fun s => if port < 16 then s.alignDone port else s) s

/-- LLDP_SEND (R304). -/
def execLldpSend (port : Nat) (s : State) : Host.Outcome State Fault Refusal :=
  State.act [.ports, .out] (fun s => if port < 16 then s.lldpSend port else s) s

/-- LLDP_RECEIVE (R305). -/
def execLldpReceive (port : Nat) (frame : LldpFrame) (s : State) : Host.Outcome State Fault Refusal :=
  State.act [.regs, .fab, .ports, .flt, .free] (fun s => if port < 16 then s.lldpReceive port frame else s) s

/-- IDENTITY_EXPIRE (R305). -/
def execIdentityExpire (port : Nat) (s : State) : Host.Outcome State Fault Refusal :=
  State.act [.regs, .ports, .flt, .free] (fun s => if port < 16 then s.identityExpire port else s) s

/-- CDR_LOSS (R303). -/
def execCdrLoss (port lane : Nat) (s : State) : Host.Outcome State Fault Refusal :=
  State.act [.regs, .ports, .flt, .free] (fun s => if port < 16 then s.cdrLoss port lane else s) s

/-- RETRAIN_TIMEOUT (R303). -/
def execRetrainTimeout (port : Nat) (s : State) : Host.Outcome State Fault Refusal :=
  State.act [.regs, .ports, .flt, .free] (fun s => if port < 16 then s.retrainTimeout port else s) s

/-- LINK_MCU_RELOAD (R505). -/
def execLinkMcuReload (die ns : Nat) (s : State) : Host.Outcome State Fault Refusal :=
  State.act [.ports] (fun s => s.mcuReload die ns) s

/-- CELL_FRAME_RECEIVE (R312). -/
def execCellFrameReceive (port : Nat) (frame : CellFrame) (corrected : Nat) (uncorrectable : List Nat) (s : State) : Host.Outcome State
    Fault Refusal :=
  State.act [.regs, .ecc, .hg, .fab, .ports, .cls, .flt, .out, .free] (fun s =>
    if port < 16 then s.cellFrameReceive port frame corrected uncorrectable else s) s

/-- PAUSE_RECEIVE (R295). -/
def execPauseReceive (port : Nat) (s : State) : Host.Outcome State Fault Refusal :=
  State.act [.regs] (fun s => if port < 16 then s.pauseReceive port else s) s

/-- FORWARDING_SLOT (R318). -/
def execForwardingSlot (s : State) : Host.Outcome State Fault Refusal :=
  State.act [.regs, .fab, .ports, .flt, .out, .free] (fun s => s.forwardingSlot) s

/-- SW_PACKET_RECEIVE (R368). -/
def execSwPacketReceive (port : Nat) (packet : SwArrival) (s : State) : Host.Outcome State Fault Refusal :=
  State.act [.regs, .fab, .flt] (fun s => if port < 16 then s.swPacketReceive port packet.outer packet.packet else s) s

/-- SW_ACK_RECEIVE (R369). -/
def execSwAckReceive (port : Nat) (packet : SwArrival) (s : State) : Host.Outcome State Fault Refusal :=
  State.act [.regs, .fab, .flt, .out] (fun s => if port < 16 then s.swAckReceive port packet.outer packet.packet else s) s

/-- SW_PACKET_SEND (R367). -/
def execSwPacketSend (port : Nat) (s : State) : Host.Outcome State Fault Refusal :=
  State.act [.regs, .fab, .flt, .out] (fun s => if port < 16 then s.swPacketSend port else s) s

/-- SW_ACK_SEND (R368). -/
def execSwAckSend (source : Nat) (s : State) : Host.Outcome State Fault Refusal :=
  State.act [.fab, .out] (fun s => s.swAckSend source) s

/-- RTO_EXPIRE (R369). -/
def execRtoExpire (gateway psn : Nat) (s : State) : Host.Outcome State Fault Refusal :=
  State.act [.regs, .fab, .flt, .out] (fun s => s.rtoExpire gateway psn) s

/-- NEIGHBOR_SOLICITATION (R327). -/
def execNeighborSolicitation (port target : Nat) (s : State) : Host.Outcome State Fault Refusal :=
  State.act [.out] (fun s => if port < 16 then s.neighborSolicitation port target else s) s

/-- PTP_EVENT_MESSAGE (R329). -/
def execPtpEventMessage (port : Nat) (message : PtpFrame) (s : State) : Host.Outcome State Fault Refusal :=
  State.act [.tb, .sw, .regs, .ecc, .fab, .ports, .flt, .out, .free] (fun s => if port < 16 then s.ptpMessage port message else s) s

end Sys2Proof.Machine
end

