-- ==== Sys2Proof/Machine/RunPower.lean ====
section
/-! DEFINITION. The meanings of the commands of power and the sideband, each its own definition over the shared operations. -/

namespace Sys2Proof.Machine

/-- GOVERNOR_INTERVAL (R543). -/
def execGovernorInterval (mv0 amps0 mv1 amps1 watts : Nat) (s : State) : Host.Outcome State Fault Refusal :=
  State.act [.regs, .pwr, .flt] (fun s => s.governor mv0 amps0 mv1 amps1 watts) s

/-- VOLTAGE_WRITE_DONE (R542). -/
def execVoltageWriteDone (s : State) : Host.Outcome State Fault Refusal :=
  State.act [.pwr] (fun s => s.voltageDone) s

/-- RAIL_FAULT (R537). -/
def execRailFault (s : State) : Host.Outcome State Fault Refusal :=
  State.act [.regs, .pwr, .flt] (fun s => s.railFault) s

/-- SENSE_CHECK (R539). -/
def execSenseCheck (readings : List (Nat × Nat)) (s : State) : Host.Outcome State Fault Refusal :=
  State.act [.regs, .pwr, .flt] (fun s => s.senseCheck readings) s

/-- TEMP_REFRESH (R545). -/
def execTempRefresh (readings : List (Nat × Nat)) (s : State) : Host.Outcome State Fault Refusal :=
  State.act [.regs, .ports, .pwr] (fun s => s.tempRefresh readings) s

/-- POWER_RESET (R547). -/
def execPowerReset (railsRemoved : Bool) (s : State) : Host.Outcome State Fault Refusal :=
  State.answer scopeAll (fun s => s.powerReset railsRemoved) s

/-- SMB_PART_READ (R549). -/
def execSmbPartRead (s : State) : Host.Outcome State Fault Refusal :=
  State.answer [.out] (fun s => s.smbPart) s

/-- SMB_BOOT_READ (R549). -/
def execSmbBootRead (s : State) : Host.Outcome State Fault Refusal :=
  State.answer [.out] (fun s => s.smbBoot) s

/-- SMB_THERMAL_READ (R549). -/
def execSmbThermalRead (s : State) : Host.Outcome State Fault Refusal :=
  State.answer [.out] (fun s => s.smbThermal) s

/-- SMB_POWER_READ (R549). -/
def execSmbPowerRead (s : State) : Host.Outcome State Fault Refusal :=
  State.answer [.out] (fun s => s.smbPower) s

/-- SMB_FAULT_READ (R549). -/
def execSmbFaultRead (s : State) : Host.Outcome State Fault Refusal :=
  State.answer [.out] (fun s => s.smbFault) s

/-- BMC_CAP_W_WRITE (R550). -/
def execBmcCapWWrite (watts : Nat) (pecOk : Bool) (s : State) : Host.Outcome State Fault Refusal :=
  State.answer [.regs, .out] (fun s => s.bmcCapWrite watts pecOk) s

/-- ALERT_RESPONSE (R549). -/
def execAlertResponse (s : State) : Host.Outcome State Fault Refusal :=
  State.answer [.pwr, .out] (fun s => s.alertResponse) s

/-- AVSBUS_ERROR (R537). -/
def execAvsbusError (rail op : Nat) (s : State) : Host.Outcome State Fault Refusal :=
  State.act [.regs, .pwr, .flt] (fun s => s.avsError rail op) s

end Sys2Proof.Machine
end

