-- ==== Sys2Proof/Machine/RunProtect.lean ====
section
/-! DEFINITION. The meanings of the commands of scrubbing, HBM accesses, retirement and recovery, each its own definition over the shared operations. -/

namespace Sys2Proof.Machine

/-- SCRUB_READ (R498). -/
def execScrubRead (target : ScrubTarget) (upsets : List Upset) (s : State) : Host.Outcome State Fault Refusal :=
  State.act scopeMemory (fun s => s.scrubRead target upsets) s

/-- HEARTBEAT (R507). -/
def execHeartbeat (s : State) : Host.Outcome State Fault Refusal :=
  State.act [.tl, .flt, .out] (fun s => s.heartbeat) s

/-- WM_RECOVER (R508). -/
def execWmRecover (src : Source) (value : Word) (image : List Byte) (s : State) : Host.Outcome State Fault Refusal :=
  State.act [.regs, .ecc, .cls, .boot, .flt] (fun s => s.setupWriteAt src (setupBase + Reg.ECC_WM_RECOVER) value.toNat image []) s

/-- RETIRE_CLUSTER (R506). -/
def execRetireCluster (src : Source) (value : Word) (s : State) : Host.Outcome State Fault Refusal :=
  State.act [.regs, .cls, .flt] (fun s => s.rowWrite src (true) (Reg.ECC_RETIRE_CL) value) s

/-- ECC_RSV_RETIRE_WRITE (R503). -/
def execEccRsvRetireWrite (src : Source) (die word : Nat) (value : Word) (s : State) : Host.Outcome State Fault Refusal :=
  State.act [.regs, .flt] (fun s => s.rowWrite src (decide (die < 4) && decide (word < 1024)) (Reg.ECC_RSV_RETIRE die word) value) s

/-- HBM_ACCESS (R485). -/
def execHbmAccess (request : RsvRequest) (upsets : List Upset) (onDie : Nat) (s : State) : Host.Outcome State Fault Refusal :=
  State.act scopeReservoir (fun s => s.hbmAccess request upsets onDie) s

end Sys2Proof.Machine
end

