-- ==== Sys2Proof/Machine/RunReservoir.lean ====
section
/-! DEFINITION. The meanings of the commands of set-up accesses and the Reservoir, each its own definition over the shared operations. -/

namespace Sys2Proof.Machine

/-- SETUP_WRITE (R13). -/
def execSetupWrite (src : Source) (addr value : Word) (s : State) : Host.Outcome State Fault Refusal :=
  State.act scopeSetup (fun s => s.setupWriteAt src addr.toNat value.toNat [] []) s

/-- TOP_SETUP_LOCK_WRITE (R47). -/
def execTopSetupLockWrite (src : Source) (value : Word) (s : State) : Host.Outcome State Fault Refusal :=
  State.act [.lock, .regs, .flt] (fun s => s.rowWrite src (true) (Reg.TOP_SETUP_LOCK) value) s

/-- RESERVOIR_ACCESS (R100). -/
def execReservoirAccess (requests : List RsvRequest) (upsets : List Upset) (s : State) : Host.Outcome State Fault Refusal :=
  State.act scopeReservoir (fun s => s.reservoirAccess requests upsets) s

/-- FLIT_RECEIVE (R31). -/
def execFlitReceive (link : DieLink) (crcOk : Bool) (carried : List (Requester × Nat)) (s : State) : Host.Outcome State Fault Refusal :=
  State.act [.regs, .ecc, .hg, .ports, .cls, .flt, .out, .free] (fun s => s.flitReceive link crcOk carried) s

/-- REGION_SEAL (R109). -/
def execRegionSeal (who : Requester) (region layer die : Nat) (s : State) : Host.Outcome State Fault Refusal :=
  State.act [.rsv, .flt] (fun s => s.sealOnDie who region layer die) s

/-- SEAL_SIGNAL (R55). -/
def execSealSignal (region : Nat) (s : State) : Host.Outcome State Fault Refusal :=
  State.act (scopePort ++ [.col]) (fun s => s.sealSignal region) s

/-- REGION_RELEASE (R109). -/
def execRegionRelease (region : Nat) (s : State) : Host.Outcome State Fault Refusal :=
  State.act [.rsv] (fun s => s.regionRelease region) s

/-- VARVE_MARK (R128). -/
def execVarveMark (who : Requester) (region layer die : Nat) (s : State) : Host.Outcome State Fault Refusal :=
  State.act [.rsv] (fun s => s.varveMark who region layer die) s

/-- VARVE_RECORD_WRITE (R129). -/
def execVarveRecordWrite (s : State) : Host.Outcome State Fault Refusal :=
  State.act [.regs, .rsv, .tl, .flt, .out] (fun s => s.varveRecordWrite) s

/-- RSV_REGION_WRITE (R105). -/
def execRsvRegionWrite (src : Source) (region : Nat) (value : Word) (s : State) : Host.Outcome State Fault Refusal :=
  State.act (scopePort ++ [.col]) (fun s => s.rowWrite src (decide (region < 256)) (Reg.RSV_REGION region) value) s

end Sys2Proof.Machine
end

