-- ==== Sys2Proof/Machine/RunSluice.lean ====
section
/-! DEFINITION. The meanings of the commands of Sluice channels, each its own definition over the shared operations. -/

namespace Sys2Proof.Machine

/-- SLC_CHAN_WRITE (R112). -/
def execSlcChanWrite (src : Source) (channel : Nat) (value : Word) (s : State) : Host.Outcome State Fault Refusal :=
  State.act [.regs, .chans, .flt] (fun s => s.rowWrite src (decide (channel < 4096)) (Reg.SLC_CHAN0 channel) value) s

/-- RESET_CHANNEL (R122). -/
def execResetChannel (src : Source) (channel : Nat) (value : Word) (s : State) : Host.Outcome State Fault Refusal :=
  State.act [.regs, .chans, .flt] (fun s => s.rowWrite src (decide (channel < 4096)) (Reg.SLC_CHAN3 channel) value) s

/-- PUSH (R116). -/
def execPush (who : Requester) (channel : Nat) (pktEnd fence : Bool) (data : List Byte) (pointers : PointerUpset) (upsets : List Upset)
    (s : State) : Host.Outcome State Fault Refusal :=
  State.act scopePort (fun s => s.sluiceCommand ⟨who, .push, channel, pktEnd, fence, data⟩ pointers upsets) s

/-- POP (R116). -/
def execPop (who : Requester) (channel : Nat) (pointers : PointerUpset) (upsets : List Upset) (s : State) : Host.Outcome State Fault
    Refusal :=
  State.act scopePort (fun s => s.sluiceCommand ⟨who, .pop, channel, false, false, []⟩ pointers upsets) s

/-- PEEK (R116). -/
def execPeek (who : Requester) (channel : Nat) (pointers : PointerUpset) (upsets : List Upset) (s : State) : Host.Outcome State Fault
    Refusal :=
  State.act scopePort (fun s => s.sluiceCommand ⟨who, .peek, channel, false, false, []⟩ pointers upsets) s

/-- DROP_PACKET (R120). -/
def execDropPacket (who : Requester) (channel : Nat) (pointers : PointerUpset) (upsets : List Upset) (s : State) : Host.Outcome State
    Fault Refusal :=
  State.act scopePort (fun s => s.sluiceCommand ⟨who, .drop, channel, false, false, []⟩ pointers upsets) s

/-- COUNT (R116). -/
def execCount (who : Requester) (channel : Nat) (pointers : PointerUpset) (upsets : List Upset) (s : State) : Host.Outcome State Fault
    Refusal :=
  State.act scopePort (fun s => s.sluiceCommand ⟨who, .count, channel, false, false, []⟩ pointers upsets) s

/-- SLUICE_STORAGE_DONE (R119). -/
def execSluiceStorageDone (channel : Nat) (s : State) : Host.Outcome State Fault Refusal :=
  State.act scopePort (fun s => s.storageDone channel) s

/-- FENCE_MARKERS_ACKED (R118). -/
def execFenceMarkersAcked (who : Requester) (channel : Nat) (s : State) : Host.Outcome State Fault Refusal :=
  State.act scopePort (fun s => s.fenceAcked who channel) s

end Sys2Proof.Machine
end

