-- ==== Sys2Proof/Machine/RunTime.lean ====
section
/-! DEFINITION. The meanings of the commands of fabric time, turns and counter windows, each its own definition over the shared operations. -/

namespace Sys2Proof.Machine

/-- FT_TICK (R72). -/
def execFtTick (n : Nat) (s : State) : Host.Outcome State Fault Refusal :=
  State.act (scopeReport ++ [.clock, .tb, .pwr]) (fun s => s.ticks n) s

/-- PTP_SAMPLE (R80). -/
def execPtpSample (tai : Nat) (s : State) : Host.Outcome State Fault Refusal :=
  State.act [.tb, .sw, .regs, .ecc, .fab, .ports, .flt, .out, .free] (fun s => s.ptpSample tai) s

/-- PPS_EDGE (R78). -/
def execPpsEdge (s : State) : Host.Outcome State Fault Refusal :=
  State.act [.tb, .sw, .regs, .ecc, .fab, .ports, .flt, .out, .free] (fun s => s.ppsEdge) s

/-- SAMPLE_TIMEOUT (R80). -/
def execSampleTimeout (s : State) : Host.Outcome State Fault Refusal :=
  State.act [.tb, .regs, .flt, .out] (fun s => s.sampleTimeout) s

/-- HOLDOVER_LIMIT (R80). -/
def execHoldoverLimit (s : State) : Host.Outcome State Fault Refusal :=
  State.act [.tb, .regs, .flt, .out] (fun s => s.holdoverLimit) s

/-- FT_SRC_WRITE (R79). -/
def execFtSrcWrite (src : Source) (value : Word) (s : State) : Host.Outcome State Fault Refusal :=
  State.act [.tb, .regs, .flt, .out] (fun s => s.rowWrite src (true) (Reg.FT_CTRL) value) s

/-- FT_TURN_ORIGIN_WRITE (R88). -/
def execFtTurnOriginWrite (src : Source) (value : Word) (s : State) : Host.Outcome State Fault Refusal :=
  State.act [.regs, .flt] (fun s => s.rowWrite src (true) (Reg.FT_TURN_ORIGIN) value) s

/-- FT_TURN_LEN_WRITE (R88). -/
def execFtTurnLenWrite (src : Source) (value : Word) (s : State) : Host.Outcome State Fault Refusal :=
  State.act [.tb, .regs, .flt] (fun s => s.rowWrite src (true) (Reg.FT_TURN_LEN) value) s

/-- FT_EPOCH_TAI_WRITE (R88). -/
def execFtEpochTaiWrite (src : Source) (value : Word) (s : State) : Host.Outcome State Fault Refusal :=
  State.act [.regs, .flt] (fun s => s.rowWrite src (true) (Reg.FT_EPOCH_TAI) value) s

/-- TURN_BOUNDARY (R90). -/
def execTurnBoundary (votes : List VoteUpset) (slotBad : Bool) (s : State) : Host.Outcome State Fault Refusal :=
  State.act (scopePort ++ [.tb, .lock, .present, .col, .sw]) (fun s => s.turnBoundary votes slotBad) s

/-- COUNTER_WINDOW_CLOSE (R92). -/
def execCounterWindowClose (s : State) : Host.Outcome State Fault Refusal :=
  State.act (scopeFabric ++ [.tb]) (fun s => s.windowClose) s

end Sys2Proof.Machine
end

