-- ==== Sys2Proof/Machine/RunVector.lean ====
section
/-! DEFINITION. The meanings of the commands of the vector unit, each its own definition over the shared operations. -/

namespace Sys2Proof.Machine

/-- VEC_PUSH (R246). -/
def execVecPush (cluster k off : Nat) (words : List Nat) (s : State) : Host.Outcome State Fault Refusal :=
  State.act [.regs, .cls] (fun s => s.vecPush cluster k off words) s

/-- ADD (R247). -/
def execAdd (cluster : Nat) (s : State) : Host.Outcome State Fault Refusal :=
  State.act scopeCompute (fun s => s.vecIssue cluster 1) s

/-- MUL (R247). -/
def execMul (cluster : Nat) (s : State) : Host.Outcome State Fault Refusal :=
  State.act scopeCompute (fun s => s.vecIssue cluster 2) s

/-- AXPY (R247). -/
def execAxpy (cluster : Nat) (s : State) : Host.Outcome State Fault Refusal :=
  State.act scopeCompute (fun s => s.vecIssue cluster 3) s

/-- SCALE_BIAS (R247). -/
def execScaleBias (cluster : Nat) (s : State) : Host.Outcome State Fault Refusal :=
  State.act scopeCompute (fun s => s.vecIssue cluster 4) s

/-- EXP (R247). -/
def execExp (cluster : Nat) (s : State) : Host.Outcome State Fault Refusal :=
  State.act scopeCompute (fun s => s.vecIssue cluster 5) s

/-- SILU_MUL (R247). -/
def execSiluMul (cluster : Nat) (s : State) : Host.Outcome State Fault Refusal :=
  State.act scopeCompute (fun s => s.vecIssue cluster 6) s

/-- RMSNORM (R247). -/
def execRmsnorm (cluster : Nat) (s : State) : Host.Outcome State Fault Refusal :=
  State.act scopeCompute (fun s => s.vecIssue cluster 7) s

/-- SOFTMAX (R247). -/
def execSoftmax (cluster : Nat) (s : State) : Host.Outcome State Fault Refusal :=
  State.act scopeCompute (fun s => s.vecIssue cluster 8) s

/-- ROPE (R247). -/
def execRope (cluster : Nat) (s : State) : Host.Outcome State Fault Refusal :=
  State.act scopeCompute (fun s => s.vecIssue cluster 9) s

/-- CONVERT (R247). -/
def execConvert (cluster : Nat) (s : State) : Host.Outcome State Fault Refusal :=
  State.act scopeCompute (fun s => s.vecIssue cluster 10) s

/-- QUANT_ROW (R247). -/
def execQuantRow (cluster : Nat) (s : State) : Host.Outcome State Fault Refusal :=
  State.act scopeCompute (fun s => s.vecIssue cluster 11) s

/-- ROW_SUM (R247). -/
def execRowSum (cluster : Nat) (s : State) : Host.Outcome State Fault Refusal :=
  State.act scopeCompute (fun s => s.vecIssue cluster 12) s

/-- ROW_MAX (R247). -/
def execRowMax (cluster : Nat) (s : State) : Host.Outcome State Fault Refusal :=
  State.act scopeCompute (fun s => s.vecIssue cluster 13) s

/-- SAMPLE (R252). -/
def execSample (cluster : Nat) (s : State) : Host.Outcome State Fault Refusal :=
  State.act scopeCompute (fun s => s.vecIssue cluster 14) s

/-- VEC_RETIRE (R246). -/
def execVecRetire (cluster : Nat) (s : State) : Host.Outcome State Fault Refusal :=
  State.act (scopeReport ++ [.cores, .cls]) (fun s => s.vecRetire cluster) s

end Sys2Proof.Machine
end

