-- ==== Sys2Proof/Machine/Dispatch.lean ====
section
/-! DEFINITION. The meaning of every command: one arm for every constructor of Instr. -/

namespace Sys2Proof.Machine

def exec (i : Instr) (s : State) : Host.Outcome State Fault Refusal :=
  match i with
  | .setupWrite src addr value => Sys2Proof.Machine.execSetupWrite src addr value s
  | .topSetupLockWrite src value => Sys2Proof.Machine.execTopSetupLockWrite src value s
  | .reservoirAccess requests upsets => Sys2Proof.Machine.execReservoirAccess requests upsets s
  | .flitReceive link crcOk carried => Sys2Proof.Machine.execFlitReceive link crcOk carried s
  | .regionSeal who region layer die => Sys2Proof.Machine.execRegionSeal who region layer die s
  | .sealSignal region => Sys2Proof.Machine.execSealSignal region s
  | .regionRelease region => Sys2Proof.Machine.execRegionRelease region s
  | .varveMark who region layer die => Sys2Proof.Machine.execVarveMark who region layer die s
  | .varveRecordWrite => Sys2Proof.Machine.execVarveRecordWrite s
  | .rsvRegionWrite src region value => Sys2Proof.Machine.execRsvRegionWrite src region value s
  | .slcChanWrite src channel value => Sys2Proof.Machine.execSlcChanWrite src channel value s
  | .resetChannel src channel value => Sys2Proof.Machine.execResetChannel src channel value s
  | .push who channel pktEnd fence data pointers upsets => Sys2Proof.Machine.execPush who channel pktEnd fence data pointers upsets s
  | .pop who channel pointers upsets => Sys2Proof.Machine.execPop who channel pointers upsets s
  | .peek who channel pointers upsets => Sys2Proof.Machine.execPeek who channel pointers upsets s
  | .dropPacket who channel pointers upsets => Sys2Proof.Machine.execDropPacket who channel pointers upsets s
  | .count who channel pointers upsets => Sys2Proof.Machine.execCount who channel pointers upsets s
  | .sluiceStorageDone channel => Sys2Proof.Machine.execSluiceStorageDone channel s
  | .fenceMarkersAcked who channel => Sys2Proof.Machine.execFenceMarkersAcked who channel s
  | .ftTick n => Sys2Proof.Machine.execFtTick n s
  | .ptpSample tai => Sys2Proof.Machine.execPtpSample tai s
  | .ppsEdge => Sys2Proof.Machine.execPpsEdge s
  | .sampleTimeout => Sys2Proof.Machine.execSampleTimeout s
  | .holdoverLimit => Sys2Proof.Machine.execHoldoverLimit s
  | .ftSrcWrite src value => Sys2Proof.Machine.execFtSrcWrite src value s
  | .ftTurnOriginWrite src value => Sys2Proof.Machine.execFtTurnOriginWrite src value s
  | .ftTurnLenWrite src value => Sys2Proof.Machine.execFtTurnLenWrite src value s
  | .ftEpochTaiWrite src value => Sys2Proof.Machine.execFtEpochTaiWrite src value s
  | .turnBoundary votes slotBad => Sys2Proof.Machine.execTurnBoundary votes slotBad s
  | .counterWindowClose => Sys2Proof.Machine.execCounterWindowClose s
  | .scrubRead target upsets => Sys2Proof.Machine.execScrubRead target upsets s
  | .layerDescriptorWrite src layer word value => Sys2Proof.Machine.execLayerDescriptorWrite src layer word value s
  | .routeDecision => Sys2Proof.Machine.execRouteDecision s
  | .rankRound => Sys2Proof.Machine.execRankRound s
  | .sortAndDispatch => Sys2Proof.Machine.execSortAndDispatch s
  | .shapeRecords => Sys2Proof.Machine.execShapeRecords s
  | .gatewayRelay => Sys2Proof.Machine.execGatewayRelay s
  | .doneItem => Sys2Proof.Machine.execDoneItem s
  | .combine => Sys2Proof.Machine.execCombine s
  | .exchangeDeadline => Sys2Proof.Machine.execExchangeDeadline s
  | .hgZoneWrite src zone word value => Sys2Proof.Machine.execHgZoneWrite src zone word value s
  | .placeLoad src value => Sys2Proof.Machine.execPlaceLoad src value s
  | .placeLoadDone => Sys2Proof.Machine.execPlaceLoadDone s
  | .placeCopyDone => Sys2Proof.Machine.execPlaceCopyDone s
  | .clCoreRunWrite src cluster value => Sys2Proof.Machine.execClCoreRunWrite src cluster value s
  | .fence who => Sys2Proof.Machine.execFence who s
  | .amo who op wide rd rs1 rs2 => Sys2Proof.Machine.execAmo who op wide rd rs1 rs2 s
  | .lrSc who rs1 => Sys2Proof.Machine.execLrSc who rs1 s
  | .clAtomCtrlWrite cluster k value => Sys2Proof.Machine.execClAtomCtrlWrite cluster k value s
  | .tileCmdPush cluster k off words => Sys2Proof.Machine.execTileCmdPush cluster k off words s
  | .matmul cluster accBad => Sys2Proof.Machine.execMatmul cluster accBad s
  | .tileRetire cluster => Sys2Proof.Machine.execTileRetire cluster s
  | .tileBoundary cluster => Sys2Proof.Machine.execTileBoundary cluster s
  | .fillBegin cluster buffer => Sys2Proof.Machine.execFillBegin cluster buffer s
  | .fillEnd cluster buffer => Sys2Proof.Machine.execFillEnd cluster buffer s
  | .free cluster buffer => Sys2Proof.Machine.execFree cluster buffer s
  | .clBufWrite src cluster buffer value => Sys2Proof.Machine.execClBufWrite src cluster buffer value s
  | .dmaPush cluster engine k off words => Sys2Proof.Machine.execDmaPush cluster engine k off words s
  | .dmaStart cluster engine => Sys2Proof.Machine.execDmaStart cluster engine s
  | .dmaComplete cluster engine => Sys2Proof.Machine.execDmaComplete cluster engine s
  | .vecPush cluster k off words => Sys2Proof.Machine.execVecPush cluster k off words s
  | .add cluster => Sys2Proof.Machine.execAdd cluster s
  | .mul cluster => Sys2Proof.Machine.execMul cluster s
  | .axpy cluster => Sys2Proof.Machine.execAxpy cluster s
  | .scaleBias cluster => Sys2Proof.Machine.execScaleBias cluster s
  | .exp cluster => Sys2Proof.Machine.execExp cluster s
  | .siluMul cluster => Sys2Proof.Machine.execSiluMul cluster s
  | .rmsnorm cluster => Sys2Proof.Machine.execRmsnorm cluster s
  | .softmax cluster => Sys2Proof.Machine.execSoftmax cluster s
  | .rope cluster => Sys2Proof.Machine.execRope cluster s
  | .convert cluster => Sys2Proof.Machine.execConvert cluster s
  | .quantRow cluster => Sys2Proof.Machine.execQuantRow cluster s
  | .rowSum cluster => Sys2Proof.Machine.execRowSum cluster s
  | .rowMax cluster => Sys2Proof.Machine.execRowMax cluster s
  | .sample cluster => Sys2Proof.Machine.execSample cluster s
  | .vecRetire cluster => Sys2Proof.Machine.execVecRetire cluster s
  | .flumeCmdPush cluster k off words => Sys2Proof.Machine.execFlumeCmdPush cluster k off words s
  | .gather cluster => Sys2Proof.Machine.execGather cluster s
  | .compact cluster => Sys2Proof.Machine.execCompact cluster s
  | .mask cluster => Sys2Proof.Machine.execMask cluster s
  | .check cluster => Sys2Proof.Machine.execCheck cluster s
  | .merge cluster => Sys2Proof.Machine.execMerge cluster s
  | .flumeComplete cluster => Sys2Proof.Machine.execFlumeComplete cluster s
  | .portEnableWrite src port value => Sys2Proof.Machine.execPortEnableWrite src port value s
  | .cmTestDone port found => Sys2Proof.Machine.execCmTestDone port found s
  | .trainDone port failed => Sys2Proof.Machine.execTrainDone port failed s
  | .laneIdDone port laneMap polarity far swap => Sys2Proof.Machine.execLaneIdDone port laneMap polarity far swap s
  | .alignDone port => Sys2Proof.Machine.execAlignDone port s
  | .lldpSend port => Sys2Proof.Machine.execLldpSend port s
  | .lldpReceive port frame => Sys2Proof.Machine.execLldpReceive port frame s
  | .identityExpire port => Sys2Proof.Machine.execIdentityExpire port s
  | .cdrLoss port lane => Sys2Proof.Machine.execCdrLoss port lane s
  | .retrainTimeout port => Sys2Proof.Machine.execRetrainTimeout port s
  | .linkMcuReload die ns => Sys2Proof.Machine.execLinkMcuReload die ns s
  | .cellFrameReceive port frame corrected uncorrectable => Sys2Proof.Machine.execCellFrameReceive port frame corrected uncorrectable s
  | .pauseReceive port => Sys2Proof.Machine.execPauseReceive port s
  | .forwardingSlot => Sys2Proof.Machine.execForwardingSlot s
  | .swPacketReceive port packet => Sys2Proof.Machine.execSwPacketReceive port packet s
  | .swAckReceive port packet => Sys2Proof.Machine.execSwAckReceive port packet s
  | .swPacketSend port => Sys2Proof.Machine.execSwPacketSend port s
  | .swAckSend source => Sys2Proof.Machine.execSwAckSend source s
  | .rtoExpire gateway psn => Sys2Proof.Machine.execRtoExpire gateway psn s
  | .neighborSolicitation port target => Sys2Proof.Machine.execNeighborSolicitation port target s
  | .ptpEventMessage port message => Sys2Proof.Machine.execPtpEventMessage port message s
  | .loadIssue who mgmt addr len sink => Sys2Proof.Machine.execLoadIssue who mgmt addr len sink s
  | .storeIssue who mgmt addr be data poison ilen => Sys2Proof.Machine.execStoreIssue who mgmt addr be data poison ilen s
  | .atomicIssue who mgmt addr aop wide signed operand swap sink => Sys2Proof.Machine.execAtomicIssue who mgmt addr aop wide signed operand swap sink s
  | .load die => Sys2Proof.Machine.execLoad die s
  | .store die => Sys2Proof.Machine.execStore die s
  | .atomicAdd die => Sys2Proof.Machine.execAtomicAdd die s
  | .atomicMin die => Sys2Proof.Machine.execAtomicMin die s
  | .atomicMax die => Sys2Proof.Machine.execAtomicMax die s
  | .atomicAnd die => Sys2Proof.Machine.execAtomicAnd die s
  | .atomicOr die => Sys2Proof.Machine.execAtomicOr die s
  | .atomicXor die => Sys2Proof.Machine.execAtomicXor die s
  | .atomicSwap die => Sys2Proof.Machine.execAtomicSwap die s
  | .atomicCas die => Sys2Proof.Machine.execAtomicCas die s
  | .atomicFadd die => Sys2Proof.Machine.execAtomicFadd die s
  | .atomicBadd2 die => Sys2Proof.Machine.execAtomicBadd2 die s
  | .loadRsp die => Sys2Proof.Machine.execLoadRsp die s
  | .atomicRsp die => Sys2Proof.Machine.execAtomicRsp die s
  | .ack die => Sys2Proof.Machine.execAck die s
  | .ackDelayExpire die source => Sys2Proof.Machine.execAckDelayExpire die source s
  | .tDeadExpire tag => Sys2Proof.Machine.execTDeadExpire tag s
  | .allReduce who off words => Sys2Proof.Machine.execAllReduce who off words s
  | .reduceScatter who off words => Sys2Proof.Machine.execReduceScatter who off words s
  | .allGather who off words => Sys2Proof.Machine.execAllGather who off words s
  | .broadcast who off words => Sys2Proof.Machine.execBroadcast who off words s
  | .barrier who off words => Sys2Proof.Machine.execBarrier who off words s
  | .collectiveInterrupt => Sys2Proof.Machine.execCollectiveInterrupt s
  | .colFinish cluster value => Sys2Proof.Machine.execColFinish cluster value s
  | .collectiveDeadline => Sys2Proof.Machine.execCollectiveDeadline s
  | .travoFlitReceive msg seq ackSeq nak crcOk => Sys2Proof.Machine.execTravoFlitReceive msg seq ackSeq nak crcOk s
  | .snpShared txn line => Sys2Proof.Machine.execSnpShared txn line s
  | .snpInv txn line => Sys2Proof.Machine.execSnpInv txn line s
  | .line txn poison data => Sys2Proof.Machine.execLine txn poison data s
  | .grant txn => Sys2Proof.Machine.execGrant txn s
  | .ucRd txn addr size bad => Sys2Proof.Machine.execUcRd txn addr size bad s
  | .ucWr txn addr size be data image program => Sys2Proof.Machine.execUcWr txn addr size be data image program s
  | .tlRingWrite src ring word value => Sys2Proof.Machine.execTlRingWrite src ring word value s
  | .dbTail ring value => Sys2Proof.Machine.execDbTail ring value s
  | .dbHead ring value => Sys2Proof.Machine.execDbHead ring value s
  | .poll txn ring => Sys2Proof.Machine.execPoll txn ring s
  | .prefill desc bad => Sys2Proof.Machine.execPrefill desc bad s
  | .generate desc bad => Sys2Proof.Machine.execGenerate desc bad s
  | .sessionSet desc bad image imageBad => Sys2Proof.Machine.execSessionSet desc bad image imageBad s
  | .sessionClose desc bad => Sys2Proof.Machine.execSessionClose desc bad s
  | .abort desc bad => Sys2Proof.Machine.execAbort desc bad s
  | .call desc bad => Sys2Proof.Machine.execCall desc bad s
  | .callReturn => Sys2Proof.Machine.execCallReturn s
  | .stepBoundary results => Sys2Proof.Machine.execStepBoundary results s
  | .commit => Sys2Proof.Machine.execCommit s
  | .eventRecordWrite => Sys2Proof.Machine.execEventRecordWrite s
  | .jobBoundary => Sys2Proof.Machine.execJobBoundary s
  | .drainPoint => Sys2Proof.Machine.execDrainPoint s
  | .drainEnd => Sys2Proof.Machine.execDrainEnd s
  | .switchSaveDone => Sys2Proof.Machine.execSwitchSaveDone s
  | .switchReady upsets => Sys2Proof.Machine.execSwitchReady upsets s
  | .resumePoint => Sys2Proof.Machine.execResumePoint s
  | .quiesceOverrun => Sys2Proof.Machine.execQuiesceOverrun s
  | .swapDone => Sys2Proof.Machine.execSwapDone s
  | .canonWrite cluster canon => Sys2Proof.Machine.execCanonWrite cluster canon s
  | .wmReproWrite src job value => Sys2Proof.Machine.execWmReproWrite src job value s
  | .heartbeat => Sys2Proof.Machine.execHeartbeat s
  | .wmRecover src value image => Sys2Proof.Machine.execWmRecover src value image s
  | .retireCluster src value => Sys2Proof.Machine.execRetireCluster src value s
  | .eccRsvRetireWrite src die word value => Sys2Proof.Machine.execEccRsvRetireWrite src die word value s
  | .resetRelease found => Sys2Proof.Machine.execResetRelease found s
  | .recoveryGo src value image program => Sys2Proof.Machine.execRecoveryGo src value image program s
  | .secSvnBurnWrite src value => Sys2Proof.Machine.execSecSvnBurnWrite src value s
  | .hello node => Sys2Proof.Machine.execHello node s
  | .accept node => Sys2Proof.Machine.execAccept node s
  | .set node => Sys2Proof.Machine.execSet node s
  | .get node => Sys2Proof.Machine.execGet node s
  | .attest node => Sys2Proof.Machine.execAttest node s
  | .attestSigned => Sys2Proof.Machine.execAttestSigned s
  | .quiesce node => Sys2Proof.Machine.execQuiesce node s
  | .timeAnnounce node => Sys2Proof.Machine.execTimeAnnounce node s
  | .start node => Sys2Proof.Machine.execStart node s
  | .launch node => Sys2Proof.Machine.execLaunch node s
  | .launchNotice index => Sys2Proof.Machine.execLaunchNotice index s
  | .launchAckTimeout child index => Sys2Proof.Machine.execLaunchAckTimeout child index s
  | .launchChild node => Sys2Proof.Machine.execLaunchChild node s
  | .reparent node => Sys2Proof.Machine.execReparent node s
  | .launchAbort node => Sys2Proof.Machine.execLaunchAbort node s
  | .governorInterval mv0 amps0 mv1 amps1 watts => Sys2Proof.Machine.execGovernorInterval mv0 amps0 mv1 amps1 watts s
  | .voltageWriteDone => Sys2Proof.Machine.execVoltageWriteDone s
  | .railFault => Sys2Proof.Machine.execRailFault s
  | .senseCheck readings => Sys2Proof.Machine.execSenseCheck readings s
  | .tempRefresh readings => Sys2Proof.Machine.execTempRefresh readings s
  | .powerReset railsRemoved => Sys2Proof.Machine.execPowerReset railsRemoved s
  | .smbPartRead => Sys2Proof.Machine.execSmbPartRead s
  | .smbBootRead => Sys2Proof.Machine.execSmbBootRead s
  | .smbThermalRead => Sys2Proof.Machine.execSmbThermalRead s
  | .smbPowerRead => Sys2Proof.Machine.execSmbPowerRead s
  | .smbFaultRead => Sys2Proof.Machine.execSmbFaultRead s
  | .bmcCapWWrite watts pecOk => Sys2Proof.Machine.execBmcCapWWrite watts pecOk s
  | .alertResponse => Sys2Proof.Machine.execAlertResponse s
  | .hbmAccess request upsets onDie => Sys2Proof.Machine.execHbmAccess request upsets onDie s
  | .avsbusError rail op => Sys2Proof.Machine.execAvsbusError rail op s
  | .teardownDrainEnd ranges => Sys2Proof.Machine.execTeardownDrainEnd ranges s

end Sys2Proof.Machine
end

