-- ==== Sys2Proof/Safety.lean ====
section
/-! DEFINITION. The terms the statements are made in: what a command may change, what a record in detection says, which set-up sources
are heard, and the invariants of a run. -/

namespace Sys2Proof.Machine

/-- `t` agrees with `s` on a part. -/
def State.same (s t : State) : Part → Prop
  | .fuses => t.fuses = s.fuses
  | .clock => t.clock = s.clock
  | .tb => t.tb = s.tb
  | .lock => t.lock = s.lock
  | .present => t.present = s.present
  | .regs => t.regs = s.regs
  | .mem => t.mem = s.mem
  | .marks => t.marks = s.marks
  | .ecc => t.ecc = s.ecc
  | .rsv => t.rsv = s.rsv
  | .banks => t.banks = s.banks
  | .chans => t.chans = s.chans
  | .hg => t.hg = s.hg
  | .fab => t.fab = s.fab
  | .ports => t.ports = s.ports
  | .cores => t.cores = s.cores
  | .cls => t.cls = s.cls
  | .col => t.col = s.col
  | .tl => t.tl = s.tl
  | .sw => t.sw = s.sw
  | .boot => t.boot = s.boot
  | .pwr => t.pwr = s.pwr
  | .mg => t.mg = s.mg
  | .flt => t.flt = s.flt
  | .out => t.out = s.out
  | .free => t.free = s.free

/-- The parts of State that each command may change. -/
def scopeOf : Instr → List Part
  | .setupWrite _ _ _ => scopeSetup
  | .topSetupLockWrite _ _ => [.lock, .regs, .flt]
  | .reservoirAccess _ _ => scopeReservoir
  | .flitReceive _ _ _ => [.regs, .ecc, .hg, .ports, .cls, .flt, .out, .free]
  | .regionSeal _ _ _ _ => [.rsv, .flt]
  | .sealSignal _ => scopePort ++ [.col]
  | .regionRelease _ => [.rsv]
  | .varveMark _ _ _ _ => [.rsv]
  | .varveRecordWrite => [.regs, .rsv, .tl, .flt, .out]
  | .rsvRegionWrite _ _ _ => scopePort ++ [.col]
  | .slcChanWrite _ _ _ => [.regs, .chans, .flt]
  | .resetChannel _ _ _ => [.regs, .chans, .flt]
  | .push _ _ _ _ _ _ _ => scopePort
  | .pop _ _ _ _ => scopePort
  | .peek _ _ _ _ => scopePort
  | .dropPacket _ _ _ _ => scopePort
  | .count _ _ _ _ => scopePort
  | .sluiceStorageDone _ => scopePort
  | .fenceMarkersAcked _ _ => scopePort
  | .ftTick _ => scopeReport ++ [.clock, .tb, .pwr]
  | .ptpSample _ => [.tb, .sw, .regs, .ecc, .fab, .ports, .flt, .out, .free]
  | .ppsEdge => [.tb, .sw, .regs, .ecc, .fab, .ports, .flt, .out, .free]
  | .sampleTimeout => [.tb, .regs, .flt, .out]
  | .holdoverLimit => [.tb, .regs, .flt, .out]
  | .ftSrcWrite _ _ => [.tb, .regs, .flt, .out]
  | .ftTurnOriginWrite _ _ => [.regs, .flt]
  | .ftTurnLenWrite _ _ => [.tb, .regs, .flt]
  | .ftEpochTaiWrite _ _ => [.regs, .flt]
  | .turnBoundary _ _ => scopePort ++ [.tb, .lock, .present, .col, .sw]
  | .counterWindowClose => scopeFabric ++ [.tb]
  | .scrubRead _ _ => scopeMemory
  | .layerDescriptorWrite _ _ _ _ => [.regs, .flt]
  | .routeDecision => scopePort
  | .rankRound => [.regs, .hg]
  | .sortAndDispatch => scopeFabric
  | .shapeRecords => scopeFabric ++ [.chans]
  | .gatewayRelay => scopeFabric
  | .doneItem => scopeFabric ++ [.chans]
  | .combine => scopeFabric
  | .exchangeDeadline => scopeReservoir
  | .hgZoneWrite _ _ _ _ => [.regs, .flt]
  | .placeLoad _ _ => [.regs, .hg, .flt]
  | .placeLoadDone => scopeMemory
  | .placeCopyDone => [.hg]
  | .clCoreRunWrite _ _ _ => scopeReport ++ [.cores, .fab]
  | .fence _ => scopeReport ++ [.cores]
  | .amo _ _ _ _ _ _ => scopeFabric
  | .lrSc _ _ => scopeReport ++ [.cores]
  | .clAtomCtrlWrite _ _ _ => scopeFabric
  | .tileCmdPush _ _ _ _ => [.regs, .cls]
  | .matmul _ _ => scopeCompute
  | .tileRetire _ => scopeReport ++ [.cores, .cls]
  | .tileBoundary _ => scopeFabric ++ [.present, .chans, .sw, .boot]
  | .fillBegin _ _ => [.regs, .flt]
  | .fillEnd _ _ => [.regs, .flt]
  | .free _ _ => [.regs, .flt]
  | .clBufWrite _ _ _ _ => [.regs, .flt]
  | .dmaPush _ _ _ _ _ => [.regs, .cls]
  | .dmaStart _ _ => scopeFabric
  | .dmaComplete _ _ => scopeReport ++ [.cores, .cls]
  | .vecPush _ _ _ _ => [.regs, .cls]
  | .add _ => scopeCompute
  | .mul _ => scopeCompute
  | .axpy _ => scopeCompute
  | .scaleBias _ => scopeCompute
  | .exp _ => scopeCompute
  | .siluMul _ => scopeCompute
  | .rmsnorm _ => scopeCompute
  | .softmax _ => scopeCompute
  | .rope _ => scopeCompute
  | .convert _ => scopeCompute
  | .quantRow _ => scopeCompute
  | .rowSum _ => scopeCompute
  | .rowMax _ => scopeCompute
  | .sample _ => scopeCompute
  | .vecRetire _ => scopeReport ++ [.cores, .cls]
  | .flumeCmdPush _ _ _ _ => [.regs, .cls]
  | .gather _ => scopeReservoir ++ [.cores]
  | .compact _ => scopeReservoir ++ [.cores]
  | .mask _ => scopeReservoir ++ [.cores]
  | .check _ => scopeReservoir ++ [.cores]
  | .merge _ => scopeReservoir ++ [.cores]
  | .flumeComplete _ => scopeReport ++ [.cores, .cls]
  | .portEnableWrite _ _ _ => [.regs, .ports, .flt, .free]
  | .cmTestDone _ _ => [.regs, .ports, .flt, .free]
  | .trainDone _ _ => [.regs, .ports]
  | .laneIdDone _ _ _ _ _ => [.regs, .ports, .flt, .free]
  | .alignDone _ => [.regs, .ports]
  | .lldpSend _ => [.ports, .out]
  | .lldpReceive _ _ => [.regs, .fab, .ports, .flt, .free]
  | .identityExpire _ => [.regs, .ports, .flt, .free]
  | .cdrLoss _ _ => [.regs, .ports, .flt, .free]
  | .retrainTimeout _ => [.regs, .ports, .flt, .free]
  | .linkMcuReload _ _ => [.ports]
  | .cellFrameReceive _ _ _ _ => [.regs, .ecc, .hg, .fab, .ports, .cls, .flt, .out, .free]
  | .pauseReceive _ => [.regs]
  | .forwardingSlot => [.regs, .fab, .ports, .flt, .out, .free]
  | .swPacketReceive _ _ => [.regs, .fab, .flt]
  | .swAckReceive _ _ => [.regs, .fab, .flt, .out]
  | .swPacketSend _ => [.regs, .fab, .flt, .out]
  | .swAckSend _ => [.fab, .out]
  | .rtoExpire _ _ => [.regs, .fab, .flt, .out]
  | .neighborSolicitation _ _ => [.out]
  | .ptpEventMessage _ _ => [.tb, .sw, .regs, .ecc, .fab, .ports, .flt, .out, .free]
  | .loadIssue _ _ _ _ _ => scopeFabric
  | .storeIssue _ _ _ _ _ _ _ => scopeSetup
  | .atomicIssue _ _ _ _ _ _ _ _ _ => scopeFabric
  | .load _ => scopeMemory ++ [.fab]
  | .store _ => scopeFabric
  | .atomicAdd _ => scopeReservoir ++ [.fab]
  | .atomicMin _ => scopeReservoir ++ [.fab]
  | .atomicMax _ => scopeReservoir ++ [.fab]
  | .atomicAnd _ => scopeReservoir ++ [.fab]
  | .atomicOr _ => scopeReservoir ++ [.fab]
  | .atomicXor _ => scopeReservoir ++ [.fab]
  | .atomicSwap _ => scopeReservoir ++ [.fab]
  | .atomicCas _ => scopeReservoir ++ [.fab]
  | .atomicFadd _ => scopeReservoir ++ [.fab]
  | .atomicBadd2 _ => scopeReservoir ++ [.fab]
  | .loadRsp _ => scopeFabric
  | .atomicRsp _ => scopeFabric
  | .ack _ => scopeFabric
  | .ackDelayExpire _ _ => [.fab]
  | .tDeadExpire _ => scopeFabric
  | .allReduce _ _ _ => [.regs, .col, .flt]
  | .reduceScatter _ _ _ => [.regs, .col, .flt]
  | .allGather _ _ _ => [.regs, .col, .flt]
  | .broadcast _ _ _ => [.regs, .col, .flt]
  | .barrier _ _ _ => [.regs, .col, .flt]
  | .collectiveInterrupt => scopeReport ++ [.cores, .col]
  | .colFinish _ _ => scopeSluice ++ [.cores, .col, .sw]
  | .collectiveDeadline => scopeSluice ++ [.cores, .col, .sw]
  | .travoFlitReceive _ _ _ _ _ => scopeReservoir ++ [.cores, .col, .mg]
  | .snpShared _ _ => [.tl, .out]
  | .snpInv _ _ => [.tl, .out]
  | .line _ _ _ => scopeReservoir ++ [.cores, .col, .mg]
  | .grant _ => scopeReservoir ++ [.cores, .col, .mg]
  | .ucRd _ _ _ _ => scopeReport
  | .ucWr _ _ _ _ _ _ _ => scopeSetup
  | .tlRingWrite _ _ _ _ => [.regs, .tl, .flt]
  | .dbTail _ _ => [.tl, .flt]
  | .dbHead _ _ => [.tl, .flt]
  | .poll _ _ => [.regs, .tl, .out]
  | .prefill _ _ => scopePort
  | .generate _ _ => scopePort
  | .sessionSet _ _ _ _ => scopePort
  | .sessionClose _ _ => scopePort
  | .abort _ _ => scopePort
  | .call _ _ => scopePort
  | .callReturn => scopePort
  | .stepBoundary _ => scopeFabric ++ [.chans]
  | .commit => scopeReservoir
  | .eventRecordWrite => [.tl, .flt, .out]
  | .jobBoundary => [.regs, .sw, .flt]
  | .drainPoint => [.fab, .sw]
  | .drainEnd => [.fab, .sw]
  | .switchSaveDone => scopeFabric ++ [.sw]
  | .switchReady _ => scopeFabric ++ [.tb, .chans, .sw]
  | .resumePoint => scopeFabric ++ [.chans, .sw]
  | .quiesceOverrun => [.sw]
  | .swapDone => scopeMemory ++ [.sw]
  | .canonWrite _ _ => [.regs]
  | .wmReproWrite _ _ _ => [.regs, .flt]
  | .heartbeat => [.tl, .flt, .out]
  | .wmRecover _ _ _ => [.regs, .ecc, .cls, .boot, .flt]
  | .retireCluster _ _ => [.regs, .cls, .flt]
  | .eccRsvRetireWrite _ _ _ _ => [.regs, .flt]
  | .resetRelease _ => [.regs, .mem, .marks, .ecc, .ports, .boot, .pwr, .free]
  | .recoveryGo _ _ _ _ => [.regs, .ecc, .ports, .boot, .flt, .free]
  | .secSvnBurnWrite _ _ => [.fuses, .regs, .flt]
  | .hello _ => scopeFabric
  | .accept _ => scopeFabric
  | .set _ => scopeSetup
  | .get _ => scopeFabric
  | .attest _ => scopeFabric
  | .attestSigned => scopeFabric
  | .quiesce _ => scopeFabric ++ [.sw]
  | .timeAnnounce _ => scopeFabric ++ [.tb, .sw]
  | .start _ => scopeFabric ++ [.chans, .sw, .boot]
  | .launch _ => scopeFabric
  | .launchNotice _ => scopeFabric ++ [.boot]
  | .launchAckTimeout _ _ => scopeFabric
  | .launchChild _ => scopeFabric
  | .reparent _ => scopeFabric
  | .launchAbort _ => scopeFabric
  | .governorInterval _ _ _ _ _ => [.regs, .pwr, .flt]
  | .voltageWriteDone => [.pwr]
  | .railFault => [.regs, .pwr, .flt]
  | .senseCheck _ => [.regs, .pwr, .flt]
  | .tempRefresh _ => [.regs, .ports, .pwr]
  | .powerReset _ => scopeAll
  | .smbPartRead => [.out]
  | .smbBootRead => [.out]
  | .smbThermalRead => [.out]
  | .smbPowerRead => [.out]
  | .smbFaultRead => [.out]
  | .bmcCapWWrite _ _ => [.regs, .out]
  | .alertResponse => [.pwr, .out]
  | .hbmAccess _ _ _ => scopeReservoir
  | .avsbusError _ _ => [.regs, .pwr, .flt]
  | .teardownDrainEnd _ => scopeFabric

/-- The commands that are answered while the device is tripped or RESET_N is low: the sideband, RESET_N itself and the supply (R545, R547,
R549). -/
def onSideband : Instr → Bool
  | .resetRelease _ => true
  | .powerReset _ => true
  | .smbPartRead => true
  | .smbBootRead => true
  | .smbThermalRead => true
  | .smbPowerRead => true
  | .smbFaultRead => true
  | .bmcCapWWrite _ _ => true
  | .alertResponse => true
  | _ => false

/-- The record of a fault detected in state `s` under its running job (R18 to R20), before it gets its SEQ (R22). -/
structure Detected (s : State) (unit code : Nat) (addr : Option Nat) (detail : Nat) (r : FaultRecord) : Prop where
  code : r.code = BitVec.ofNat 8 code
  unit : r.unit = BitVec.ofNat 16 unit
  addrValid : r.addrValid = addr.isSome
  address : r.address = BitVec.ofNat 64 (addr.getD 0)
  detail : r.detail = BitVec.ofNat 64 detail
  jobValid : r.jobValid = s.job.isSome
  job : r.job = BitVec.ofNat 8 (s.job.getD 0)
  timeValid : r.timeValid = s.timeValid
  time : r.time = BitVec.ofNat 64 (if s.timeValid then s.now else s.clock.cycles)

/-- From `s` to `t` exactly one fault has been detected, with this unit, code, address and detail. -/
def Reports (s t : State) (unit code : Nat) (addr : Option Nat) (detail : Nat) : Prop :=
  ∃ r, t.flt.fresh = s.flt.fresh ++ [r] ∧ Detected s unit code addr detail r

/-- No fault has been detected. -/
def Silent (s t : State) : Prop := t.flt = s.flt

/-- From `s` to `t` one fault has been detected and core `k` has taken a trap with it. A control core whose handler stands outside its
cluster's code area then fetches from an unmapped address, which is a second one (R44, R213). -/
def ReportsAtTrap (s t : State) (k unit code : Nat) (addr : Option Nat) (detail : Nat) : Prop :=
  let pc := (s.core k).mtvec / 4 * 4
  let area := scratchBase + k / 4 * 2 ^ 24 + 0xFC0000
  if k < 128 ∧ ¬ (area ≤ pc ∧ pc < area + 0x40000) then
    ∃ r f, t.flt.fresh = s.flt.fresh ++ [r, f] ∧ Detected s unit code addr detail r ∧
      Detected s (s.clusterUnit (k / 4) (4 + k % 4)) Code.addressUnmapped (some pc) 0x30000 f
  else Reports s t unit code addr detail

/-- The sources whose set-up writes reach the whole of set-up space: the Watermaster, the management channel and, once the device has left
the safe state, Travo Link (R32, R511). A control core reaches its own cluster's instances only (R214). -/
def State.hears (s : State) : Source → Bool
  | .travo => !s.safeState
  | .core _ _ => false
  | _ => true

/-- The registers whose write only stores fields by their access codes; every other write of a register has a rule of its own. -/
def plainRegister (a : Nat) : Bool :=
  let o := a % 0x1000000
  let p := a % 0x10000
  match a / 0x1000000 with
  | 0 => a != Reg.TOP_SETUP_LOCK
  | 1 => !(decide (0x1000 ≤ o) && decide (o < 0x1800))
  | 2 => o % 32 != 0 && o % 32 != 0x18
  | 3 => !(decide (0x40000 ≤ o) && decide (o < 0x80000)) && !(decide (0x10000 ≤ o) && decide (o < 0x18000)) &&
      a != Reg.HG_PLACE_CTRL && a != Reg.HG_PLACE_FLIP
  | 4 => p != 0 && p != 8 && p != 0x1800 && !(decide (0x1000 ≤ p) && decide (p < 0x1800)) &&
      !(decide (0x600 ≤ p) && decide (p < 0x700) && p % 64 == 0x18)
  | 6 => p != 0
  | 7 => a != Reg.FWD_IDENT && a != Reg.FWD_FLIP
  | 8 => a != Reg.JT_CTRL
  | 9 => p != 0x80 && p != 0x88
  | 10 => !(decide (0x100000 ≤ o) && decide (o < 0x180000))
  | 11 => a != Reg.WM_PLAN_FLIP && !(decide (0x10000 ≤ o) && decide (o < 0x11000) && o % 16 == 0) &&
      !(decide (0x30000 ≤ o) && decide (o < 0x30800))
  | 12 => a != Reg.FT_CTRL && a != Reg.FT_TURN_ORIGIN && a != Reg.FT_TURN_LEN && a != Reg.FT_TURN_CHANGE && a != Reg.FT_EPOCH_TAI
  | 13 => a != Reg.ECC_WM_RECOVER && a != Reg.ECC_RETIRE_CL && !decide (0x10000 ≤ o)
  | 14 => a != Reg.SEC_SVN_BURN && a != Reg.SEC_RECOVERY_CTRL
  | _ => true

/-- The push and launch windows, which hold no register (R230, R246, R253, R273, R379). -/
def inWindow (a : Nat) : Bool :=
  let p := a % 0x10000
  (a / 0x1000000 == 4 && decide (0x40 ≤ p) && decide (p < 0xE0)) || (a / 0x1000000 == 5 && decide (0x40 ≤ p) && decide (p < 0x60)) ||
    (a / 0x1000000 == 9 && decide (0x40 ≤ p) && decide (p < 0x80))

/-- The Sluice ports of the control cores, which are no registers either (R255). -/
def inSlcPort (a : Nat) : Bool := a / 0x1000000 == 4 && decide (0x200 ≤ a % 0x10000) && decide (a % 0x10000 < 0x600)

/-- What a field holds after a write of `new` over `old`, by its access code (R12, R13). -/
def fieldAfter (lock : Bool) (f : FieldDesc) (old new : Nat) : Nat :=
  match f.acc with
  | .ro => old
  | .wo => old
  | .rw => holdTo f.hold new
  | .rwl => if lock then old else holdTo f.hold new
  | .w1s => old ||| new
  | .w1c => old &&& (2 ^ f.w - 1 - new)

/-- A region word as the table keeps it: its reserved bits read zero (R103). -/
def regionWord (v : Word) : Nat := v.toNat % 2 ^ 50 &&& (2 ^ 50 - 1 - 0x80)

/-- Does a seal from source `src` for `layer` count on a die (R109): the region can be sealed and is not, the source has not sealed it yet,
the layer is the one held, and the die still waits for seals? -/
def State.sealCounts (s : State) (src region layer die : Nat) : Bool :=
  let r := s.region region
  let c := s.sealCount region die
  (s.sealedLayer region).isNone && sealable r.type && r.seals != 0 && !bitAt c.bits src &&
    (c.bits == 0 || c.layer == layer) && decide (popCount 64 c.bits < r.seals)

/-- Every register but the listed ones reads as before. -/
def RegsBut (s t : State) (as : List Nat) : Prop := ∀ b, b ∉ as → t.reg b = s.reg b

-- Sluice channels ----------------------------------------------------------------------------------------------------

/-- Word 0 of a channel descriptor as it is kept after a write: reserved bits zero, the depth held to its limits (R112). -/
def channelWord (v : Word) : Nat :=
  v.toNat % 2 + bitsOf v.toNat 8 8 * 2 ^ 8 + min (max (bitsOf v.toNat 16 5) 4) 16 * 2 ^ 16 + bitsOf v.toNat 24 18 * 2 ^ 24

/-- A channel in service whose storage is mapped and whose pointers pass the check of R121. -/
def State.channelReady (s : State) (c : Nat) : Bool :=
  s.chanOn c && s.storageMapped (s.chanRegion c) (s.chanStart c) (s.chanDepth c) && decide ((s.chan c).head < 2 ^ 17) &&
    decide ((s.chan c).tail < 2 ^ 17) && ((s.chan c).fails (s.chanDepth c)).isNone

/-- The bitmap word that holds the end mark of pointer `p` (R113). -/
def State.markKey (s : State) (c p : Nat) : Nat := wordKey (canonRsv (s.chanPlace c (s.markOffset c p)))

/-- The end mark of pointer `p` (R113). -/
def State.endMark (s : State) (c p : Nat) : Bool := bitAt (memNat s.mem (s.markKey c p) 8) (p % s.chanDepth c % 64)

/-- The command of the table that a Sluice command is, with no upset. -/
def sluiceInstr (q : SluiceCmd) : Instr :=
  match q.op with
  | .push => .push q.who q.channel q.pktEnd q.fence q.data ⟨0, 0, 0, 0⟩ []
  | .pop => .pop q.who q.channel ⟨0, 0, 0, 0⟩ []
  | .peek => .peek q.who q.channel ⟨0, 0, 0, 0⟩ []
  | .drop => .dropPacket q.who q.channel ⟨0, 0, 0, 0⟩ []
  | .count => .count q.who q.channel ⟨0, 0, 0, 0⟩ []

/-- The request word of a Sluice command (R114). -/
def slcRequest (q : SluiceCmd) : Nat :=
  (match q.op with | .push => 1 | .pop => 2 | .peek => 3 | .drop => 4 | .count => 5) + b2n q.pktEnd * 2 ^ 4 + b2n q.fence * 2 ^ 5 +
    q.channel * 2 ^ 8

/-- What a PUSH that takes effect on a channel in order does (R115, R116, R120): discarded while DROPPING is set, refused when the channel
is full, else the 64 bytes and the mark are stored at TAIL, which advances. -/
def PushOutcome (s t : State) (who : Requester) (c : Nat) (fin : Bool) (data : List Byte) : Prop :=
  let x := s.chan c
  let answer (accepted discarded : Bool) (n : Nat) : Output :=
    .sluice who (sluiceTag false false accepted x.resetProd false discarded false c n 0) noItem
  (t.chan c).head = x.head ∧ (t.chan c).resetProd = false ∧
  if x.dropping then
    t.out = s.out ++ [answer true true x.count] ∧ t.mem = s.mem ∧ (t.chan c).tail = x.tail ∧ (t.chan c).dropping = !fin ∧
      (t.chan c).inPacket = (x.inPacket && !fin)
  else if s.chanDepth c ≤ x.count then
    t.out = s.out ++ [answer false false x.count] ∧ t.mem = s.mem ∧ (t.chan c).tail = x.tail ∧
      (t.chan c).fullRefs = satAdd 32 x.fullRefs 1
  else
    t.out = s.out ++ [answer true false (x.count + 1)] ∧ (t.chan c).tail = (x.tail + 1) % 2 ^ 17 ∧
      memBytes t.mem (canonRsv (s.chanPlace c (s.slotOffset c x.tail))) 64 = (data ++ noItem).take 64 ∧ t.endMark c x.tail = fin

-- Fabric time --------------------------------------------------------------------------------------------------------

/-- The servo leaves the rate word within SLEW_MAX parts per million of nominal (R72). -/
def State.rateHeld (s t : State) : Prop :=
  Config.nominalRate - s.maxSlew ≤ t.tb.rate.toNat ∧ t.tb.rate.toNat ≤ Config.nominalRate + s.maxSlew

/-- A change of state of the timebase is recorded and raised as an event (R83). -/
def TimeUnlocked (s t : State) (code : Nat) : Prop :=
  let d := code + unsignedOf 32 t.tb.offset * 2 ^ 8
  Reports s t 0x4013 Code.timeUnlocked none d ∧ t.out = s.out ++ [.event Code.timeUnlocked d]

/-- What a sample that gives `source` as the fabric time of this moment does (R80), when `missed` PPS edges went by before it (R95). -/
def SampleOutcome (s t : State) (source missed : Nat) : Prop :=
  let off : Int := (source : Int) - (s.now : Int)
  match s.tb.mode with
  | .unset => t.tb.mode = .acquiring ∧ t.tb.acqOffsets = [off] ∧ t.tb.acc = s.tb.acc ∧ t.tb.samples = s.tb.samples + 1 ∧ Silent s t
  | .acquiring =>
    let run := (off :: s.tb.acqOffsets).take 4
    t.tb.samples = s.tb.samples + 1 ∧
    if run.length = 4 ∧ ∀ a ∈ run, ∀ b ∈ run, (a - b).natAbs ≤ 1000 then
      t.tb.mode = .locked ∧ t.now = source % 2 ^ 64 ∧ t.tb.lastSample = s.clock.elapsedNs
    else t.tb.mode = .acquiring ∧ t.tb.acqOffsets = run ∧ t.tb.acc = s.tb.acc ∧ Silent s t
  | .locked =>
    t.tb.acc = s.tb.acc ∧ t.tb.offset = off ∧
    if off.natAbs ≤ 1000 then
      t.tb.mode = .locked ∧ t.tb.outlierRun = 0 ∧ t.tb.samples = s.tb.samples + 1 ∧ t.tb.lastSample = s.clock.elapsedNs ∧
        s.rateHeld t ∧ Silent s t
    else
      t.tb.samples = s.tb.samples ∧ t.tb.rate = s.tb.rate ∧
      t.fld Reg.FT_COUNT Fld.FT_COUNT_SAMPLES_REJECTED = satAdd 16 (s.fld Reg.FT_COUNT Fld.FT_COUNT_SAMPLES_REJECTED) 1 ∧
      if 7 ≤ s.tb.outlierRun + missed then t.tb.mode = .holdover ∧ t.tb.holdStart = s.clock.elapsedNs ∧ TimeUnlocked s t 3
      else t.tb.mode = .locked ∧ t.tb.outlierRun = s.tb.outlierRun + missed + 1 ∧ Silent s t
  | _ =>
    t.tb.acc = s.tb.acc ∧ t.tb.offset = off ∧ t.tb.samples = s.tb.samples + 1 ∧ t.tb.lastSample = s.clock.elapsedNs ∧ s.rateHeld t ∧
    if off.natAbs ≤ s.fld Reg.FT_CTRL Fld.FT_CTRL_LOCK_NS ∧ 15 ≤ s.tb.inlierRun then t.tb.mode = .locked ∧ TimeUnlocked s t 2
    else t.tb.mode = s.tb.mode ∧ Silent s t

-- Clusters -----------------------------------------------------------------------------------------------------------

/-- The sources whose writes reach the instances of cluster `n`: besides, its own control cores (R214). -/
def State.hearsIn (s : State) (n : Nat) (src : Source) : Bool :=
  s.hears src || match src with
    | .core m _ => m == n
    | _ => false

/-- The commands that wait in the queue of a push window (R230, R246, R273): tile, DMA engines 0 and 1, vector, Flume. -/
def Cluster.queue (c : Cluster) (win : Nat) : List (List Nat) :=
  match win with
  | 0 => c.tiles.map fun e => e.words
  | 3 => c.vecs
  | 4 => c.flmQ
  | w => tblGetD (w - 1) [] c.dmaQ

-- Fabric operations --------------------------------------------------------------------------------------------------

/-- Nothing waits that the next event would set going: no operation for a table entry, no DMA data to be stored, no write at an atomic port,
no load-board swap, no work of the management firmware. -/
def State.settled (s : State) : Bool :=
  s.fab.waiting.isEmpty && s.cls.all (fun e => e.2.dmaRun.all fun r => r.2.unsent.isEmpty) &&
    s.cores.all (fun e => e.2.atomWait.isEmpty) && s.hg.swapDue.isEmpty && s.mg.tasks.isEmpty

/-- No protected word that `n` bytes from canonical address `a` touch holds an error or a poison mark. -/
def State.clean (s : State) (a n : Nat) : Prop := ∀ k ∈ wordKeys a n, tblFind k s.marks = none

/-- The operations that LOAD_ISSUE, STORE_ISSUE with all bytes enabled, and ATOMIC_ISSUE bring to the agent (R335, R340). -/
def loadOp (who : Requester) (a len : Nat) (sink : Sink) : OpReq :=
  ⟨who, Op.load, false, a, len, 255, 0, false, false, false, [], sink⟩
def storeOp (who : Requester) (a : Nat) (data : List Byte) (poison : Bool) : OpReq :=
  ⟨who, Op.store, false, a, data.length, 255, 0, false, false, poison, data, .none⟩
def atomicOp (who : Requester) (a aop : Nat) (wide signed : Bool) (opnd swap : Word) (sink : Sink) : OpReq :=
  ⟨who, Op.atomic, false, a, if wide then 8 else 4, 255, aop, signed, false, false, leBytes 8 opnd.toNat ++ leBytes 8 swap.toNat, sink⟩

/-- The commands by which core `who` issues a load, a store and an atomic to address `a`, with what each brings to the agent. -/
def issues (who : Requester) (a : Word) (len rd ilen : Nat) (data : List Byte) (poison : Bool) (aop : Nat) (wide signed : Bool)
    (opnd swap : Word) : List (Instr × OpReq) :=
  [(.loadIssue who false a len (.reg rd ilen), loadOp who a.toNat len (.reg rd ilen)),
   (.storeIssue who false a 255 data poison ilen, storeOp who a.toNat data poison),
   (.atomicIssue who false a aop wide signed opnd swap (.reg rd ilen), atomicOp who a.toNat aop wide signed opnd swap (.reg rd ilen))]

/-- What an atomic leaves in its word (R354): CAS on another value than the operand leaves it as it was. -/
def atomicResult (aop w : Nat) (signed : Bool) (old opnd swap : Nat) : Nat :=
  if aop = 7 ∧ old ≠ opnd % 2 ^ w then old else atomicValue aop w signed old (opnd % 2 ^ w) (swap % 2 ^ w) % 2 ^ w

/-- The value that a 4- or 8-byte atomic puts into a core's register (RISC-V). -/
def atomicRead (wide : Bool) (old : Nat) : Nat := if wide then old else unsignedOf 64 (signedOf 32 old)

/-- Memory holds an atomic's result at `a` and is as before elsewhere. -/
def AtomicAt (s t : State) (a len aop : Nat) (signed : Bool) (opnd swap : Nat) : Prop :=
  memNat t.mem a len = atomicResult aop (8 * len) signed (memNat s.mem a len) opnd swap ∧
    ∀ b, (b < a ∨ a + len ≤ b) → memByte t.mem b = memByte s.mem b

/-- The cell at the head of a port die's ejection queues, well formed (R347, R349). -/
def State.heads (s : State) (d : Nat) (c : Cell) : Prop := (s.drainCell d).map (fun e => e.1) = some c ∧ cellFormOk c = true

/-- The rows of the ten atomic operations, by AOP (R354). -/
def atomicRows (d : Nat) : List (Nat × Instr) :=
  [(0, .atomicAdd d), (1, .atomicMin d), (2, .atomicMax d), (3, .atomicAnd d), (4, .atomicOr d), (5, .atomicXor d), (6, .atomicSwap d),
   (7, .atomicCas d), (8, .atomicFadd d), (9, .atomicBadd2 d)]

-- Travo Link and requests --------------------------------------------------------------------------------------------

/-- One flit leaves toward the companion, under the next replay sequence number (R404). -/
def Sends (s t : State) (f : TravoFlit) : Prop :=
  t.out = s.out ++ [.travo f ((s.tl.txSeq + 1) % 4096)] ∧ t.tl.txSeq = (s.tl.txSeq + 1) % 4096

/-- A submission entry may be consumed from ring `r` for the running job `j` (R414, R438). -/
def State.mayConsume (s : State) (j r : Nat) : Prop :=
  s.job = some j ∧ s.travoUp = true ∧ s.timeValid = true ∧ s.sw.stopped = false ∧ s.ecc.halted = false ∧ s.safeState = false ∧
    s.windowFull j = false ∧ s.nextRing j = some r

/-- The six rows of requests, by OP (R417). -/
def requestRows (d : List Byte) (bad : Bool) (image : List Byte) : List (Nat × Instr) :=
  [(1, .prefill d bad), (2, .generate d bad), (3, .sessionSet d bad image false), (4, .sessionClose d bad), (5, .abort d bad),
   (6, .call d bad)]

/-- The completion ring of submission ring `r` takes one entry, with this tag and status (R419). -/
def Completes (s t : State) (r tag status : Nat) : Prop :=
  let x := s.ring (s.cqOf r)
  let y := t.ring (s.cqOf r)
  y.tail = (x.tail + 1) % 2 ^ 32 ∧ ∃ e rest, y.recent = (x.tail, e) :: rest ∧ bytesAt e 0 4 = tag ∧ bytesAt e 4 1 = status

/-- A session's entry lies in HBM and reads without error; `entry` is its 64 bytes (R428). -/
def State.sessionClean (s : State) (id : Nat) : Prop :=
  s.sessionAddr id % 64 = 0 ∧ s.sessionAddr id + 64 ≤ hbmSize ∧ s.clean (s.sessionAddr id) 64
def State.sessionEntry (s : State) (id : Nat) : List Byte := memBytes s.mem (s.sessionAddr id) 64

/-- No SESSION_CLOSE waits for its session's holder (R429). -/
def State.noneClosing (s : State) : Prop := ∀ q ∈ s.tl.requests, q.stage ≠ .closing

-- The management channel ---------------------------------------------------------------------------------------------

/-- The mailbox's next frame is `f`, in a slot that lies in HBM and reads without error, and the firmware runs (R522). -/
def State.mailHolds (s : State) (f : MgFrame) : Prop :=
  4 ≤ s.phase ∧ s.ecc.recover = false ∧ s.mailSlot = some f.slot ∧ s.frameIn f.slot = (f, s) ∧ s.boxSlot f.slot % 8 = 0 ∧
    s.boxSlot f.slot + 8 ≤ hbmSize ∧ s.clean (s.boxSlot f.slot) 8

/-- A frame of the open channel `c` that the device accepts: its session, tag and SEQ are good (R524, R527). -/
def State.admits (s : State) (c : MgSession) (f : MgFrame) : Prop :=
  s.mailHolds f ∧ f.len ≤ 32608 ∧ s.mg.session = some c ∧ c.id = f.session ∧ hmac256 c.kIn f.signed = f.tag ∧ s.mg.lastIn < f.seq

/-- The frame's slot has been given back: its word 0 reads zero, and no other byte has changed (R522). -/
def SlotEmptied (s t : State) (f : MgFrame) : Prop :=
  memNat t.mem (s.boxSlot f.slot) 8 = 0 ∧
    ∀ x, (x < s.boxSlot f.slot ∨ s.boxSlot f.slot + 8 ≤ x) → memByte t.mem x = memByte s.mem x

/-- A frame is refused with MGMT_REFUSED of a kind, at most once per kind and counter window; otherwise it is counted (R527). -/
def Refuses (s t : State) (kind node : Nat) : Prop :=
  if limitKey Code.mgmtRefused kind 0 ∈ s.flt.limits then
    Silent s t ∧ RegsBut s t [Reg.SEC_CNT_MGMT] ∧
      t.fld Reg.SEC_CNT_MGMT Fld.SEC_CNT_MGMT_REJECTED = (s.fld Reg.SEC_CNT_MGMT Fld.SEC_CNT_MGMT_REJECTED + 1) % 2 ^ 32
  else t.regs = s.regs ∧ Reports s t 0x4000 Code.mgmtRefused none (kind + node % 2 ^ 16 * 2 ^ 4)

/-- The command leaves the state `u`, from which the firmware's fabric work has gone on as far as it goes (R522). -/
def RunsThen (c : Instr) (s u : State) : Prop := ∃ t, exec c s = .next t ∧ ∀ p ∈ scopeOf c, u.mgPump.same t p

/-- The fabric work that sends a frame to a manager's mailbox: wait for the slot, store the frame, fence, store its SEQ (R522, R524). -/
def frameTasks (node off session seq : Nat) (key : Option (List Byte)) (type : Nat) (payload : List Byte) : List MgTask :=
  let body := leBytes 4 type ++ leBytes 4 payload.length ++ leBytes 8 seq ++ leBytes 8 session ++ List.replicate 8 0 ++ payload
  let slot := nodeAddr node ((off + (seq - 1) % 16 * 0x8000) % 2 ^ 40)
  [.await slot, .store (slot + 64) (body ++ (key.map fun k => hmac256 k body).getD []), .fence, .store slot (leBytes 8 seq)]

/-- A frame of the open channel `c` has been queued for its manager. -/
def Replies (s u : State) (c : MgSession) (type : Nat) (payload : List Byte) : Prop :=
  u.mg.outSeq = s.mg.outSeq + 1 ∧
    u.mg.tasks = s.mg.tasks ++ frameTasks c.node c.off c.id (s.mg.outSeq + 1) (some c.kOut) type payload

/-- An accepted frame: its SEQ is the last, and it is counted (R527, R534). -/
def Accepts (s u : State) (f : MgFrame) : Prop :=
  u.mg.lastIn = f.seq ∧
    u.fld Reg.SEC_CNT_MGMT Fld.SEC_CNT_MGMT_FRAMES = (s.fld Reg.SEC_CNT_MGMT Fld.SEC_CNT_MGMT_FRAMES + 1) % 2 ^ 32

/-- The commands that take frames from a manager, by type (R524). -/
def frameRows (node : Nat) : List (Nat × Instr) :=
  [(0x01, .hello node), (0x03, .accept node), (0x10, .set node), (0x12, .get node), (0x20, .attest node), (0x30, .quiesce node),
   (0x40, .launch node), (0x41, .launchChild node), (0x42, .reparent node), (0x45, .launchAbort node), (0x50, .timeAnnounce node),
   (0x51, .start node)]

/-- The firmware's fabric work waits for the answer of a load. -/
def State.mgBusy (s : State) : Prop :=
  s.mg.waits = true ∧ s.mg.got = none ∧ ∃ a rest, s.mg.tasks = .await a :: rest ∨ s.mg.tasks = .load a :: rest

-- Power --------------------------------------------------------------------------------------------------------------

/-- The clock has stepped down from `old` to `new` under some causes (R542, R544): the lower voltage is written, a step up under way is given up,
SMBALERT_N asserts, and each cause has its record, at most one in a counter window. -/
def StepsDown (s t : State) (old new : Nat) (causes : List Nat) : Prop :=
  t.fld Reg.PWR_STATUS Fld.PWR_STATUS_STEP = new ∧ t.fld (Reg.PWR_RAIL 0) Fld.PWR_RAIL_SET_MV = nthD s.fuses.stepMv new 720 % 2 ^ 16 ∧
  t.pwr.stepUp = none ∧ t.pwr.clockAt = none ∧ t.pwr.alert = true ∧ t.fld Reg.PWR_STATUS Fld.PWR_STATUS_CAUSE ∈ causes ∧
  ∀ c ∈ causes, limitKey Code.clockStepped c 0 ∉ s.flt.limits → ∃ r ∈ t.flt.fresh, Detected s 0x4014 Code.clockStepped none
    (new + old * 2 ^ 4 + c * 2 ^ 8 + s.fld Reg.PWR_STATUS Fld.PWR_STATUS_TJ_MAX * 2 ^ 12 +
      s.fld Reg.PWR_STATUS Fld.PWR_STATUS_TJ_DIE * 2 ^ 20) r

/-- Safe hold (R540): the flag is set, and the clock goes to the safe clock unless it is there. -/
def HoldsSafe (s t : State) (cause : Nat) : Prop :=
  let cur := s.fld Reg.PWR_STATUS Fld.PWR_STATUS_STEP
  t.flag Reg.PWR_STATUS Fld.PWR_STATUS_SAFE_HOLD = true ∧
    if cur < 5 then StepsDown s t cur 5 [cause] else t.fld Reg.PWR_STATUS Fld.PWR_STATUS_STEP = cur ∧ Silent s t

/-- The block reads of the sideband, by command, with the bytes each answers (R549). -/
def State.smbReads (s : State) : List (Nat × Instr × List Byte) :=
  let st (f : BitField) : Nat := s.fld Reg.PWR_STATUS f
  [(0x01, .smbPartRead, leBytes 2 s.fuses.part ++ leBytes 1 (s.fuses.letter % 16 + s.fuses.digit % 16 * 16) ++
      leBytes 2 (s.fld Reg.FWD_IDENT Fld.FWD_IDENT_NODE) ++ leBytes 1 s.fuses.lifecycle ++ leBytes 2 0),
   (0x02, .smbBootRead, leBytes 1 (s.fld Reg.SEC_BOOT_STATUS Fld.SEC_BOOT_STATUS_CODE) ++
      leBytes 1 (s.fld Reg.SEC_BOOT_STATUS Fld.SEC_BOOT_STATUS_PHASE) ++ leBytes 2 0),
   (0x03, .smbThermalRead, leBytes 1 (st Fld.PWR_STATUS_TJ_MAX) ++ leBytes 1 (st Fld.PWR_STATUS_TJ_DIE) ++ leBytes 1 (st Fld.PWR_STATUS_STEP) ++
      leBytes 1 (st Fld.PWR_STATUS_CAUSE) ++ leBytes 2 (s.fld Reg.PWR_CNT Fld.PWR_CNT_THERMAL) ++ leBytes 2 0),
   (0x04, .smbPowerRead, leBytes 2 (s.fld Reg.PWR_POWER Fld.PWR_POWER_WATTS) ++ leBytes 2 (s.fld (Reg.PWR_RAIL 0) Fld.PWR_RAIL_READ_MV) ++
      leBytes 2 (s.fld (Reg.PWR_RAIL 0) Fld.PWR_RAIL_AMPS) ++ leBytes 2 (s.fld (Reg.PWR_RAIL 1) Fld.PWR_RAIL_AMPS)),
   (0x05, .smbFaultRead, match s.flt.last with | some r => r.bytes | none => List.replicate 32 0)]

end Sys2Proof.Machine
end

