-- ==== Sys2Proof/Certificates/Slice0/Obligations.lean ====
section
/-! DEFINITION. The statements about the block, for the provers: what each command does, what it leaves alone, and what holds of every
state. -/

open Sys2Proof Sys2Proof.Machine

-- The machine as a whole ---------------------------------------------------------------------------------------------

/-- A step takes the command at the front of the queue and runs it on the state with the queue's rest (the queue itself is the model's
form of a block, log entry 3). -/
def Sys2Proof.Claims.StepRunsTheFrontCommand : Prop :=
  ∀ (c : Instr) (rest : List Instr) (s : State), s.pending = c :: rest → step s = exec c { s with pending := rest }

/-- With no command waiting a step answers a next state with nothing in the queue: the state as it was, but for a running collective program
whose cores have taken its interrupt, which makes a pass of its own (R379; the model's choice, log entries 3 and 42). -/
def Sys2Proof.Claims.IdleStepRunsTheCollectiveProgram : Prop :=
  ∀ s : State, s.pending = [] → ∃ t, step s = .next t ∧ t.pending = [] ∧ (∀ p, p ∉ scopeProgram → s.same t p) ∧
    ((s.live = false ∨ s.colBusy = false ∨ s.col.raised = none) → t = s)

/-- Every command is answered with a next state, in every state and on all operands: the model neither faults nor refuses. -/
def Sys2Proof.Claims.EveryCommandAnswersANextState : Prop := ∀ (i : Instr) (s : State), ∃ t, exec i s = .next t

/-- The frame of every command: it leaves the queue and every part of State outside its scope as they were. -/
def Sys2Proof.Claims.CommandsKeepToTheirParts : Prop :=
  ∀ (i : Instr) (s t : State), exec i s = .next t → t.pending = s.pending ∧ ∀ p, p ∉ scopeOf i → s.same t p

/-- While the device has tripped or is held in reset, no command but those of the sideband, RESET_N and the supply has an effect (R545,
R547). -/
def Sys2Proof.Claims.DeadDeviceIgnoresCommands : Prop :=
  ∀ (i : Instr) (s : State), s.live = false → onSideband i = false → exec i s = .next s

/-- Right after reset, whatever the fuses hold: every register that takes no value from the fuses or the regulator holds the reset word of
its table; TOP_DEVICE_ID and TOP_CLUSTER_MAP show the fuses (R45, R46); the lock is clear (R47); fabric time is UNSET and not valid (R80);
the boot is in its ROM phase (R534); no region is sealed; nothing waits, and no fault is recorded. -/
def Sys2Proof.Claims.ResetLeavesTheStatedValues : Prop :=
  ∀ f : Fuses,
    let s := State.atReset f
    (∀ a, a ∉ [Reg.TOP_DEVICE_ID, Reg.FWD_OUI, Reg.SEC_LIFECYCLE, Reg.SEC_SVN, Reg.PWR_RAIL 0, Reg.PWR_RAIL 1] →
      s.reg a = regResetNat a) ∧
    s.fld Reg.TOP_DEVICE_ID Fld.TOP_DEVICE_ID_ENABLED_CLUSTERS = f.clusters % 256 ∧
    s.fld Reg.TOP_DEVICE_ID Fld.TOP_DEVICE_ID_STEPPING_LETTER = f.letter % 16 ∧
    s.fld Reg.TOP_DEVICE_ID Fld.TOP_DEVICE_ID_STEPPING_DIGIT = f.digit % 16 ∧
    s.fld Reg.TOP_DEVICE_ID Fld.TOP_DEVICE_ID_PART_CODE = f.part % 65536 ∧
    (∀ n, n < 32 → (s.clusterPresent n = true ↔ n < f.clusters)) ∧
    s.lock = false ∧ s.tb.mode = .unset ∧ s.timeValid = false ∧ s.phase = 0 ∧ (∀ r, s.sealedLayer r = none) ∧
    (∀ a, memByte s.mem a = 0) ∧ s.pending = [] ∧ s.out = [] ∧ s.flt.fresh = [] ∧ s.flt.last = none ∧ s.fuses = f

-- Set-up space -------------------------------------------------------------------------------------------------------

/-- A set-up write changes a register field by field under the access codes of R12, with the lock rule of R13, in every register without
a rule of its own: each field takes what its code gives, no other register changes (but the fingerprint's VALID, R528), and exactly one
SETUP_LOCKED record is raised when a locked field would change, none otherwise. -/
def Sys2Proof.Claims.SetupWriteFollowsTheAccessCodes : Prop :=
  ∀ (s : State) (src : Source) (a : Nat) (d : RegDesc) (v : Word),
    s.live = true → s.hears src = true → a < 0x10000000 → regDescAt a = some d → d.src.accepts src = true →
    plainRegister a = true → s.absentInstance a = false →
    ∃ t, exec (.setupWrite src (BitVec.ofNat 64 (setupBase + a)) v) s = .next t ∧ RegsBut s t [a, Reg.SEC_FP_CTRL] ∧
      (∀ f ∈ d.fields, bitsOf (t.reg a) f.lo f.w = fieldAfter s.lock f (bitsOf (s.reg a) f.lo f.w) (bitsOf v.toNat f.lo f.w)) ∧
      (if ∃ f ∈ d.fields, s.lock = true ∧ f.acc = .rwl ∧ bitsOf v.toNat f.lo f.w ≠ bitsOf (s.reg a) f.lo f.w then
        Reports s t 0x4014 Code.setupLocked (some (setupBase + a)) 0
      else Silent s t)

/-- R14: an unassigned set-up address reads zero, over Travo Link too (R405), and a write to it, from any source that is heard, changes nothing;
neither raises a fault. -/
def Sys2Proof.Claims.UnassignedAddressesReadZeroAndIgnoreWrites : Prop :=
  ∀ (s : State) (a : Nat), a < 0x10000000 →
    (regDescAt (mirrored a) = none → inSlcPort a = false → s.setupReadAt (setupBase + a) = 0 ∧
      ∀ txn, s.live = true → s.travoUp = true → ∃ t, exec (.ucRd txn (BitVec.ofNat 64 (setupBase + a)) 3 false) s = .next t ∧
        t.regs = s.regs ∧ Silent s t ∧ Sends s t ⟨0x1A, false, txn % 4096, 0, 3, setupBase + a, 0, List.replicate 8 0⟩) ∧
    (regDescAt a = none → inWindow a = false → ∀ (src : Source) (v : Word), s.hears src = true →
      exec (.setupWrite src (BitVec.ofNat 64 (setupBase + a)) v) s = .next s)

/-- A register that does not accept a source refuses its whole write with SETUP_LOCKED (R13), and a control core's write outside its own
cluster's instances is unmapped (R214, R44): neither changes a register. -/
def Sys2Proof.Claims.RefusedSourcesChangeNothing : Prop :=
  ∀ (s : State) (src : Source) (a : Nat) (v : Word), s.live = true → a < 0x10000000 →
    (∀ d, s.hears src = true → regDescAt a = some d → d.src.accepts src = false → s.absentInstance a = false →
      ∃ t, exec (.setupWrite src (BitVec.ofNat 64 (setupBase + a)) v) s = .next t ∧ t.regs = s.regs ∧
        Reports s t 0x4014 Code.setupLocked (some (setupBase + a)) 0) ∧
    (∀ n k, src = .core n k → coreSetup n a = none →
      ∃ t, exec (.setupWrite src (BitVec.ofNat 64 (setupBase + a)) v) s = .next t ∧ t.regs = s.regs ∧
        Reports s t (s.clusterUnit n (4 + k)) Code.addressUnmapped (some (setupBase + a)) 0x10000)

/-- R47, R13: writing 1 to TOP_SETUP_LOCK sets the lock, writing 0 leaves it, and no write clears it; the register reads the lock. -/
def Sys2Proof.Claims.LockIsSetByWritingOne : Prop :=
  ∀ (s : State) (src : Source) (v : Word), s.live = true → s.hears src = true →
    ∃ t, exec (.topSetupLockWrite src v) s = .next t ∧ t.lock = (s.lock || v.getLsbD 0) ∧ RegsBut s t [Reg.TOP_SETUP_LOCK] ∧
      t.setupReadAt (setupBase + Reg.TOP_SETUP_LOCK) = b2n t.lock ∧ Silent s t

-- The Reservoir ------------------------------------------------------------------------------------------------------

/-- A write of a region table entry that no kind of R105 refuses is taken whole (R103), no other register changes and nothing is reported;
a write of FREE forgets the region's seals and varve accumulators (R106). (A write that ends a hold of the Headgate can start a routing
step besides, so no signal of a gate region waits here.) -/
def Sys2Proof.Claims.RegionWriteIsTaken : Prop :=
  ∀ (s : State) (src : Source) (n : Nat) (v : Word), s.live = true → s.hears src = true → n < 256 → s.col.seals = [] →
    s.regionRefusal n (regionWord v) = none →
    ∃ t, exec (.rsvRegionWrite src n v) s = .next t ∧ t.reg (Reg.RSV_REGION n) = regionWord v ∧ RegsBut s t [Reg.RSV_REGION n] ∧
      Silent s t ∧ t.mem = s.mem ∧
      ((Region.ofWord (regionWord v)).type = 0 →
        t.sealedLayer n = none ∧ ∀ d, d < 4 → t.sealCount n d = ⟨0, 0⟩ ∧ t.varveAcc n d = ⟨0, 0, false⟩)

/-- R105: a write of the region table that a kind refuses leaves the whole table as it is and writes one REGION_INVALID record with the
entry's address, the region and the kind. Kind 0 (the region would share a granule of a die with another region in use) comes before
the others, and a value in use over an entry in use is always refused. -/
def Sys2Proof.Claims.RefusedRegionWriteChangesNothing : Prop :=
  ∀ (s : State) (src : Source) (n : Nat) (v : Word), s.live = true → s.hears src = true → n < 256 → s.col.seals = [] →
    let r := Region.ofWord (regionWord v)
    (∀ kind other, s.regionRefusal n (regionWord v) = some (kind, other) →
      ∃ t, exec (.rsvRegionWrite src n v) s = .next t ∧ t.regs = s.regs ∧ t.rsv = s.rsv ∧
        Reports s t 0x1050 Code.regionInvalid (some (setupBase + Reg.RSV_REGION n))
          (n + kind * 2 ^ 12 + if kind = 0 then other * 2 ^ 16 else 0)) ∧
    (∀ m d p, m < 256 → m ≠ n → r.type ≠ 0 → (s.region m).type ≠ 0 → d < 4 → r.occupies d p = true → (s.region m).occupies d p = true →
      ∃ other, s.regionRefusal n (regionWord v) = some (0, other)) ∧
    (r.type ≠ 0 → (s.region n).type ≠ 0 → s.regionRefusal n (regionWord v) ≠ none)

/-- R109: a seal that counts sets its source's bit on its die and holds its layer there; no other die's count changes; nothing is reported;
the region is sealed for that layer exactly when every die has now counted SEAL_COUNT seals of one layer (R55). An engine that has no seal
source seals nothing. -/
def Sys2Proof.Claims.SealIsCounted : Prop :=
  ∀ (s : State) (who : Requester) (region layer die : Nat), s.live = true → die < 4 → region < 256 →
    (sealSource who = none → exec (.regionSeal who region layer die) s = .next s) ∧
    (∀ src, sealSource who = some src → s.sealCounts src region layer die = true →
      ∃ t, exec (.regionSeal who region layer die) s = .next t ∧
        t.sealCount region die = ⟨(s.sealCount region die).bits ||| 2 ^ src, layer⟩ ∧
        (∀ r d, d < 4 → (r, d) ≠ (region, die) → t.sealCount r d = s.sealCount r d) ∧ Silent s t ∧
        t.sealedLayer region = (if t.sealComplete region then some layer else none) ∧
        (∀ r, r ≠ region → t.sealedLayer r = s.sealedLayer r) ∧
        (t.sealComplete region = true → (s.region region).varve = true → ∀ d, d < 4 → t.varveAcc region d = ⟨0, 0, false⟩))

/-- R109, R58: a seal that does not count is discarded and leaves the seals of every die as they were, with one SEAL_LATE record of the
refusing die. It is of kind 4, with the layer held and the one carried, where the region can be sealed and the die holds seals of another
layer, and of kind 1, with the layer carried, elsewhere (which of the two where both fit: the model's reading, log entry 14). -/
def Sys2Proof.Claims.LateSealIsDiscarded : Prop :=
  ∀ (s : State) (who : Requester) (src region layer die : Nat), s.live = true → sealSource who = some src → die < 4 → region < 256 →
    s.sealCounts src region layer die = false →
    let r := s.region region
    let c := s.sealCount region die
    let other : Bool := sealable r.type && r.seals != 0 && c.bits != 0 && c.layer != layer
    ∃ t, exec (.regionSeal who region layer die) s = .next t ∧ t.rsv = s.rsv ∧
      Reports s t (0x1050 + die * 0x100) Code.sealLate none
        (region + (if other then c.layer else layer) % 2 ^ 12 * 2 ^ 8 + (if other then 4 else 1) * 2 ^ 20 + s.node % 2 ^ 16 * 2 ^ 24 +
          src % 64 * 2 ^ 40 + (if other then layer % 2 ^ 12 else 0) * 2 ^ 46)

/-- R109, R56: a release of a sealed region clears its seal and, on every die, its source bits and held layer, and no other region's; a
release of a region that is not sealed changes nothing. -/
def Sys2Proof.Claims.ReleaseUnsealsTheRegion : Prop :=
  ∀ (s : State) (region : Nat), s.live = true →
    ((s.sealedLayer region).isSome →
      ∃ t, exec (.regionRelease region) s = .next t ∧ t.sealedLayer region = none ∧
        (∀ d, d < 4 → t.sealCount region d = ⟨0, 0⟩) ∧ (∀ r, r ≠ region → t.sealedLayer r = s.sealedLayer r) ∧
        (∀ r d, d < 4 → r ≠ region → t.sealCount r d = s.sealCount r d) ∧ t.rsv.varve = s.rsv.varve) ∧
    (s.sealedLayer region = none → exec (.regionRelease region) s = .next s)

/-- R128: an explicit mark on a die takes that die's accumulator into the mark and sets it to zero, leaving the other dies' alone; the
fourth die completes the mark, which then waits as a record when records are enabled (R132). A mark of a region whose VARVE is clear does
nothing. -/
def Sys2Proof.Claims.VarveMarkTakesTheSnapshot : Prop :=
  ∀ (s : State) (who : Requester) (region layer die : Nat), s.live = true → die < 4 →
    let fits (m : VarveMark) : Bool := m.who == who && m.region == region && m.layer == layer && !m.dies.contains die
    ((s.region region).varve = false → exec (.varveMark who region layer die) s = .next s) ∧
    ((s.region region).varve = true →
      ∃ t, exec (.varveMark who region layer die) s = .next t ∧ t.varveAcc region die = ⟨0, 0, false⟩ ∧
        (∀ r d, d < 4 → (r, d) ≠ (region, die) → t.varveAcc r d = s.varveAcc r d) ∧
        (s.rsv.marks.find? fits = none →
          t.rsv.marks = s.rsv.marks ++ [⟨who, region, layer, [die], VarveAcc.add ⟨0, 0, false⟩ (s.varveAcc region die)⟩]) ∧
        (∀ m, s.rsv.marks.find? fits = some m → m.dies.length = 3 →
          t.rsv.marks = s.rsv.marks.erase m ∧
          (s.flag Reg.RSV_VARVE_CTRL Fld.RSV_VARVE_CTRL_RING_ENABLE = true → t.rsv.ready.length = s.rsv.ready.length + 1) ∧
          (s.flag Reg.RSV_VARVE_CTRL Fld.RSV_VARVE_CTRL_RING_ENABLE = false → t.rsv.ready = s.rsv.ready)))

/-- R129, R130: with nothing buffered and room in the varve ring, the oldest completed mark's record enters the ring under the next varve
sequence number, with LOST_BEFORE as records were lost, and the ring's TAIL advances. -/
def Sys2Proof.Claims.VarveRecordEntersTheRing : Prop :=
  ∀ (s : State) (c : Nat) (r : VarveRecord) (rest : List (Nat × VarveRecord)), s.live = true → s.rsv.ready = (c, r) :: rest →
    s.rsv.buffer = [] → s.ringRoom s.varveRing 5 = true →
    ∃ t, exec .varveRecordWrite s = .next t ∧ t.rsv = { s.rsv with ready := rest, seq := (s.rsv.seq + 1) % 2 ^ 32, lost := false } ∧
      (t.ring s.varveRing).tail = ((s.ring s.varveRing).tail + 1) % 2 ^ 32 ∧
      (t.ring s.varveRing).recent.head? =
        some ((s.ring s.varveRing).tail, VarveRecord.bytes { r with seq := s.rsv.seq, lostBefore := s.rsv.lost })

/-- R131: when the varve ring has no room, the record waits in the buffer of 256; when that is full too it is lost and counted, and the
next record will say so. -/
def Sys2Proof.Claims.VarveRecordWaitsOrIsLost : Prop :=
  ∀ (s : State) (c : Nat) (r : VarveRecord) (rest : List (Nat × VarveRecord)), s.live = true → s.rsv.ready = (c, r) :: rest →
    s.ringRoom s.varveRing 5 = false →
    ∃ t, exec .varveRecordWrite s = .next t ∧ t.rsv.ready = rest ∧ t.rsv.seq = (s.rsv.seq + 1) % 2 ^ 32 ∧
      (s.rsv.buffer.length < 256 →
        t.rsv.buffer = s.rsv.buffer ++ [{ r with seq := s.rsv.seq, lostBefore := s.rsv.lost }] ∧ t.rsv.lost = false ∧ t.regs = s.regs) ∧
      (256 ≤ s.rsv.buffer.length → t.rsv.buffer = s.rsv.buffer ∧ t.rsv.lost = true ∧
        t.fld Reg.RSV_VARVE_LOST Fld.RSV_VARVE_LOST_LOST = satAdd 32 (s.fld Reg.RSV_VARVE_LOST Fld.RSV_VARVE_LOST_LOST) 1)

/-- R31: a flit with a good CRC ends its link's run of failures. One with a bad CRC, short of the ninth, is counted in that run and in the
link's fault bucket, and its replay is asked for; the ninth marks the link lasting and ends the transfers it carried with UNCORRECTABLE bus
errors (R49). A link that R28 does not list carries nothing. (Short of the ninth, the bucket here stays below the level at which the link is
lasting by its count, R493.) -/
def Sys2Proof.Claims.BadFlitIsReplayedAndCounted : Prop :=
  ∀ (s : State) (l : DieLink) (carried : List (Requester × Nat)), s.live = true →
    let k := bucketKey 6 (linkUnit l) (linkLane l)
    let fails := tblGetD (linkKey l) 0 s.ecc.linkFails
    (l.wf = false → ∀ ok, exec (.flitReceive l ok carried) s = .next s) ∧
    (l.wf = true →
      (∃ t, exec (.flitReceive l true carried) s = .next t ∧ tblGetD (linkKey l) 0 t.ecc.linkFails = 0 ∧ t.out = s.out ∧
        t.regs = s.regs) ∧
      (fails < 8 → min ((s.bucket k).level + s.eccW 6) (2 ^ 24 - 1) < s.eccN 6 * s.eccW 6 →
        ∃ t, exec (.flitReceive l false carried) s = .next t ∧ tblGetD (linkKey l) 0 t.ecc.linkFails = fails + 1 ∧
          (t.bucket k).events = (s.bucket k).events + 1 ∧ t.out = s.out ++ [.replay (linkKey l)]) ∧
      (8 ≤ fails → ∃ t, exec (.flitReceive l false carried) s = .next t ∧ linkKey l ∈ t.ecc.linkLasting ∧
        (t.bucket k).lasting = true ∧ ∀ c ∈ carried, Output.bus c.1 c.2 Code.uncorrectable [] ∈ t.out))

/-- R55, R59, R375: the seal signal of a sealed region reaches the engines that wait on it, with the layer it is sealed for; a region that
is not sealed sends none. The signal of a gate region starts the routing step whose turn it is, where nothing holds the Headgate; held, it
is kept with the time at which it came. -/
def Sys2Proof.Claims.SealSignalReachesTheEngines : Prop :=
  ∀ (s : State) (region : Nat), s.live = true →
    let gate : Prop := region = s.gateRegion 0 ∨ region = s.gateRegion 1
    let came := tblGetD region (s.clock.cycles, s.now) s.col.seals
    let ready : Prop := region = s.gateRegion (s.hg.nextStep % 2) ∧ s.hg.faulted = false ∧
      ∀ q ∈ s.hg.steps, q.parity = s.hg.nextStep % 2 → q.stage ≠ .selecting ∧ q.stage ≠ .selected
    (s.sealedLayer region = none → exec (.sealSignal region) s = .next s) ∧
    (∀ layer, s.sealedLayer region = some layer →
      (¬ gate → ∃ t, exec (.sealSignal region) s = .next t ∧ t.out = s.out ++ [.sealSignal region layer] ∧ t.hg = s.hg ∧ t.col = s.col) ∧
      (gate → s.hgHeld = true → ∃ t, exec (.sealSignal region) s = .next t ∧ t.out = s.out ++ [.sealSignal region layer] ∧
        t.hg = s.hg ∧ tblFind region t.col.seals = some came) ∧
      (gate → s.hgHeld = false → ready →
        ∃ t, exec (.sealSignal region) s = .next t ∧ s.hg.nextStep < t.hg.nextStep ∧ tblFind region t.col.seals = none) ∧
      (gate → s.hgHeld = false → ¬ ready → s.col.seals = [] →
        ∃ t, exec (.sealSignal region) s = .next t ∧ t.out = s.out ++ [.sealSignal region layer] ∧ t.hg = s.hg ∧
          tblFind region t.col.seals = some came))

/-- R99, R33, R100: a read of up to one 256-byte line of the Reservoir whose words hold no mark answers OK with the bytes stored there,
changes no byte of memory, and holds its bank for four cycles from when the bank is free. -/
def Sys2Proof.Claims.ReservoirReadReturnsTheBytes : Prop :=
  ∀ (s : State) (q : RsvRequest) (d x : Nat) (reg : Option (Nat × Nat)), s.live = true → q.write = false →
    s.decode q.addr = .rsv d x reg → d < 4 → x < 2 ^ 28 → 0 < q.len → x % 256 = q.addr % 256 → q.addr % 256 + q.len ≤ 256 →
    (∀ k ∈ wordKeys (rsvBase + d * 2 ^ 32 + x) q.len, tblFind k s.marks = none) →
    ∃ t, exec (.reservoirAccess [q] []) s = .next t ∧ t.mem = s.mem ∧ Silent s t ∧
      t.out = s.out ++ [.bus q.who q.addr 0 (memBytes s.mem (rsvBase + d * 2 ^ 32 + x) q.len)] ∧
      tblGetD (d * 64 + bankOf x) 0 t.banks = max s.clock.cycles (tblGetD (d * 64 + bankOf x) 0 s.banks) + 4

/-- R99, R97, R100, R101: a write of one aligned 64-bit word of plain Reservoir storage that holds no mark stores the enabled bytes and no
other byte of memory, and answers OK; it holds its bank for four cycles, or for eight, counted as a read-modify-write, where it enables a
part of the word only. -/
def Sys2Proof.Claims.ReservoirWriteStoresTheEnabledBytes : Prop :=
  ∀ (s : State) (q : RsvRequest) (d x : Nat), s.live = true → q.write = true → q.poison = false → s.decode q.addr = .rsv d x none →
    d < 4 → x < 2 ^ 28 → x % 8 = 0 → q.addr % 8 = 0 → q.data.length = 8 → q.len ≤ 8 →
    tblFind (rsvBase + d * 2 ^ 32 + x) s.marks = none →
    let part : Bool := q.be % 256 != 0 && q.be % 256 != 255
    ∃ t, exec (.reservoirAccess [q] []) s = .next t ∧ Silent s t ∧ t.out = s.out ++ [.bus q.who q.addr 0 []] ∧
      (∀ i, i < 8 → memByte t.mem (rsvBase + d * 2 ^ 32 + x + i) =
        if q.be.testBit i then q.data.getD i 0 else memByte s.mem (rsvBase + d * 2 ^ 32 + x + i)) ∧
      (∀ a, (a < rsvBase + d * 2 ^ 32 + x ∨ rsvBase + d * 2 ^ 32 + x + 8 ≤ a) → memByte t.mem a = memByte s.mem a) ∧
      (q.be % 256 ≠ 0 → tblGetD (d * 64 + bankOf x) 0 t.banks =
        max s.clock.cycles (tblGetD (d * 64 + bankOf x) 0 s.banks) + if part then 8 else 4) ∧
      t.fld (Reg.RSV_BANK_STAT d) Fld.RSV_BANK_STAT_RMW_WRITES =
        (s.fld (Reg.RSV_BANK_STAT d) Fld.RSV_BANK_STAT_RMW_WRITES + b2n part) % 2 ^ Fld.RSV_BANK_STAT_RMW_WRITES.w

-- Sluice channels ----------------------------------------------------------------------------------------------------

/-- R112, R105: setting ENABLE of a channel whose storage lies wholly inside a SLUICE region starts it empty, with its counters at zero; a
write to an enabled channel that does more than clear ENABLE is refused with kind 4, and enabling a channel whose storage is not mapped
with kind 5, and both leave every register and channel as they were. -/
def Sys2Proof.Claims.ChannelWriteStartsEmptyOrIsRefused : Prop :=
  ∀ (s : State) (src : Source) (c : Nat) (v : Word), s.live = true → s.hears src = true → c < 4096 →
    let refused (kind : Nat) : Prop := ∃ t, exec (.slcChanWrite src c v) s = .next t ∧ t.regs = s.regs ∧ t.chans = s.chans ∧
      Reports s t (0x1051 + c % 4 * 0x100) Code.regionInvalid (some (setupBase + Reg.SLC_CHAN0 c)) (c + kind * 2 ^ 12)
    let mapped := s.storageMapped (bitsOf v.toNat 8 8) (bitsOf v.toNat 24 18 * 4096) (2 ^ min (max (bitsOf v.toNat 16 5) 4) 16)
    (s.chanOn c = false → v.getLsbD 0 = true → mapped = true →
      ∃ t, exec (.slcChanWrite src c v) s = .next t ∧ t.reg (Reg.SLC_CHAN0 c) = channelWord v ∧ RegsBut s t [Reg.SLC_CHAN0 c] ∧
        Silent s t ∧ (t.chan c).head = 0 ∧ (t.chan c).count = 0 ∧ (t.chan c).inPacket = false ∧ (t.chan c).dropping = false ∧
        (t.chan c).resets = (s.chan c).resets ∧ (t.chan c).emptyReads = 0 ∧ (t.chan c).fullRefs = 0 ∧
        ∀ d, d ≠ c → t.chan d = s.chan d) ∧
    (s.chanOn c = false → v.getLsbD 0 = true → mapped = false → refused 5) ∧
    (s.chanOn c = true → channelWord v + 1 ≠ s.reg (Reg.SLC_CHAN0 c) → refused 4) ∧
    (s.chanOn c = true → channelWord v + 1 = s.reg (Reg.SLC_CHAN0 c) →
      ∃ t, exec (.slcChanWrite src c v) s = .next t ∧ t.chanOn c = false ∧ t.chans = s.chans ∧ Silent s t)

/-- R122, R112: a RESET_CHANNEL write empties an enabled channel, sets RESET_PROD and RESET_CONS, counts the reset and raises no fault; on
a channel whose ENABLE is clear it changes nothing. -/
def Sys2Proof.Claims.ResetChannelEmptiesAnEnabledChannel : Prop :=
  ∀ (s : State) (src : Source) (c : Nat) (v : Word), s.live = true → s.hears src = true → c < 4096 → v.getLsbD 0 = true →
    ∃ t, exec (.resetChannel src c v) s = .next t ∧ t.regs = s.regs ∧ Silent s t ∧ (∀ d, d ≠ c → t.chan d = s.chan d) ∧
      (s.chanOn c = false → t.chans = s.chans) ∧
      (s.chanOn c = true → (t.chan c).head = 0 ∧ (t.chan c).tail = 0 ∧ (t.chan c).inPacket = false ∧ (t.chan c).dropping = false ∧
        (t.chan c).resetProd = true ∧ (t.chan c).resetCons = true ∧ (t.chan c).resets = satAdd 8 (s.chan c).resets 1 ∧
        (t.chan c).fails (s.chanDepth c) = none)

/-- R116, R118, R120, R353: a PUSH to a channel in order stores its item and end mark at TAIL, advances TAIL and is answered ACCEPTED; to a
full one it stores nothing and is counted in FULL_REFUSALS; while DROPPING is set it is taken and discarded, and an end mark ends that. A
PUSH with FENCE is answered only once FENCE_MARKERS_ACKED arrives with every earlier operation of its issuer closed, and is then stored in
the same way; until then that command changes nothing. -/
def Sys2Proof.Claims.PushStoresRefusesOrDiscards : Prop :=
  ∀ (s : State) (who : Requester) (c : Nat) (fin fence : Bool) (data : List Byte), s.live = true → s.channelReady c = true →
    s.sealedLayer (s.chanRegion c) = none → tblFind (s.markKey c (s.chan c).tail) s.marks = none → s.slcPortQueue who = [] →
    let x := s.chan c
    let fenced := x.fenced.filter fun e => e.who == who
    (x.waiting = none → x.held = [] → fenced = [] → fence = false → ∃ t, exec (.push who c fin fence data ⟨0, 0, 0, 0⟩ []) s = .next t ∧
      PushOutcome s t who c fin data) ∧
    (x.waiting = none → x.held = [] → fence = true → ∃ t, exec (.push who c fin fence data ⟨0, 0, 0, 0⟩ []) s = .next t ∧
      t.out = s.out ∧ t.mem = s.mem ∧ (t.chan c).tail = x.tail ∧ (t.chan c).fenced = x.fenced ++ [⟨who, .push, c, fin, true, data⟩]) ∧
    (s.opsOpen who = true → exec (.fenceMarkersAcked who c) s = .next s) ∧
    (x.waiting = none → x.held = [] → s.opsOpen who = false → fenced = [⟨who, .push, c, fin, true, data⟩] →
      ∃ t, exec (.fenceMarkersAcked who c) s = .next t ∧ PushOutcome s t who c fin data)

/-- R116, R119: a POP of an item takes it and its mark from HEAD, which advances, and IN_PACKET becomes the inverse of the mark; a PEEK of
one moves nothing; both are answered when the channel's storage read is done. On an empty channel they are answered at once with VALID
clear and counted in EMPTY_READS. COUNT answers how many items are held. None of them changes a byte of memory. -/
def Sys2Proof.Claims.PopPeekAndCountAnswer : Prop :=
  ∀ (s : State) (who : Requester) (c : Nat), s.live = true → s.channelReady c = true → (s.chan c).waiting = none → (s.chan c).held = [] →
    (s.chan c).fenced.any (fun e => e.who == who) = false → s.slcPortQueue who = [] →
    let x := s.chan c
    (x.count = 0 → ∀ i, i ∈ [Instr.pop who c ⟨0, 0, 0, 0⟩ [], Instr.peek who c ⟨0, 0, 0, 0⟩ []] →
      ∃ t, exec i s = .next t ∧ t.mem = s.mem ∧ t.chan c = { x with resetCons := false, emptyReads := satAdd 32 x.emptyReads 1 } ∧
        t.out = s.out ++ [.sluice who (sluiceTag false false false x.resetCons false false false c 0 0) noItem]) ∧
    (∃ t, exec (.count who c ⟨0, 0, 0, 0⟩ []) s = .next t ∧ t.mem = s.mem ∧ t.chan c = x ∧
      t.out = s.out ++ [.sluice who (sluiceTag false false false (x.resetProd || x.resetCons) false false false c x.count 0) noItem]) ∧
    (0 < x.count → tblFind (s.markKey c x.head) s.marks = none →
      (∀ k ∈ wordKeys (canonRsv (s.chanPlace c (s.slotOffset c x.head))) 64, tblFind k s.marks = none) →
      let item := memBytes s.mem (canonRsv (s.chanPlace c (s.slotOffset c x.head))) 64
      let mark := s.endMark c x.head
      (∃ t, exec (.pop who c ⟨0, 0, 0, 0⟩ []) s = .next t ∧ t.mem = s.mem ∧ t.out = s.out ∧
        t.chan c = { x.moveHead 1 with
          inPacket := !mark, resetCons := false,
          waiting := some ⟨who, sluiceTag true mark false x.resetCons false false false c (x.count - 1) 0, item⟩ }) ∧
      ∃ t, exec (.peek who c ⟨0, 0, 0, 0⟩ []) s = .next t ∧ t.mem = s.mem ∧ t.out = s.out ∧
        t.chan c = { x with
          resetCons := false,
          waiting := some ⟨who, sluiceTag true mark false x.resetCons false false false c x.count 0, item⟩ })

/-- R120: DROP_PACKET removes the items from HEAD up to and including the first that carries the end mark, and clears IN_PACKET; with no
end mark held it removes every item, and sets DROPPING when IN_PACKET was set. DROPPED counts the items removed. -/
def Sys2Proof.Claims.DropPacketRemovesOnePacket : Prop :=
  ∀ (s : State) (who : Requester) (c : Nat), s.live = true → s.channelReady c = true → (s.chan c).waiting = none → (s.chan c).held = [] →
    (s.chan c).fenced.any (fun e => e.who == who) = false →
    (∀ j, j < (s.chan c).count → tblFind (s.markKey c (((s.chan c).head + j) % 2 ^ 17)) s.marks = none) →
    let x := s.chan c
    let ended := (List.range x.count).find? fun j => s.endMark c ((x.head + j) % 2 ^ 17)
    let n := match ended with | some j => j + 1 | none => x.count
    ∃ t, exec (.dropPacket who c ⟨0, 0, 0, 0⟩ []) s = .next t ∧ t.mem = s.mem ∧ t.out = s.out ∧
      (t.chan c).head = (x.head + n) % 2 ^ 17 ∧ (t.chan c).tail = x.tail ∧
      (t.chan c).inPacket = (ended.isNone && x.inPacket) ∧ (t.chan c).dropping = (x.dropping || (ended.isNone && x.inPacket)) ∧
      (t.chan c).waiting = some ⟨who, sluiceTag false false false x.resetCons false false false c (x.count - n) n, noItem⟩

/-- R119: while a command waits for storage, later commands to its channel wait behind it. When the storage access completes, the waiting
answer leaves and the commands held are taken in their order of arrival, until one of them waits for storage in turn; only then come the
request words that wait at the ports of those answered (R255). With no access waiting, the command changes nothing. -/
def Sys2Proof.Claims.StorageDoneAnswersAndResumes : Prop :=
  ∀ (s : State) (c : Nat), s.live = true →
    ((s.chan c).waiting = none → exec (.sluiceStorageDone c) s = .next s) ∧
    ∀ a, (s.chan c).waiting = some a →
      let x := s.chan c
      let freed := (s.setChan c { x with waiting := none }).sluiceAnswer a (bitAt a.tag 0)
      (∀ q, q.channel = c → x.head < 2 ^ 17 → x.tail < 2 ^ 17 → (q.op ≠ .push → q.fence = false ∧ q.pktEnd = false ∧ q.data = []) →
        ∃ t, exec (sluiceInstr q) s = .next t ∧ t.out = s.out ∧ t.mem = s.mem ∧ (t.chan c).held = x.held ++ [q] ∧
          (t.chan c).head = x.head ∧ (t.chan c).tail = x.tail) ∧
      ∃ t, exec (.sluiceStorageDone c) s = .next t ∧
        (x.held = [] → s.slcPortQueue a.who = [] →
          (t.chan c).waiting = none ∧ t.out = s.out ++ [.sluice a.who a.tag a.data] ∧ t.mem = s.mem) ∧
        (∀ q rest, x.held = q :: rest → s.slcPortQueue a.who = [] → (∀ h ∈ x.held, s.slcPortQueue h.who = []) →
          let u := (freed.setChan c { freed.chan c with held := rest }).sluiceTake q
          ((u.chan c).waiting.isSome = true ∨ (u.chan c).held = [] → ∀ p, p ∈ scopePort → u.same t p)) ∧
        (let u := State.sluiceRelease c x.held.length freed
         let v := (a.who :: x.held.map fun q => q.who).eraseDups.foldl (fun s w => s.slcPortNext w (s.slcPortQueue w).length) u
         ∀ p, p ∈ scopePort → v.same t p)

/-- R116, R121, R122: a command that finds the channel's ENABLE clear changes nothing and is answered NOT_ENABLED; one that finds the pointer
copies or COUNT wrong is not applied, resets the channel, writes one CHANNEL_RESET record and is answered CHAN_RESET. -/
def Sys2Proof.Claims.DisabledOrFailedChannelAppliesNothing : Prop :=
  ∀ (s : State) (q : SluiceCmd), s.live = true → q.fence = false → (s.chan q.channel).waiting = none → (s.chan q.channel).held = [] →
    (s.chan q.channel).fenced.any (fun e => e.who == q.who) = false → (s.chan q.channel).head < 2 ^ 17 →
    (s.chan q.channel).tail < 2 ^ 17 → (s.chan q.channel).headInv < 2 ^ 17 → (s.chan q.channel).tailInv < 2 ^ 17 →
    s.slcPortQueue q.who = [] →
    let x := s.chan q.channel
    (s.chanOn q.channel = false → ∃ t, exec (sluiceInstr q) s = .next t ∧ t.chan q.channel = x ∧ t.mem = s.mem ∧ Silent s t ∧
      t.out = s.out ++ [.sluice q.who (sluiceTag false false false false false false true q.channel x.count 0) noItem]) ∧
    (s.chanOn q.channel = true → s.storageMapped (s.chanRegion q.channel) (s.chanStart q.channel) (s.chanDepth q.channel) = true →
      ∀ cause, x.fails (s.chanDepth q.channel) = some cause →
        ∃ t, exec (sluiceInstr q) s = .next t ∧ t.mem = s.mem ∧ (t.chan q.channel).count = 0 ∧ (t.chan q.channel).head = 0 ∧
          (t.chan q.channel).resets = satAdd 8 x.resets 1 ∧
          (t.chan q.channel).resetProd = (q.op != .push) ∧ (t.chan q.channel).resetCons = (q.op == .push || q.op == .count) ∧
          Reports s t (0x1051 + q.channel % 4 * 0x100) Code.channelReset none
            (q.channel + cause * 2 ^ 12 + x.head * 2 ^ 16 + x.tail * 2 ^ 33) ∧
          t.out = s.out ++ [.sluice q.who (sluiceTag false false false true false false false q.channel 0 0) noItem])

/-- R255, R214: a control core writes a Sluice command's request word to its port. With none outstanding the command is sent, the payload of a
PUSH taken from DATA; while one is outstanding it waits and changes no channel. A load from TAG before the answer has arrived waits, and the
core with it; the answer then returns its tag to that load. After the answer a load from TAG returns the tag at once; DATA holds the item of a
POP or PEEK. -/
def Sys2Proof.Claims.SluicePortCarriesCommands : Prop :=
  ∀ (s : State) (n k : Nat), s.live = true → s.clusterPresent n = true → n < 32 → k < 4 →
    let port := setupBase + 0x4000200 + n * 0x10000 + k * 0x100
    let c := s.core (4 * n + k)
    let tagLoad (r il : Nat) : Nat × (Nat × Sink) := (0x4000208 + n * 0x10000 + k * 0x100, (8, .reg r il))
    (∀ q : SluiceCmd, q.who = .core n k → q.channel < 4096 → (q.op ≠ .push → q.pktEnd = false ∧ q.fence = false ∧ q.data = []) →
      (q.op = .push → c.slcData.length = 64 ∧ q.data = c.slcData) →
      ∃ t, exec (.setupWrite (.core n k) (BitVec.ofNat 64 port) (BitVec.ofNat 64 (slcRequest q))) s = .next t ∧
        (c.slcBusy = false → ∀ p, p ∈ scopePort → (s.sluiceSubmit q).same t p) ∧
        (c.slcBusy = true → t.core (4 * n + k) = { c with slcWait := c.slcWait ++ [q] } ∧ t.chans = s.chans ∧ t.mem = s.mem ∧ t.out = s.out)) ∧
    (∀ r il, 0 < r → r < 32 → s.mayIssue (.core n k) = true →
      ∃ t, exec (.loadIssue (.core n k) false (BitVec.ofNat 64 (port + 8)) 8 (.reg r il)) s = .next t ∧ t.mem = s.mem ∧
        t.chans = s.chans ∧
        (c.slcTag = none → t.core (4 * n + k) = { c with loads := [tagLoad r il] } ∧ t.coreSteps (4 * n + k) = false) ∧
        (∀ tag, c.slcTag = some tag → tag < 2 ^ 64 → t.core (4 * n + k) = (c.writeX r tag).advance il)) ∧
    (∀ ch tag item, (s.chan ch).waiting = some ⟨.core n k, tag, item⟩ → (s.chan ch).held = [] → c.slcWait = [] → bitAt tag 0 = true →
      ∃ t, exec (.sluiceStorageDone ch) s = .next t ∧
        let d : CoreState := { c with slcBusy := false, slcTag := some tag, slcData := item }
        (c.loads = [] → t.core (4 * n + k) = d) ∧
        (∀ r il, c.loads = [tagLoad r il] → tag < 2 ^ 64 → t.core (4 * n + k) = (({ d with loads := [] } : CoreState).writeX r tag).advance il))-- Fabric time and turns ----------------------------------------------------------------------------------------------

/-- R72, R75: `n` ticks add the rate word `n` times to the 96-bit accumulator, and elapsed time counts the increments of its integer part;
the rate word and the state of the timebase stay. Array cycles pass at the frequency of the clock step in force (R541). -/
def Sys2Proof.Claims.TickAdvancesTime : Prop :=
  ∀ (s : State) (n : Nat), s.live = true →
    ∃ t, exec (.ftTick n) s = .next t ∧ t.tb = { s.tb with acc := s.tb.acc + BitVec.ofNat 96 (n * s.tb.rate.toNat) } ∧
      t.clock.elapsedNs = s.clock.elapsedNs + (s.tb.acc.toNat % 2 ^ 32 + n * s.tb.rate.toNat) / 2 ^ 32 ∧
      t.clock.ticks = s.clock.ticks + n ∧
      (s.pwr.clockAt = none → t.clock.cycles = s.clock.cycles + (s.clock.frac + n * stepMhz s.clockStep) / 1250 ∧ t.pwr = s.pwr)

/-- R22, R18: when a cycle has ended, the records of the faults detected in it are written in order of unit and code, each with the next
SEQ; here they wait in the buffer of 64, since the event ring has no room (R415), and none is lost. -/
def Sys2Proof.Claims.RecordsOfACycleAreWrittenInOrder : Prop :=
  ∀ (s : State) (n : Nat), s.live = true → s.pwr.clockAt = none → 1250 ≤ s.clock.frac + n * stepMhz s.clockStep →
    s.ringRoom s.eventRing 4 = false → s.flt.buffer.length + s.flt.fresh.length ≤ 64 →
    ∃ t, exec (.ftTick n) s = .next t ∧ t.flt.fresh = [] ∧ t.flt.seq = s.flt.seq + BitVec.ofNat 24 s.flt.fresh.length ∧
      t.flt.buffer = s.flt.buffer ++ (sortBy faultOrder s.flt.fresh).zipIdx.map fun e =>
        { e.1 with seq := s.flt.seq + BitVec.ofNat 24 e.2, lostBefore := s.flt.lost && e.2 == 0 }

/-- R80, R72, R79, R83: a PTP sample under SRC 0, and a PPS edge under SRC 1, move the timebase as its state says; it sets fabric time once, at
acquisition, and otherwise the servo holds the rate word within SLEW_MAX of nominal. A sample from before the epoch is counted and takes no
part. After acquisition an edge is expected whole seconds after the one before it, and an edge in LOCKED further than PPS_WINDOW from the
expected time is counted and ignored (R78); so is one under PTP with PPS_CHECK. Before any edge or announcement, and under free-run, an edge
changes nothing. (The time of the previous edge is the source's, the model's choice of log entry 41.) -/
def Sys2Proof.Claims.SamplesMoveTheTimebase : Prop :=
  ∀ s : State, s.live = true →
    let rejected (t : State) : Prop := t.tb = s.tb ∧ RegsBut s t [Reg.FT_COUNT] ∧ Silent s t ∧
      t.fld Reg.FT_COUNT Fld.FT_COUNT_PPS_REJECTED = satAdd 16 (s.fld Reg.FT_COUNT Fld.FT_COUNT_PPS_REJECTED) 1
    let window := s.fld Reg.FT_PPS_CFG Fld.FT_PPS_CFG_PPS_WINDOW
    (∀ tai, s.ftSrc = 0 →
      (s.reg Reg.FT_EPOCH_TAI ≤ tai → ∃ t, exec (.ptpSample tai) s = .next t ∧ SampleOutcome s t (tai - s.reg Reg.FT_EPOCH_TAI) 0) ∧
      (tai < s.reg Reg.FT_EPOCH_TAI → ∃ t, exec (.ptpSample tai) s = .next t ∧ t.tb = s.tb ∧ RegsBut s t [Reg.FT_COUNT] ∧
        t.fld Reg.FT_COUNT Fld.FT_COUNT_SAMPLES_REJECTED = satAdd 16 (s.fld Reg.FT_COUNT Fld.FT_COUNT_SAMPLES_REJECTED) 1)) ∧
    (∀ tai, s.ftSrc ≠ 0 → exec (.ptpSample tai) s = .next s) ∧
    (∀ e, s.ftSrc = 1 → s.edgeTime = some e →
      (s.tb.mode ≠ .locked ∨ absDiff s.now e ≤ window → ∃ t, exec .ppsEdge s = .next t ∧ t.tb.lastEdge = some e ∧ t.tb.announced = none ∧
        SampleOutcome s t e s.missedEdges) ∧
      (s.tb.mode = .locked → window < absDiff s.now e → ∃ t, exec .ppsEdge s = .next t ∧ rejected t)) ∧
    (∀ l, s.timeValid = true → s.tb.lastEdge = some l → ∃ k, 0 < k ∧ s.edgeTime = some (l + k * 1000000000) ∧
      ∀ j, 0 < j → absDiff s.now (l + k * 1000000000) ≤ absDiff s.now (l + j * 1000000000)) ∧
    (s.ftSrc = 1 → s.edgeTime = none → exec .ppsEdge s = .next s) ∧
    (s.ftSrc = 0 →
      let away := absDiff (s.now % 1000000000) (s.fld Reg.FT_PPS_CFG Fld.FT_PPS_CFG_PPS_PHASE % 1000000000)
      let check := s.timeValid = true ∧ s.flag Reg.FT_CTRL Fld.FT_CTRL_PPS_CHECK = true ∧ window < min away (1000000000 - away)
      (check → ∃ t, exec .ppsEdge s = .next t ∧ rejected t) ∧ (¬ check → exec .ppsEdge s = .next s)) ∧
    (2 ≤ s.ftSrc → exec .ppsEdge s = .next s)

/-- R80, R82, R83: in LOCKED under PTP or PPS, 1.5 s without an accepted sample means HOLDOVER; in HOLDOVER, an error bound LOCK_NS +
HOLD_DRIFT × elapsed above HOLD_LIMIT means LOST. Each is recorded with TIME_UNLOCKED and raised as an event, and moves neither fabric time
nor the rate word. Before that, neither changes anything. -/
def Sys2Proof.Claims.SilenceMeansHoldoverThenLost : Prop :=
  ∀ s : State, s.live = true →
    let entered (t : State) (code : Nat) : Prop :=
      t.tb.acc = s.tb.acc ∧ t.tb.rate = s.tb.rate ∧
      Reports s t 0x4013 Code.timeUnlocked none (code + unsignedOf 32 s.tb.offset * 2 ^ 8) ∧
      t.out = s.out ++ [.event Code.timeUnlocked (code + unsignedOf 32 s.tb.offset * 2 ^ 8)]
    let silent := s.tb.mode = .locked ∧ s.ftSrc < 2 ∧ s.tb.lastSample + 1500000000 ≤ s.clock.elapsedNs
    let bound := s.fld Reg.FT_CTRL Fld.FT_CTRL_LOCK_NS * 1000000000 +
      s.fld Reg.FT_CTRL Fld.FT_CTRL_HOLD_DRIFT * (s.clock.elapsedNs - s.tb.holdStart)
    let lost := s.tb.mode = .holdover ∧ s.fld Reg.FT_CTRL Fld.FT_CTRL_HOLD_LIMIT * 1000000000 < bound
    (silent → ∃ t, exec .sampleTimeout s = .next t ∧ t.tb.mode = .holdover ∧ t.tb.holdStart = s.clock.elapsedNs ∧ entered t 3 ∧
      t.fld Reg.FT_COUNT Fld.FT_COUNT_HOLDOVER_ENTRIES = satAdd 16 (s.fld Reg.FT_COUNT Fld.FT_COUNT_HOLDOVER_ENTRIES) 1) ∧
    (¬ silent → exec .sampleTimeout s = .next s) ∧
    (lost → ∃ t, exec .holdoverLimit s = .next t ∧ t.tb.mode = .lost ∧ t.tb.holdStart = s.tb.holdStart ∧ entered t 4 ∧
      t.fld Reg.FT_COUNT Fld.FT_COUNT_LOST_ENTRIES = satAdd 16 (s.fld Reg.FT_COUNT Fld.FT_COUNT_LOST_ENTRIES) 1) ∧
    (¬ lost → exec .holdoverLimit s = .next s)

/-- R79: a write of FT_CTRL never moves fabric time or the rate word. One that leaves SRC as it was leaves the timebase alone; while fabric
time is valid, a change to PTP or PPS from LOCKED enters HOLDOVER, from HOLDOVER or LOST keeps the state, and a change to free-run enters or
keeps LOCKED. -/
def Sys2Proof.Claims.SourceChangeNeverStepsTime : Prop :=
  ∀ (s : State) (src : Source) (v : Word), s.live = true → s.hears src = true →
    ∃ t, exec (.ftSrcWrite src v) s = .next t ∧ t.tb.acc = s.tb.acc ∧ t.tb.rate = s.tb.rate ∧
      t.ftSrc = (if s.lock then s.ftSrc else v.toNat % 4) ∧ RegsBut s t [Reg.FT_CTRL, Reg.FT_COUNT] ∧
      (t.ftSrc = s.ftSrc → t.tb = s.tb) ∧
      (t.ftSrc ≠ s.ftSrc →
        (s.timeValid = false → t.tb.mode = .unset) ∧
        (s.tb.mode = .locked → t.tb.mode = if t.ftSrc < 2 then .holdover else .locked) ∧
        (s.tb.mode = .holdover ∨ s.tb.mode = .lost →
          t.tb.mode = (if t.ftSrc < 2 then s.tb.mode else .locked) ∧ (t.ftSrc < 2 → t.tb.holdStart = s.tb.holdStart ∧ t.out = s.out)))

/-- R88: the Watermaster's and the management channel's writes of the turn registers. While fabric time is valid, FT_TURN_ORIGIN is taken
only when it keeps the current turn number, LEN keeps its value while NEXT_LEN takes the written one (held to its limits), and FT_EPOCH_TAI is
refused under a partition tag; what is refused raises SETUP_LOCKED and changes nothing. A write from Travo Link is refused whole. -/
def Sys2Proof.Claims.TurnWritesKeepTheTurn : Prop :=
  ∀ (s : State) (src : Source) (v : Word), s.live = true → s.hears src = true →
    let taken (i : Instr) (a : Nat) : Prop := ∃ t, exec i s = .next t ∧ t.reg a = v.toNat ∧ RegsBut s t [a] ∧ Silent s t
    let refused (i : Instr) (a : Nat) : Prop :=
      ∃ t, exec i s = .next t ∧ t.regs = s.regs ∧ t.tb = s.tb ∧ Reports s t 0x4014 Code.setupLocked (some (setupBase + a)) 0
    (src = .travo → refused (.ftTurnOriginWrite src v) Reg.FT_TURN_ORIGIN ∧ refused (.ftTurnLenWrite src v) Reg.FT_TURN_LEN ∧
      refused (.ftEpochTaiWrite src v) Reg.FT_EPOCH_TAI) ∧
    (src ≠ .travo →
      (let keeps := s.timeValid = false ∨ turnAt (signedOf 64 v.toNat) s.turnLen s.now = s.turnNow
       (keeps → taken (.ftTurnOriginWrite src v) Reg.FT_TURN_ORIGIN) ∧ (¬ keeps → refused (.ftTurnOriginWrite src v) Reg.FT_TURN_ORIGIN)) ∧
      (let free := s.timeValid = false ∨ s.fld Reg.FWD_IDENT Fld.FWD_IDENT_PTAG = 0
       (free → taken (.ftEpochTaiWrite src v) Reg.FT_EPOCH_TAI) ∧ (¬ free → refused (.ftEpochTaiWrite src v) Reg.FT_EPOCH_TAI)) ∧
      ∃ t, exec (.ftTurnLenWrite src v) s = .next t ∧ RegsBut s t [Reg.FT_TURN_LEN] ∧
        t.fld Reg.FT_TURN_LEN Fld.FT_TURN_LEN_NEXT_LEN =
          (if bitsOf v.toNat 20 20 = 0 then 0 else min (max (bitsOf v.toNat 20 20) 1000) 1000000) ∧
        t.turnLen = (if s.timeValid then s.turnLen else min (max (bitsOf v.toNat 0 20) 1000) 1000000) ∧
        if s.timeValid = true ∧ bitsOf v.toNat 0 20 ≠ s.turnLen then
          Reports s t 0x4014 Code.setupLocked (some (setupBase + Reg.FT_TURN_LEN)) 0
        else Silent s t)

/-- R90, R86, R87: a boundary that has not come changes nothing. One that has come is recognised: an armed change of turn length that met
its margin (R89) takes the origin and LEN so that turn n begins here under both lengths, and is no longer pending; otherwise both stay. -/
def Sys2Proof.Claims.TurnBoundaryChangesTheLengthWhenArmed : Prop :=
  ∀ (s : State) (slotBad : Bool), s.live = true →
    let n := s.nextBoundary
    let next := s.fld Reg.FT_TURN_LEN Fld.FT_TURN_LEN_NEXT_LEN
    let armed := next ≠ 0 ∧ s.armedFor s.tb.lenArmed (s.reg Reg.FT_TURN_CHANGE) n = true
    (s.timeValid = false ∨ (s.now : Int) < s.boundary n → exec (.turnBoundary [] slotBad) s = .next s) ∧
    (s.timeValid = true → s.boundary n ≤ (s.now : Int) →
      ∃ t, exec (.turnBoundary [] slotBad) s = .next t ∧ t.tb = { s.tb with lastTurn := some n } ∧ t.lock = s.lock ∧
        t.present = s.present ∧
        (armed → t.turnLen = next ∧ t.fld Reg.FT_TURN_LEN Fld.FT_TURN_LEN_NEXT_LEN = 0 ∧
          t.reg Reg.FT_TURN_ORIGIN = unsignedOf 64 (s.boundary n - ((n * (next * 1000) : Nat) : Int))) ∧
        (¬ armed → t.reg Reg.FT_TURN_LEN = s.reg Reg.FT_TURN_LEN ∧ t.reg Reg.FT_TURN_ORIGIN = s.reg Reg.FT_TURN_ORIGIN))

/-- R92, R492, R331: when the oldest counter window has ended it closes: every bucket drains by N of its class, and the limits and the fabric's
counts of the window start again; with the drift record on, port die 0 sends it besides. A window that has not ended stays open. (Where the
window number has fallen, as a write of WIN_LOG2 can make it, the current window is the oldest open one: the model's choice, log entry 41.) -/
def Sys2Proof.Claims.WindowCloseDrainsTheBuckets : Prop :=
  ∀ s : State, s.live = true →
    (s.window = s.tb.lastWindow → exec .counterWindowClose s = .next s) ∧
    (s.window < s.tb.lastWindow → exec .counterWindowClose s = .next { s with tb := { s.tb with lastWindow := s.window } }) ∧
    (s.tb.lastWindow < s.window →
      ∃ t, exec .counterWindowClose s = .next t ∧ t.tb = { s.tb with lastWindow := s.tb.lastWindow + 1 } ∧
        (s.flag Reg.FWD_DRIFT Fld.FWD_DRIFT_ENABLE = false ∨ s.timeValid = false →
          t.flt.limits = [] ∧ t.ecc.logCounts = [] ∧ t.regs = s.regs ∧ t.fab.slots = 0 ∧ t.fab.drift = [] ∧
          ∀ k, t.bucket k = { s.bucket k with level := (s.bucket k).level - s.eccN (k / 4 / 65536) }))

-- The Headgate -------------------------------------------------------------------------------------------------------

/-- R138: a write to one of words 1 to 7 of a layer descriptor is stored and clears VALID; a write to word 0 is stored, and with VALID set
the whole shadow descriptor is checked: VALID stays when the check passes, else it is clear and one LAYER_INVALID record names the lowest
kind. -/
def Sys2Proof.Claims.LayerDescriptorIsCheckedOnWrite : Prop :=
  ∀ (s : State) (src : Source) (n w : Nat) (v : Word), s.live = true → s.hears src = true → n < 4096 → w < 8 →
    ∃ t, exec (.layerDescriptorWrite src n w v) s = .next t ∧ RegsBut s t [layerAddr n 0, layerAddr n w] ∧
      (∀ d f, regDescAt (layerAddr n w) = some d → f ∈ d.fields → ¬ (w = 0 ∧ f.lo = 0) →
        bitsOf (t.reg (layerAddr n w)) f.lo f.w = bitsOf v.toNat f.lo f.w) ∧
      let valid := t.flag (layerAddr n 0) Fld.HG_LAYER0_VALID
      let check := (Layer.ofWords (t.layerWords n)).fails
      if w = 0 ∧ v.getLsbD 0 = true then
        (check = none → valid = true ∧ Silent s t) ∧
        (∀ kind, check = some kind → valid = false ∧ Reports s t s.tableUnit Code.layerInvalid none (n + kind * 2 ^ 12))
      else valid = false ∧ Silent s t

/-- R189: a write of a zone entry is stored, unless it would leave two valid entries that name one node; that one changes nothing and
writes ZONE_INVALID with the refused zone, the zone that names the node, and the node. -/
def Sys2Proof.Claims.ZoneWriteKeepsNodesDistinct : Prop :=
  ∀ (s : State) (src : Source) (z w : Nat) (v : Word), s.live = true → s.hears src = true → z < 1024 → w < 3 →
    let other := s.zones.find? fun y => w == 0 && v.getLsbD 48 && y.z != z && y.node == bitsOf v.toNat 0 16
    (other = none → ∃ t, exec (.hgZoneWrite src z w v) s = .next t ∧ RegsBut s t [Reg.HG_ZONE0 z + 8 * w] ∧ Silent s t ∧
      ∀ d f, regDescAt (Reg.HG_ZONE0 z + 8 * w) = some d → f ∈ d.fields →
        bitsOf (t.reg (Reg.HG_ZONE0 z + 8 * w)) f.lo f.w = bitsOf v.toNat f.lo f.w) ∧
    (∀ y, other = some y → ∃ t, exec (.hgZoneWrite src z w v) s = .next t ∧ t.regs = s.regs ∧
      Reports s t s.tableUnit Code.zoneInvalid none (z + y.z * 2 ^ 10 + bitsOf v.toNat 0 16 * 2 ^ 20))

/-- R160, R161, R142: a ROUTE_DECISION decides the next token of the oldest step in selection: the claims of its candidate walk are
numbered and get their records, and no expert is claimed beyond its capacity; a token whose hidden row read bad makes none; a claim into a
rack without a gateway fails the step (R196); with the last token selection ends. Where no step selects, none of its tokens is left, or its
rank rounds go on, nothing changes. -/
def Sys2Proof.Claims.RouteDecisionDecidesOneToken : Prop :=
  ∀ s : State, s.live = true →
    (s.selecting = none → exec .routeDecision s = .next s) ∧
    ∀ p, s.selecting = some p →
      let waits := (∃ q, p.prio = some q ∧ q.done = false) ∨ p.tokens.length ≤ p.decided
      let bad := (p.token p.decided).bad
      let walk := p.decide p.decided (p.candidates p.decided).1
      let routed := s.routeAll (p.candidates p.decided).1 walk.1 walk.2
      (waits → exec .routeDecision s = .next s) ∧
      (¬ waits → ∃ t, exec .routeDecision s = .next t ∧
        (bad = true → ∃ q ∈ t.hg.steps, q.number = p.number ∧ q.decided = p.decided + 1 ∧ q.records = p.records ∧ q.used = p.used) ∧
        (bad = false → ∀ r, routed = .ok r →
          ∃ q ∈ t.hg.steps, q.number = p.number ∧ q.decided = p.decided + 1 ∧ q.records = r.records ∧ q.used = r.used ∧
            q.dropped = r.dropped ∧ (q.stage = if p.decided + 1 = p.tokens.length then .selected else .selecting) ∧
            ∀ x, tblGetD x 0 p.used ≤ p.cap x → tblGetD x 0 q.used ≤ p.cap x) ∧
        (bad = false → ∀ rk, routed = .error rk → t.hg.faulted = true ∧ ∃ q ∈ t.hg.steps, q.number = p.number ∧ q.stage = .failed))

/-- R161: a round of score-priority ranking takes the pending claims best first, each while its expert has capacity. Under NEXT, up to
NEXT_MAX further rounds, each claim refused goes on to its token's next extra candidate or is refused for good; when the rounds are over,
every claim refused for good is served by the spillway or dropped, and only the overflow SPILLWAY serves one there. Without a step in its
rounds nothing changes. -/
def Sys2Proof.Claims.RankRoundFillsCapacityBestFirst : Prop :=
  ∀ s : State, s.live = true →
    (s.selecting = none → exec .rankRound s = .next s) ∧
    (∀ p, s.selecting = some p → p.prio = none → exec .rankRound s = .next s) ∧
    ∀ p q, s.selecting = some p → p.prio = some q →
      (q.done = true → exec .rankRound s = .next s) ∧
      (q.done = false →
        let got := acceptBest p.cap (sortBy p.claimAbove q.pending) p.used
        ∃ t r q', exec .rankRound s = .next t ∧ r ∈ t.hg.steps ∧ r.number = p.number ∧ r.prio = some q' ∧ r.used = got.2.2 ∧
          (∀ c, c ∈ q.accepted ∨ c ∈ got.1 → c ∈ q'.accepted) ∧
          (∀ x, tblGetD x 0 p.used ≤ p.cap x → tblGetD x 0 r.used ≤ p.cap x) ∧
          (q'.done = false → p.lay.overflow = 1 ∧ q.round < p.lay.nextMax ∧ q'.round = q.round + 1 ∧ q'.pending ≠ [] ∧
            r.dropped = p.dropped ∧ q'.accepted = q.accepted ++ got.1 ∧
            q'.pending.length + q'.refused.length = got.2.1.length + q.refused.length ∧
            ∀ c ∈ q'.pending, c.kind = 1 ∧ ∃ b ∈ got.2.1, b.pos = c.pos) ∧
          (q'.done = true → r.spilled + r.dropped = p.spilled + p.dropped + q.refused.length + got.2.1.length ∧
            (p.lay.overflow ≠ 2 → r.spilled = p.spilled ∧ q'.accepted = q.accepted ++ got.1)))

/-- R62, R186, R194: the oldest step whose selection has ended is sorted: each zone's list is the records for its node, in token and rank
order, and the gate region is released; a list that does not fit its zone, or a record for a node without a zone, fails the step. While the
Headgate is held, or no selection has ended, nothing changes. -/
def Sys2Proof.Claims.SortAndDispatchBuildsTheLists : Prop :=
  ∀ s : State, s.live = true →
    (s.hgHeld = true ∨ s.hg.steps.find? (fun p => p.stage = .selected) = none → exec .sortAndDispatch s = .next s) ∧
    (∀ p, s.hgHeld = false → s.hg.steps.find? (fun p => p.stage = .selected) = some p →
      ∃ t, exec .sortAndDispatch s = .next t ∧
        (s.dispatchFails p ≠ [] → t.hg.faulted = true ∧ ∃ q ∈ t.hg.steps, q.number = p.number ∧ q.stage = .failed) ∧
        (s.dispatchFails p = [] → t.sealedLayer (s.gateRegion p.parity) = none ∧
          ∃ q ∈ t.hg.steps, q.number = p.number ∧ q.stage = .dispatched ∧ q.lists = s.zones.map (fun z => (z.z, p.listFor z.node))))

/-- R197, R65: once every relay zone of a dispatched step is complete, GATEWAY_RELAY leaves it no list unsent, or fails it, where a list
does not fit; before that, while the queues are stopped, or where no list waits, it changes nothing. -/
def Sys2Proof.Claims.GatewayRelaySendsWhatWaits : Prop :=
  ∀ s : State, s.live = true →
    let waits (p : HgStep) : Bool := p.stage = .dispatched && !p.unsent.isEmpty
    (s.sw.stopped = true ∨ s.hg.steps.find? waits = none → exec .gatewayRelay s = .next s) ∧
    ∀ p, s.sw.stopped = false → s.hg.steps.find? waits = some p →
      let ready := s.relayZones.all fun z =>
        (s.landing (landKey z.z false p.parity)).complete && (s.landing (landKey z.z false p.parity)).step == p.number
      (ready = false → exec .gatewayRelay s = .next s) ∧
      (ready = true → ∃ t, exec .gatewayRelay s = .next t ∧ ∃ q ∈ t.hg.steps, q.number = p.number ∧ (q.unsent = [] ∨ q.stage = .failed))

/-- R66, R199: with the dispatch zones of one parity all complete, SHAPE_RECORDS takes the step up; while a slot of it has tokens and no done
item yet, it stays with the owner, with that slot's work. With no owner at work, no step is taken up while the Headgate is held or a zone of
each parity is not complete. -/
def Sys2Proof.Claims.ShapeRecordsTakesTheStepUp : Prop :=
  ∀ s : State, s.live = true → s.hg.owners = [] →
    (s.hg.swapDue = [] → s.hgHeld = true ∨ s.zones = [] ∨ (s.allComplete false 0 = false ∧ s.allComplete false 1 = false) →
      exec .shapeRecords s = .next s) ∧
    ∀ par, s.hgHeld = false → par < 2 → s.zones ≠ [] → s.allComplete false par = true → s.allComplete false (1 - par) = false →
      ((s.takeOwner par).hg.owners.any fun o => o.slots.any fun w => !w.rows.isEmpty && !w.done) = true →
      ∃ t o, exec .shapeRecords s = .next t ∧ o ∈ t.hg.owners ∧ o.parity = par ∧ (∃ w ∈ o.slots, w.rows ≠ [] ∧ w.done = false) ∧
        o.layer = (s.landing (landKey ((s.zonesByNode.head?.map Zone.z).getD 0) false par)).layer ∧
        o.number = (s.landing (landKey ((s.zonesByNode.head?.map Zone.z).getD 0) false par)).step

/-- R201, R202: a done item that names a slot at work, with its row count, ends that slot's work; any other is discarded with a SLOT_UNKNOWN
record of kind 2, and no slot's work changes. An empty done channel changes no work, and while the queues are stopped none is taken. -/
def Sys2Proof.Claims.DoneItemEndsItsSlot : Prop :=
  ∀ s : State, s.live = true →
    (s.sw.stopped = true → exec .doneItem s = .next s) ∧
    ∀ (s' : State) (item : Option (List Byte × Bool × Bool)), s.sw.stopped = false →
      s.popNow (.engine s.firstEngine 2) (s.fld Reg.HG_XCH_WORK Fld.HG_XCH_WORK_DONE_CHANNEL) = (item, s') →
      ∃ t, exec .doneItem s = .next t ∧
        (item = none → t.hg = s'.hg ∧ Silent s' t) ∧
        (∀ bs fin bad, item = some (bs, fin, bad) →
          let slot := leNat (sliceOf bs 0 2) % 4096
          let number := leNat (sliceOf bs 8 8)
          let owner := s'.hg.owners.find? fun o => o.number == number
          let work := owner.bind fun o => o.slots.find? fun w => w.slot == slot && w.pushed && !w.done && !w.rows.isEmpty
          let counted := ∃ w, work = some w ∧ bad = false ∧ leNat (sliceOf bs 4 4) = w.rows.length
          (counted → ∀ o ∈ t.hg.owners, o.number = number → ∀ w ∈ o.slots, w.slot = slot → w.done = true) ∧
          (¬ counted → t.hg.owners = s'.hg.owners ∧ ∃ r ∈ t.flt.fresh, r.code = BitVec.ofNat 8 Code.slotUnknown ∧
            bitsOf r.detail.toNat 28 4 = 2))

/-- R69, R204, R70: the oldest dispatched step whose return zones are all complete is combined and over, its return zones released. The
oldest step that at its deadline is not so complete is over too, with a DEADLINE_MISSED record, and the Headgate starts no step until the LAND
regions have been reset. Without such a step, or while the Headgate is held, nothing changes. -/
def Sys2Proof.Claims.CombineOrDeadlineEndsTheStep : Prop :=
  ∀ s : State, s.live = true →
    let ended (p : HgStep) (t : State) : Prop :=
      (∀ q ∈ t.hg.steps, q.number ≠ p.number) ∧ ∀ z, t.landing (landKey z true p.parity) = ⟨0, none, false, false⟩
    let complete (p : HgStep) : Bool := p.stage = .dispatched && s.allComplete true p.parity
    let missed (p : HgStep) : Bool := p.stage != .failed && decide (p.deadline ≤ s.now) && !complete p
    (s.hgHeld = true ∨ s.hg.steps.find? complete = none → exec .combine s = .next s) ∧
    (∀ p, p.parity < 2 → s.hgHeld = false → s.hg.steps.find? complete = some p → ∃ t, exec .combine s = .next t ∧ ended p t) ∧
    (s.sw.stopped = true ∨ s.timeValid = false ∨ s.hg.steps.find? missed = none → exec .exchangeDeadline s = .next s) ∧
    (∀ p, p.parity < 2 → s.sw.stopped = false → s.timeValid = true → s.hg.steps.find? missed = some p →
      ∃ t r, exec .exchangeDeadline s = .next t ∧ ended p t ∧ t.hg.faulted = true ∧ p.parity ∈ t.hg.missed ∧ t.hg.landReset = [] ∧
        r ∈ t.flt.fresh ∧ r.code = BitVec.ofNat 8 Code.deadlineMissed)

/-- R178: a write of HG_PLACE_CTRL with GO set starts a load with HG_PLACE_SRC, FIRST and COUNT as they stand when none is in progress,
and waits its turn otherwise; without GO it only stores FIRST and COUNT. -/
def Sys2Proof.Claims.PlaceLoadStartsOrWaits : Prop :=
  ∀ (s : State) (src : Source) (v : Word), s.live = true → s.hears src = true →
    let l : PlaceLoad := ⟨s.reg Reg.HG_PLACE_SRC, bitsOf v.toNat 0 18, bitsOf v.toNat 18 18 + 1, 0, 0⟩
    ∃ t, exec (.placeLoad src v) s = .next t ∧ t.reg Reg.HG_PLACE_CTRL = v.toNat % 2 ^ 36 ∧ RegsBut s t [Reg.HG_PLACE_CTRL] ∧
      Silent s t ∧
      (v.getLsbD 36 = false → t.hg = s.hg) ∧
      (v.getLsbD 36 = true → s.placeBusy = true → t.hg = { s.hg with waitLoads := s.hg.waitLoads ++ [l] }) ∧
      (v.getLsbD 36 = true → s.placeBusy = false → s.hg.waitLoads = [] →
        t.hg = { s.hg with load := some { l with since := s.clock.cycles } })

/-- R178, R179: a load that ends has copied its entries into the shadow table, up to the first that reads bad, and the oldest waiting load
starts; while a flip's copy runs no load ends, and when that copy ends the suspended load goes on. With no load, none ends. -/
def Sys2Proof.Claims.PlaceLoadEndsAndTheNextStarts : Prop :=
  ∀ s : State, s.live = true →
    (s.hg.load = none → exec .placeLoadDone s = .next s) ∧
    (s.hg.copying = false → exec .placeCopyDone s = .next s) ∧
    (s.hg.load = none → s.hg.copying = true → ∃ t, exec .placeCopyDone s = .next t ∧ t.hg.copying = false ∧
      (s.hg.waitLoads = [] → t.hg.load = none) ∧
      ∀ m rest, s.hg.waitLoads = m :: rest → t.hg.waitLoads = rest ∧ t.hg.load = some { m with since := s.clock.cycles }) ∧
    ∀ l, s.hg.load = some l →
      (s.hg.copying = true → exec .placeLoadDone s = .next s ∧
        ∃ t, exec .placeCopyDone s = .next t ∧ t.hg = { s.hg with copying := false, load := some { l with since := s.clock.cycles } }) ∧
      (s.hg.copying = false →
        ∃ t, exec .placeLoadDone s = .next t ∧ t.hg.placeIn = s.hg.placeIn ∧
          t.hg.placeSh = (State.placeCopy l.src l.first (l.count - l.done) l.done s).2.2.hg.placeSh ∧
          (s.hg.waitLoads = [] → t.hg.load = none) ∧
          (∀ m rest, s.hg.waitLoads = m :: rest → t.hg.waitLoads = rest ∧ t.hg.load = some { m with since := s.clock.cycles }))

-- Clusters -----------------------------------------------------------------------------------------------------------

/-- R215: the Watermaster and the management channel start and halt the cores of a cluster; a core whose RUN bit becomes set starts at the
code area in machine mode, waiting for nothing of its last run, and the others stay as they were. Any other source is refused with
SETUP_LOCKED. -/
def Sys2Proof.Claims.CoreRunStartsCores : Prop :=
  ∀ (s : State) (src : Source) (n : Nat) (v : Word), s.live = true → s.hearsIn n src = true → n < 32 → s.clusterPresent n = true →
    let starts (k : Nat) : Bool := bitAt v.toNat k && !bitAt (s.reg (Reg.CL_CORE_RUN n)) k
    (WriteSource.wmMgmt.accepts src = false → ∃ t, exec (.clCoreRunWrite src n v) s = .next t ∧ t.regs = s.regs ∧ t.cores = s.cores ∧
      Reports s t 0x4014 Code.setupLocked (some (setupBase + Reg.CL_CORE_RUN n)) 0) ∧
    (WriteSource.wmMgmt.accepts src = true → ∃ t, exec (.clCoreRunWrite src n v) s = .next t ∧
      t.fld (Reg.CL_CORE_RUN n) Fld.CL_CORE_RUN_RUN = v.toNat % 16 ∧ RegsBut s t [Reg.CL_CORE_RUN n] ∧ Silent s t ∧
      (∀ i, t.core i = if i / 4 = n ∧ starts (i % 4) = true then
          { s.core i with pc := scratchBase + n * 2 ^ 24 + 0xFC0000, machine := true, fencing := false, loads := [] }
        else s.core i) ∧
      ∀ k, k < 4 → starts k = true → ∀ e ∈ t.fab.opens, e.2.who = .core n k → ∀ r il, e.2.sink ≠ .reg r il)

/-- R353, R350, R356: a FENCE of a core that has no operation open ends at once: the core goes on, or takes a store/AMO access fault (5)
when a store of it has failed since the last one; with an operation open the core waits. An LR or SC to a fabric address takes a store/AMO
access fault. A trap of a control core to an address outside its code area is a fetch from an unmapped address (R44, R213). A core that does
not stand at an instruction executes neither. (How a trap is entered is RISC-V's, log entry 5.) -/
def Sys2Proof.Claims.FenceWaitsAndLrScTraps : Prop :=
  ∀ (s : State) (who : Requester) (i rs1 : Nat), s.live = true → coreKey who = some i →
    let c := s.core i
    let traps (t : State) (d : CoreState) : Prop :=
      let area := scratchBase + i / 4 * 2 ^ 24 + 0xFC0000
      t.core i = d ∧ (∀ j, j ≠ i → t.core j = s.core j) ∧
        if i < 128 ∧ ¬ (area ≤ d.pc ∧ d.pc < area + 0x40000) then
          Reports s t (s.clusterUnit (i / 4) (4 + i % 4)) Code.addressUnmapped (some d.pc) 0x30000
        else Silent s t
    (s.coreSteps i = false → exec (.fence who) s = .next s ∧ exec (.lrSc who rs1) s = .next s) ∧
    (s.coreSteps i = true →
      (s.opsOpen who = true → ∃ t, exec (.fence who) s = .next t ∧ t.core i = { c with fencing := true } ∧ t.coreSteps i = false) ∧
      (s.opsOpen who = false → c.storeFail = none → ∃ t, exec (.fence who) s = .next t ∧ t.core i = c.advance 4 ∧ Silent s t) ∧
      (∀ a, s.opsOpen who = false → c.storeFail = some a → ∃ t, exec (.fence who) s = .next t ∧
        traps t (({ c with storeFail := none } : CoreState).trap 7 a)) ∧
      (s.isFabric (c.readX rs1) = true → ∃ t, exec (.lrSc who rs1) s = .next t ∧ traps t (c.trap 7 (c.readX rs1))))

/-- R230, R246, R221, R273, R253: a command whose last word a running core stores enters its queue when there is room and nothing is held
before it; without room it is held, and the core with it; before its last word it is only latched. A core that does not stand at an instruction
stores nothing. (Latches hold as many words as their windows.) -/
def Sys2Proof.Claims.PushesEnterTheirQueues : Prop :=
  ∀ (s : State) (n k : Nat) (ws : List Nat), s.live = true → s.clusterPresent n = true → n < 32 →
    (∀ key l, tblFind key (s.cluster n).latches = some l → l.length = if key < 4 then 8 else 4) →
    ∀ w, w ∈ [(0, 8, Instr.tileCmdPush n k 0 ws), (1, 4, Instr.dmaPush n 0 k 0 ws), (2, 4, Instr.dmaPush n 1 k 0 ws),
        (3, 4, Instr.vecPush n k 0 ws), (4, 4, Instr.flumeCmdPush n k 0 ws)] →
      let room := (s.cluster n).room w.1 && !((s.cluster n).held.any fun h => h.1 / 4 == w.1)
      (s.coreSteps (4 * n + k % 4) = false → exec w.2.2 s = .next s) ∧
      (s.coreSteps (4 * n + k % 4) = true →
        (ws.length = w.2.1 → room = true → ∃ t, exec w.2.2 s = .next t ∧
          (t.cluster n).queue w.1 = (s.cluster n).queue w.1 ++ [ws.map (· % 2 ^ 64)] ∧ (t.cluster n).held = (s.cluster n).held ∧
          (t.cluster n).running = (s.cluster n).running) ∧
        (ws.length = w.2.1 → room = false → ∃ t, exec w.2.2 s = .next t ∧ (t.cluster n).queue w.1 = (s.cluster n).queue w.1 ∧
          (t.cluster n).held = (s.cluster n).held ++ [(4 * w.1 + k % 4, ws.map (· % 2 ^ 64))] ∧ t.coreSteps (4 * n + k % 4) = false) ∧
        (0 < ws.length → ws.length < w.2.1 → ∃ t, exec w.2.2 s = .next t ∧ (t.cluster n).queue w.1 = (s.cluster n).queue w.1 ∧
          (t.cluster n).held = (s.cluster n).held ∧ t.coreSteps (4 * n + k % 4) = true))

/-- R218, R220: FILL_BEGIN, FILL_END and FREE move a buffer through its states, and CL_BUF_WRITE gives a free one its range; in any other
state, and for a range beyond the buffers or over another buffer, the buffer keeps what it has and BUFFER_BUSY is written. -/
def Sys2Proof.Claims.BufferCommandsFollowTheStates : Prop :=
  ∀ (s : State) (n b : Nat), s.live = true → s.clusterPresent n = true → b < 255 →
    let x := s.buf n b
    let moved (i : Instr) (dest : Nat) : Prop := ∃ t, exec i s = .next t ∧ (t.buf n b).state = dest ∧ (t.buf n b).readers = x.readers ∧
      (t.buf n b).base = x.base ∧ (t.buf n b).len = x.len ∧ RegsBut s t [Reg.CL_BUF n b] ∧ Silent s t
    let refused (i : Instr) (kind other : Nat) : Prop := ∃ t, exec i s = .next t ∧ t.regs = s.regs ∧
      Reports s t (s.clusterUnit n 0xA) Code.bufferBusy none (b + kind * 2 ^ 8 + other * 2 ^ 12)
    (if x.state ≤ 1 then moved (.fillBegin n b) 1 else refused (.fillBegin n b) 2 0) ∧
    (if x.state = 1 then moved (.fillEnd n b) 2 else refused (.fillEnd n b) 2 0) ∧
    (if (x.state = 2 ∧ x.readers = 0) ∨ x.state = 1 then moved (.free n b) 0 else refused (.free n b) 2 0) ∧
    ∀ (src : Source) (v : Word), s.hearsIn n src = true → n < 32 →
      let start := bitsOf v.toNat 0 16 * 256
      let size := (bitsOf v.toNat 16 16 + 1) * 256
      let overlap := (s.bufsOf n).find? fun o =>
        o != b && decide ((s.buf n o).base < start + size) && decide (start < (s.buf n o).base + (s.buf n o).len)
      if x.state ≠ 0 ∨ x.readers ≠ 0 then refused (.clBufWrite src n b v) 0 0
      else if 0xFC0000 < start + size then refused (.clBufWrite src n b v) 1 0
      else match overlap with
        | some o => refused (.clBufWrite src n b v) 3 o
        | none => ∃ t, exec (.clBufWrite src n b v) s = .next t ∧ (t.buf n b).base = start ∧ (t.buf n b).len = size ∧
            (t.buf n b).defined = v.getLsbD 32 ∧ (t.buf n b).state = 0 ∧ RegsBut s t [Reg.CL_BUF n b] ∧ Silent s t

/-- R234, R246, R273, R253, R218: a running command whose time has come retires: it leaves, DONE counts it, LAST_TAG takes its tag, and each
output still in the state it was reserved in, HELD for the array and the vector unit and FILLING for the Flume, becomes FULL unless it is an
input too; any other is refused with BUFFER_BUSY of kind 2. Before its time, and with nothing running, nothing changes. -/
def Sys2Proof.Claims.RetirementFillsTheOutputs : Prop :=
  ∀ (s : State) (n : Nat), s.live = true → s.clusterPresent n = true → n < 32 →
    let outputs (r : RunCmd) (reserved : Nat) (t : State) : Prop := ∀ b, b ∈ r.outs → b < 255 →
      ((s.buf n b).state = reserved → (∀ f, (b, f) ∉ r.ins) → (t.buf n b).state = 2) ∧
      ((s.buf n b).state ≠ reserved → ∃ e ∈ t.flt.fresh, e.code = BitVec.ofNat 8 Code.bufferBusy ∧ e.detail = BitVec.ofNat 64 (b + 2 * 2 ^ 8))
    ((s.cluster n).running = [] → exec (.tileRetire n) s = .next s) ∧
    ((s.cluster n).vecRun = none → exec (.vecRetire n) s = .next s) ∧
    ((s.cluster n).flmRun = none → exec (.flumeComplete n) s = .next s) ∧
    (∀ r rest, (s.cluster n).running = r :: rest →
      (s.clock.cycles < r.stop → exec (.tileRetire n) s = .next s) ∧
      (r.stop ≤ s.clock.cycles → ∃ t, exec (.tileRetire n) s = .next t ∧ (t.cluster n).running = rest ∧ outputs r 3 t ∧
        t.fld (Reg.CL_CMD_STATUS n) Fld.CL_CMD_STATUS_LAST_TAG = r.tag % 2 ^ 16 ∧
        t.fld (Reg.CL_CMD_STATUS n) Fld.CL_CMD_STATUS_DONE =
          (s.fld (Reg.CL_CMD_STATUS n) Fld.CL_CMD_STATUS_DONE + 1) % 2 ^ Fld.CL_CMD_STATUS_DONE.w)) ∧
    (∀ r, (s.cluster n).vecRun = some r →
      (s.clock.cycles < r.stop → exec (.vecRetire n) s = .next s) ∧
      (r.stop ≤ s.clock.cycles → ∃ t, exec (.vecRetire n) s = .next t ∧ (t.cluster n).vecRun = none ∧ outputs r 3 t ∧
        t.fld (Reg.CL_VEC_STATUS n) Fld.CL_VEC_STATUS_LAST_TAG = r.tag % 2 ^ 16 ∧
        t.fld (Reg.CL_VEC_STATUS n) Fld.CL_VEC_STATUS_DONE =
          (s.fld (Reg.CL_VEC_STATUS n) Fld.CL_VEC_STATUS_DONE + 1) % 2 ^ Fld.CL_VEC_STATUS_DONE.w)) ∧
    (∀ r, (s.cluster n).flmRun = some r →
      (s.clock.cycles < r.stop → exec (.flumeComplete n) s = .next s) ∧
      (r.stop ≤ s.clock.cycles → ∃ t, exec (.flumeComplete n) s = .next t ∧ (t.cluster n).flmRun = none ∧ outputs r 1 t ∧
        t.fld (Reg.FLM_STATUS n) Fld.FLM_STATUS_LAST_TAG = r.tag % 2 ^ 16 ∧
        t.fld (Reg.FLM_STATUS n) Fld.FLM_STATUS_DONE =
          (s.fld (Reg.FLM_STATUS n) Fld.FLM_STATUS_DONE + 1) % 2 ^ Fld.FLM_STATUS_DONE.w))

/-- R231, R232, R225: the tile command at the head of the queue issues when its issue rule allows: it runs in the lowest idle sub-array of its
form until its cycles have passed and every command before it has ended, its outputs are held, and what it computes is stored, its folds in the
accumulators too. One that takes no time, with none before it, ends at once. When the rule does not allow it, the queue is empty or issue is
stopped, nothing changes. -/
def Sys2Proof.Claims.MatmulIssuesByItsRule : Prop :=
  ∀ (s : State) (n : Nat) (bad : Bool), s.live = true → s.clusterPresent n = true → n < 32 →
    ((s.cluster n).tiles = [] ∨ (s.cluster n).stop = true ∨ s.colBusy = true → exec (.matmul n bad) s = .next s) ∧
    ∀ (e : TileEntry) (rest : List TileEntry), (s.cluster n).tiles = e :: rest → (s.cluster n).stop = false → s.colBusy = false →
      let c := TileCmd.ofEntry e
      (s.tileIssues n c = none → exec (.matmul n bad) s = .next s) ∧
      (∀ sub, s.tileIssues n c = some sub →
        let w := (s.onCluster n fun x => { x with tiles := rest }).tileWork n c sub bad
        let last := ((s.cluster n).running.map fun r => r.stop).foldl max 0
        ((s.cluster n).running ≠ [] ∨ w.1 ≠ 0 → ∃ t r, exec (.matmul n bad) s = .next t ∧ t.mem = w.2.2.mem ∧
          (t.cluster n).acc = (w.2.2.cluster n).acc ∧ (t.cluster n).running = (s.cluster n).running ++ [r] ∧
          r.stop = max (s.clock.cycles + w.1) last ∧ r.fault = w.2.1 ∧ r.tag = c.tag ∧ r.sub = sub ∧
          ∀ b, b ∈ c.outputs → b < 255 → (t.buf n b).state = 3) ∧
        ((s.cluster n).running = [] → w.1 = 0 → ∃ t, exec (.matmul n bad) s = .next t ∧ t.mem = w.2.2.mem ∧ (t.cluster n).running = [] ∧
          t.fld (Reg.CL_CMD_STATUS n) Fld.CL_CMD_STATUS_LAST_TAG = c.tag % 2 ^ 16 ∧
          ∀ b, b ∈ c.outputs → b < 255 → (∀ f, (b, f) ∉ c.inputs) → (t.buf n b).state = 2))

/-- R246, R247, R252: a vector command at the head of the queue whose operation this row names issues when its inputs and outputs are
ready: it runs for its cycles, its outputs are held, and the rows it computes are stored; one that takes no time ends at once. It waits
otherwise, and for a row that names another operation. -/
def Sys2Proof.Claims.VectorCommandsIssueInOrder : Prop :=
  ∀ (s : State) (n : Nat), s.live = true → s.clusterPresent n = true → n < 32 →
    ∀ op i, (op, i) ∈ [(1, Instr.add n), (2, .mul n), (3, .axpy n), (4, .scaleBias n), (5, .exp n), (6, .siluMul n), (7, .rmsnorm n),
        (8, .softmax n), (9, .rope n), (10, .convert n), (11, .quantRow n), (12, .rowSum n), (13, .rowMax n), (14, .sample n)] →
      ((s.cluster n).vecs = [] ∨ (s.cluster n).stop = true ∨ (s.cluster n).vecRun ≠ none → exec i s = .next s) ∧
      ∀ (ws : List Nat) (rest : List (List Nat)), (s.cluster n).vecs = ws :: rest → (s.cluster n).stop = false →
        (s.cluster n).vecRun = none →
        let c := VecCmd.ofWords ws
        let ready := c.inputs.all (fun e => s.inReady n e.1) && c.outputs.all (fun b => s.outReady n b)
        let w := (s.onCluster n fun x => { x with vecs := rest }).vecWork n c
        (ready = false ∨ (c.op ≠ op ∧ c.op ≠ 0 ∧ c.op ≤ 14) → exec i s = .next s) ∧
        (c.op = op → ready = true → w.1 ≠ 0 → ∃ t r, exec i s = .next t ∧ t.mem = w.2.2.mem ∧ (t.cluster n).vecRun = some r ∧
          r.stop = s.clock.cycles + w.1 ∧ r.fault = w.2.1 ∧ r.tag = c.tag ∧ ∀ b, b ∈ c.outputs → b < 255 → (t.buf n b).state = 3) ∧
        (c.op = op → ready = true → w.1 = 0 → ∃ t, exec i s = .next t ∧ t.mem = w.2.2.mem ∧ (t.cluster n).vecRun = none ∧
          t.fld (Reg.CL_VEC_STATUS n) Fld.CL_VEC_STATUS_LAST_TAG = c.tag % 2 ^ 16)

/-- R273, R276 to R278: a Flume command at the head of the queue whose operation this row names starts when its inputs and outputs are
ready: it runs for its cycles and ends with its own fault, if it has one, and what it writes is stored; one that takes no time ends at once.
It waits otherwise, and for a row that names another operation. -/
def Sys2Proof.Claims.FlumeCommandsIssueInOrder : Prop :=
  ∀ (s : State) (n : Nat), s.live = true → s.clusterPresent n = true → n < 32 →
    ∀ op i, (op, i) ∈ [(1, Instr.gather n), (2, .compact n), (3, .mask n), (4, .check n), (5, .merge n)] →
      ((s.cluster n).flmQ = [] ∨ (s.cluster n).stop = true ∨ (s.cluster n).flmRun ≠ none ∨ s.colBusy = true → exec i s = .next s) ∧
      ∀ (ws : List Nat) (rest : List (List Nat)), (s.cluster n).flmQ = ws :: rest → (s.cluster n).stop = false →
        (s.cluster n).flmRun = none → s.colBusy = false →
        let c := FlmCmd.ofWords ws
        let ready := c.inputs.all (fun e => s.inReady n e.1) && c.outputs.all (fun b => s.outReady n b)
        let begun := c.outputs.foldl (fun s b => s.setBufState n b 1) (s.onCluster n fun x => { x with flmQ := rest })
        let e := begun.flmWork n c
        (ready = false ∨ (c.op ≠ op ∧ c.op ≠ 0 ∧ c.op ≤ 5) → exec i s = .next s) ∧
        (c.op = op → ready = true → e.cycles ≠ 0 → ∃ t r, exec i s = .next t ∧ (t.cluster n).flmRun = some r ∧
          r.stop = s.clock.cycles + e.cycles ∧ r.fault = e.fault ∧ r.tag = c.tag ∧ (e.undef = false → t.mem = e.state.mem)) ∧
        (c.op = op → ready = true → e.cycles = 0 → ∃ t, exec i s = .next t ∧ (t.cluster n).flmRun = none ∧
          t.fld (Reg.FLM_STATUS n) Fld.FLM_STATUS_LAST_TAG = c.tag % 2 ^ 16 ∧ (e.undef = false → t.mem = e.state.mem))

/-- R221, R253: an idle DMA engine starts the next descriptor of its queue once its source buffer is full: its destination buffer fills, and
it runs; an invalid descriptor, or one whose destination may not be filled, completes at once and moves nothing. A running one whose operations
have all closed completes: DONE counts it, its CRC register takes the CRC-32C of a CRC descriptor, and its last piece leaves a destination that
is FILLING FULL, and is refused with BUFFER_BUSY in any other (R218). Nothing starts with an empty queue, and nothing completes with none running. -/
def Sys2Proof.Claims.DmaStartsAndCompletes : Prop :=
  ∀ (s : State) (n e : Nat), s.live = true → s.clusterPresent n = true → n < 32 → e < 2 →
    let done := if e = 0 then Fld.CL_DMA_STATUS_DONE0 else Fld.CL_DMA_STATUS_DONE1
    let counted (t : State) : Prop := t.fld (Reg.CL_DMA_STATUS n) done = (s.fld (Reg.CL_DMA_STATUS n) done + 1) % 2 ^ done.w
    (tblGetD e [] (s.cluster n).dmaQ = [] ∨ (s.cluster n).stop = true ∨ tblFind e (s.cluster n).dmaRun ≠ none →
      exec (.dmaStart n e) s = .next s) ∧
    (tblFind e (s.cluster n).dmaRun = none → exec (.dmaComplete n e) s = .next s) ∧
    (∀ ws rest, tblGetD e [] (s.cluster n).dmaQ = ws :: rest → (s.cluster n).stop = false → tblFind e (s.cluster n).dmaRun = none →
      let c := DmaCmd.ofWords ws
      (s.inReady n c.srcBuf = false → exec (.dmaStart n e) s = .next s) ∧
      (s.inReady n c.srcBuf = true → ∀ kind b, s.dmaFault n c = some (kind, b) → ∃ t, exec (.dmaStart n e) s = .next t ∧
        tblGetD e [] (t.cluster n).dmaQ = rest ∧ tblFind e (t.cluster n).dmaRun = none ∧ counted t ∧ t.mem = s.mem ∧
        Reports s t (s.clusterUnit n (8 + e)) Code.tileInvalid none (c.tag + kind * 2 ^ 16 + (2 + e) * 2 ^ 20 + b * 2 ^ 22)) ∧
      (s.inReady n c.srcBuf = true → s.dmaFault n c = none → c.dstBuf ≠ 255 → 1 < (s.buf n c.dstBuf).state →
        ∃ t, exec (.dmaStart n e) s = .next t ∧ tblGetD e [] (t.cluster n).dmaQ = rest ∧ tblFind e (t.cluster n).dmaRun = none ∧
          counted t ∧ t.mem = s.mem ∧ Reports s t (s.clusterUnit n 0xA) Code.bufferBusy none (c.dstBuf + 2 * 2 ^ 8)) ∧
      (s.inReady n c.srcBuf = true → s.dmaFault n c = none → (c.dstBuf = 255 ∨ (s.buf n c.dstBuf).state ≤ 1) →
        ∃ t r, exec (.dmaStart n e) s = .next t ∧ tblGetD e [] (t.cluster n).dmaQ = rest ∧
          tblFind e (t.cluster n).dmaRun = some r ∧ r.words = ws)) ∧
    (∀ r, tblFind e (s.cluster n).dmaRun = some r →
      let c := DmaCmd.ofWords r.words
      let busy := s.opsOpen (.dma n e) || s.tl.reads.any (fun x => x.who == .dma n e) || !r.unsent.isEmpty
      (busy = true → exec (.dmaComplete n e) s = .next s) ∧
      (busy = false → ∃ t, exec (.dmaComplete n e) s = .next t ∧ tblFind e (t.cluster n).dmaRun = none ∧ counted t ∧
        (c.crc = true → t.fld (Reg.CL_DMA_CRC n) (if e = 0 then Fld.CL_DMA_CRC_CRC0 else Fld.CL_DMA_CRC_CRC1) = crc32c (crcData r.pieces) % 2 ^ 32) ∧
        (c.dstBuf < 255 → c.dstLast = true → c.dstBuf ≠ c.srcBuf → (s.buf n c.dstBuf).state = 1 → (t.buf n c.dstBuf).state = 2) ∧
        (c.dstBuf < 255 → c.dstLast = true → c.dstBuf ≠ c.srcBuf → (s.buf n c.dstBuf).state ≠ 1 →
          (t.buf n c.dstBuf).state = (s.buf n c.dstBuf).state ∧ Reports s t (s.clusterUnit n 0xA) Code.bufferBusy none (c.dstBuf + 2 * 2 ^ 8))))


-- Ports --------------------------------------------------------------------------------------------------------------

/-- R300, R293, R297, R49: a write of FP_CFG that leaves ENABLE clear takes the port DOWN and forgets its open and shorted lanes; one that sets
ENABLE starts bring-up from DOWN (CM_TEST) for a port with a role whose port die is in service, once the device runs, and otherwise leaves a
port with a role in its state; a port without a role is held down. What a port that goes DOWN held is discarded. The odd port of a pair follows
the even one, so its write changes FP_CFG alone. -/
def Sys2Proof.Claims.EnableStartsOrEndsAPort : Prop :=
  ∀ (s : State) (src : Source) (p : Nat) (v : Word), s.live = true → s.hears src = true → p < 16 →
    ∃ t, exec (.portEnableWrite src p v) s = .next t ∧ t.flag (Reg.FP_CFG p) Fld.FP_CFG_ENABLE = v.getLsbD 0 ∧
      (t.leadPort p ≠ p → RegsBut s t [Reg.FP_CFG p] ∧ t.ports = s.ports) ∧
      (t.leadPort p = p →
        let may := s.portDieUp (p / 4) = true ∧ s.ecc.halted = false ∧ s.safeState = false
        RegsBut s t [Reg.FP_CFG p, Reg.FP_STATUS p, Reg.FP_STATUS (p + 1), Reg.FWD_CNT_DROP (p / 4)] ∧
        (v.getLsbD 0 = false ∨ t.portRole p = 0 → t.portStage p = 0 ∧
          (s.portStage p ≠ 0 → (t.port p).replay = [] ∧ t.portLanes p = 0)) ∧
        (v.getLsbD 0 = false → (t.port p).openL = 0 ∧ (t.port p).shortL = 0 ∧ t.laneMask p Fld.FP_STATUS_OPEN = 0 ∧
          t.laneMask p Fld.FP_STATUS_SHORTED = 0) ∧
        (v.getLsbD 0 = true → t.portRole p ≠ 0 →
          (s.portStage p = 0 ∧ may → t.portStage p = 1 ∧ (t.port p).phase = 1 ∧ (t.port p).since = s.clock.elapsedNs) ∧
          (¬ (s.portStage p = 0 ∧ may) → t.portStage p = s.portStage p ∧ t.ports = s.ports)))

/-- R300 to R302, R307: the bring-up phases follow one another, each at its event, not before its time, and not while the microcontroller is
reloaded: CM_TEST ends after 50 µs, with the lanes found good, TRAIN drops the lanes without lock, LANE_ID agrees the width after 20 µs over
the lane map, ALIGN leads to IDENTITY. OPEN and SHORTED show the physical lanes as the logical lanes that come in on them. A port with no lane
left is FENCED; one below its mode's width without DEGRADE, or switched, goes DOWN. The same phases inside RETRAIN keep STATE at RETRAIN. -/
def Sys2Proof.Claims.BringUpAdvancesInOrder : Prop :=
  ∀ (s : State) (port : Nat), s.live = true → port < 16 →
    let p := s.leadPort port
    let idle (i : Instr) : Prop := exec i s = .next s
    let at_ (k wait : Nat) : Prop := s.inPhase p k = true ∧ (s.port p).since + wait ≤ s.clock.elapsedNs
    let reached (t : State) (k : Nat) : Prop := (t.port p).phase = k ∧ (t.port p).since = s.clock.elapsedNs ∧
      t.portStage p = if s.portStage p = 7 ∧ k < 5 then 7 else k
    let shown (t : State) : Prop := ∀ l, l < s.modeLanes p →
      bitAt (t.laneMask p Fld.FP_STATUS_OPEN) l = bitAt (t.port p).openL (nthD (t.port p).order l l) ∧
      bitAt (t.laneMask p Fld.FP_STATUS_SHORTED) l = bitAt (t.port p).shortL (nthD (t.port p).order l l)
    (∀ k, s.inPhase p k = true ↔
      (s.portStage p = k ∨ s.portStage p = 7) ∧ (s.port p).phase = k ∧ (s.port p).pauseTo ≤ s.clock.elapsedNs) ∧
    (∀ found, (¬ at_ 1 50000 → idle (.cmTestDone port found)) ∧
      (at_ 1 50000 → ∃ t, exec (.cmTestDone port found) s = .next t ∧ shown t ∧
        (∀ k, k < s.modeLanes p → (k ∈ t.goodLanes p ↔ k ∈ s.goodLanes p ∧ nthD found k .pass = .pass)) ∧
        (t.goodLanes p = [] → t.portStage p = 8 ∧ t.portLanes p = 0) ∧ (t.goodLanes p ≠ [] → reached t 2))) ∧
    (∀ failed, (s.inPhase p 2 = false → idle (.trainDone port failed)) ∧
      (s.inPhase p 2 = true → ∃ t, exec (.trainDone port failed) s = .next t ∧ shown t ∧ reached t 3 ∧
        ∀ k, k < s.modeLanes p → (k ∈ t.goodLanes p ↔ k ∈ s.goodLanes p ∧ k ∉ failed))) ∧
    (∀ laneMap polarity far swap, (¬ at_ 3 20000 → idle (.laneIdDone port laneMap polarity far swap)) ∧
      (at_ 3 20000 →
        let order := laneOrder (s.modeLanes p) laneMap swap
        let w := agreedWidth (s.agreedLanes p far order).length (s.modeLanes p)
        let narrow := w < s.modeLanes p ∧ (s.portRole p = 3 ∨ s.flag (Reg.FP_CFG p) Fld.FP_CFG_DEGRADE = false)
        (∀ l, l ∈ s.agreedLanes p far order ↔ l < s.modeLanes p ∧ nthD order l l ∈ s.goodLanes p ∧ bitAt far l = true) ∧
        ∃ t, exec (.laneIdDone port laneMap polarity far swap) s = .next t ∧ shown t ∧ (t.port p).order = order ∧
          t.fld (Reg.FP_STATUS p) Fld.FP_STATUS_LANE_MAP = laneMap % 2 ^ Fld.FP_STATUS_LANE_MAP.w ∧
          t.fld (Reg.FP_STATUS p) Fld.FP_STATUS_POLARITY = polarity % 2 ^ Fld.FP_STATUS_POLARITY.w ∧
          (w = 0 → t.portStage p = 8) ∧ (w ≠ 0 → narrow → t.portStage p = 0) ∧
          (w ≠ 0 → ¬ narrow → reached t 4 ∧ t.portLanes p = w))) ∧
    (s.inPhase p 4 = false → idle (.alignDone port)) ∧
    (s.inPhase p 4 = true → ∃ t, exec (.alignDone port) s = .next t ∧ reached t 5 ∧ (t.port p).lldpAt = s.clock.elapsedNs)

/-- R307, R505: a reload of a port die's microcontroller puts off training and LLDP of its four ports by the time it takes; no port
changes its state. -/
def Sys2Proof.Claims.McuReloadPausesTraining : Prop :=
  ∀ (s : State) (die ns : Nat), s.live = true →
    ∃ t, exec (.linkMcuReload die ns) s = .next t ∧ t.regs = s.regs ∧ t.out = s.out ∧
      ∀ q, q < 16 → t.port q = if q / 4 = die % 4 then
        { s.port q with since := (s.port q).since + ns, lldpAt := (s.port q).lldpAt + ns, pauseTo := s.clock.elapsedNs + ns } else s.port q

/-- R304, R305, R300, R303, R307, R311: an identity frame sets FP_HEARD and ID_STATE; a match puts the port into FORWARDING, or keeps it there,
until the frame's time-to-live runs out; anything else sends a FORWARDING port back to IDENTITY. A port that enters FORWARDING again with the
same neighbour within T_RETRAIN replays what it held, and discards it otherwise. TLVs of another OUI or subtype, frames outside those two
states, and frames during a microcontroller reload change nothing. The time-to-live that ends means ID_STATE expired and IDENTITY again. A
port sends its own LLDP frame when it is due: at once in IDENTITY, and in a slot, behind what waits, in FORWARDING, with a Pdelay_Req on a
torus or ring port (the model's choice of the moment, log entry 18). -/
def Sys2Proof.Claims.IdentityDecidesForwarding : Prop :=
  ∀ (s : State) (port : Nat), s.live = true → port < 16 →
    let p := s.leadPort port
    let x := s.port p
    let idState (t : State) : Nat := t.fld (Reg.FP_STATUS p) Fld.FP_STATUS_ID_STATE
    let met := s.portStage p = 5 ∨ s.portStage p = 6
    let works := x.pauseTo ≤ s.clock.elapsedNs
    (∀ f : LldpFrame,
      let taken := f.oui = s.reg Reg.FWD_OUI ∧ f.subtype = 1 ∧ met ∧ works
      let heard := leNat (f.info.take 6) + leNat (sliceOf f.info 6 2) * 2 ^ 48
      let same := x.partner = some (bitsOf heard 0 16, bitsOf heard 16 4) ∧
        ∀ r, x.retrainAt = some r → s.clock.elapsedNs ≤ r + s.fld Reg.FWD_CTRL Fld.FWD_CTRL_T_RETRAIN * 1000
      (¬ taken → exec (.lldpReceive port f) s = .next s) ∧
      (taken → ∃ t, exec (.lldpReceive port f) s = .next t ∧ idState t = s.identityState p f.info ∧ t.reg (Reg.FP_HEARD p) = heard ∧
        (s.identityState p f.info = 1 → t.portStage p = 6 ∧ (t.port p).expire = some (s.clock.elapsedNs + f.ttl * 1000000000) ∧
          (s.portStage p = 5 → (t.port p).partner = some (bitsOf heard 0 16, bitsOf heard 16 4) ∧
            (same → (t.port p).replay = x.replay ∧ (t.port p).again = x.replay.map fun e => (e.seq, 0)) ∧
            (¬ same → (t.port p).replay = [] ∧ (t.port p).again = []))) ∧
        (s.identityState p f.info ≠ 1 → t.portStage p = 5 ∧ (t.port p).replay = x.replay))) ∧
    (let due := ∃ e, x.expire = some e ∧ e ≤ s.clock.elapsedNs
     (¬ due → exec (.identityExpire port) s = .next s) ∧
     (due → ∃ t, exec (.identityExpire port) s = .next t ∧ idState t = 5 ∧ (t.port p).expire = none ∧
       t.portStage p = if s.portStage p = 6 then 5 else s.portStage p)) ∧
    (let due := x.lldpAt ≤ s.clock.elapsedNs ∧ works
     (¬ (due ∧ met) → exec (.lldpSend port) s = .next s) ∧
     (due → s.portStage p = 5 → ∃ t, exec (.lldpSend port) s = .next t ∧ t.out = s.out ++ [.lldp p (s.lldpFrame p)] ∧
       t.port p = { x with lldpAt := s.clock.elapsedNs + 100000 }) ∧
     (due → s.portStage p = 6 → ∃ t, exec (.lldpSend port) s = .next t ∧ t.out = s.out ∧
       t.port p = { x with
         ctl := x.ctl ++ [⟨.lldp, 0⟩] ++ (if s.portRole p = 1 ∨ s.portRole p = 2 then [⟨.pdelayReq, 0⟩] else []),
         lldpAt := s.clock.elapsedNs + s.fld Reg.FWD_CTRL Fld.FWD_CTRL_LLDP_MS * 1000000 }))

/-- R303, R300: a lane of a FORWARDING port that loses lock is counted open and the port enters RETRAIN, its replay buffer held; lanes of a
pair count on from the even port's. On a port in another state, and for a lane the mode does not have, nothing happens. When T_RETRAIN passes
without a return to FORWARDING the port goes DOWN and what it held is discarded. -/
def Sys2Proof.Claims.CdrLossRetrains : Prop :=
  ∀ (s : State) (port lane : Nat), s.live = true → port < 16 →
    let p := s.leadPort port
    let k := 4 * (port - p) + lane
    let lost := s.portStage p = 6 ∧ k < s.modeLanes p
    (¬ lost → exec (.cdrLoss port lane) s = .next s) ∧
    (lost → ∃ t, exec (.cdrLoss port lane) s = .next t ∧ t.portStage p = 7 ∧ (t.port p).phase = 1 ∧
      (t.port p).retrainAt = some s.clock.elapsedNs ∧ (t.port p).replay = (s.port p).replay ∧
      (t.port p).openL = (s.port p).openL ||| 2 ^ k ∧
      ∀ l, l < s.modeLanes p → bitAt (t.laneMask p Fld.FP_STATUS_OPEN) l = bitAt (t.port p).openL (nthD (s.port p).order l l)) ∧
    (let due := ∃ e, (s.port p).retrainAt = some e ∧ e + s.fld Reg.FWD_CTRL Fld.FWD_CTRL_T_RETRAIN * 1000 ≤ s.clock.elapsedNs ∧ s.portStage p ≠ 6
     (¬ due → exec (.retrainTimeout port) s = .next s) ∧
     (due → ∃ t, exec (.retrainTimeout port) s = .next t ∧ t.portStage p = 0 ∧ (s.portStage p ≠ 0 → (t.port p).replay = [] ∧
       t.fld (Reg.FWD_CNT_DROP (p / 4)) Fld.FWD_CNT_DROP_DROP_HELD = (s.fld (Reg.FWD_CNT_DROP (p / 4)) Fld.FWD_CNT_DROP_DROP_HELD +
         (s.port p).replay.length) % 2 ^ Fld.FWD_CNT_DROP_DROP_HELD.w)))

/-- R303, R308 to R312, R322, R332, R334, R364, R365: on a port whose link is up, corrected symbols and uncorrectable codewords are counted. A
good frame for the port's address hands its cell on once: a new sequence number is acknowledged and its cell enters the next slot, or is
dropped for another partition's tag; a repeated one is only counted, and one too far ahead is asked for again. Its acknowledgement frees the
replay buffer and its NAK asks for all of it. A frame with a bad check is counted and asked for again, its cell stomped; a stomped one is
counted and acknowledged without its cell; an EMPTY one carries no cell; one for another address is counted. A port that is not forwarding, is
switched, or has another EtherType takes none, and counts a bad check alone. -/
def Sys2Proof.Claims.FramesHandTheirCellOnce : Prop :=
  ∀ (s : State) (port corr : Nat) (uncorr : List Nat) (f : CellFrame), s.live = true → port < 16 →
    let p := s.leadPort port
    let x := s.port p
    let h := f.header.toNat
    let seq := bitsOf h 0 16
    let empty := bitAt h 34 = true
    let c := Cell.ofBytes f.container
    let plus (t : State) (a : Nat) (g : BitField) (n : Nat) : Prop := t.fld a g = (s.fld a g + n) % 2 ^ g.w
    let none_ (t : State) : Prop := t.fab.arrived = s.fab.arrived
    let handed (t : State) (stomp : Bool) : Prop :=
      (s.ptagOk c = true → t.fab.arrived = s.fab.arrived ++ [⟨p, c, stomp⟩]) ∧
      (s.ptagOk c = false → none_ t ∧ plus t (Reg.FWD_CNT_DROP (p / 4)) Fld.FWD_CNT_DROP_DROP_PTAG 1)
    let taken := s.portStage p = 6 ∧ s.portRole p ≠ 3 ∧ f.etype = s.fld Reg.FWD_CTRL Fld.FWD_CTRL_ETYPE
    (s.portStage p ≠ 5 ∧ s.portStage p ≠ 6 → exec (.cellFrameReceive port f corr uncorr) s = .next s) ∧
    (s.portStage p = 5 ∨ s.portStage p = 6 →
      ∃ t, exec (.cellFrameReceive port f corr uncorr) s = .next t ∧
        plus t (Reg.FP_CNT_FEC p) Fld.FP_CNT_FEC_FEC_CORR corr ∧ plus t (Reg.FP_CNT_UNCORR p) Fld.FP_CNT_UNCORR_FEC_UNCORR uncorr.length ∧
        (¬ taken → none_ t ∧ (t.port p).rxAck = x.rxAck ∧ (t.port p).replay = x.replay ∧
          plus t (Reg.FP_CNT_FRAME p) Fld.FP_CNT_FRAME_FCS_BAD (if f.fcs = .bad then 1 else 0)) ∧
        (taken → f.dmac ≠ s.portMac p → none_ t ∧ (t.port p).rxAck = x.rxAck ∧ plus t (Reg.FP_CNT_FRAME p) Fld.FP_CNT_FRAME_DMAC_BAD 1) ∧
        (taken → f.dmac = s.portMac p →
          (f.fcs = .bad → plus t (Reg.FP_CNT_FRAME p) Fld.FP_CNT_FRAME_FCS_BAD 1 ∧ (t.port p).nakDue = true ∧
            (t.port p).rxAck = x.rxAck ∧ (t.port p).replay = x.replay ∧ (empty → none_ t) ∧ (¬ empty → handed t true)) ∧
          (f.fcs = .stomped → plus t (Reg.FP_CNT_FRAME p) Fld.FP_CNT_FRAME_STOMPED 1 ∧ none_ t ∧ (t.port p).replay = x.replay ∧
            (¬ empty → x.seen seq = false → (t.port p).rxAny = true ∧ (t.port p).ackDue = true ∧ (t.port p).rxAck = (x.mark seq).rxAck)) ∧
          (f.fcs = .good → (t.port p).replay = (x.takeHeader h).replay ∧ (t.port p).again = (x.takeHeader h).again ∧
            (empty → none_ t ∧ (t.port p).rxAck = x.rxAck) ∧
            (¬ empty → x.seen seq = true → none_ t ∧ (t.port p).ackDue = true ∧ (t.port p).rxAck = x.rxAck ∧
              plus t (Reg.FP_CNT_REPLAY p) Fld.FP_CNT_REPLAY_DUP 1) ∧
            (¬ empty → x.seen seq = false → 4096 ≤ (seq + 2 ^ 16 - x.rxAck) % 2 ^ 16 → none_ t ∧ (t.port p).nakDue = true ∧
              (t.port p).rxAck = x.rxAck) ∧
            (¬ empty → x.seen seq = false → (seq + 2 ^ 16 - x.rxAck) % 2 ^ 16 < 4096 →
              (t.port p).ackDue = true ∧ (t.port p).rxAny = true ∧
              (x.rxMarks = [] → seq = (x.rxAck + 1) % 2 ^ 16 → (t.port p).rxAck = seq ∧ (t.port p).rxMarks = []) ∧
              handed t false))))

/-- R318 to R323, R312, R334, R363: in a slot with one transit cell and none else, on a port die in service, the cell that has reached HOP_MAX,
or that the tables give no way, is dropped and counted; one for this device goes to its ejection queue when that has room (a stomped one is
discarded there), and is counted and treated as in transit when it has none; one for a rack behind switched ports enters the egress queue of
one with room; one for elsewhere leaves on the lowest free output of its preferred mask, else of its alternate mask, else of any (a
deflection), with HOPS counted, in a frame that is numbered and kept for replay; with no output free it is held, unless it is stomped. On a
fenced port die the cell stays. -/
def Sys2Proof.Claims.SlotMovesATransitCell : Prop :=
  ∀ (s : State) (a : Arrival), s.live = true → s.fab.arrived = [a] → s.fab.side = [] → s.fab.inject = [] → s.fab.ingress = [] →
    let d := a.port / 4
    let c := a.cell
    let u : SlotUse := ⟨[], []⟩
    let old := s.fld Reg.FWD_CTRL Fld.FWD_CTRL_HOP_MAX ≤ c.hops
    let c' : Cell := { c with hops := c.hops + 1 }
    let plus (t : State) (r : Nat) (g : BitField) : Prop := t.fld r g = (s.fld r g + 1) % 2 ^ g.w
    let placed (t : State) (pref alt : Nat) : Prop :=
      t.fab.eject = s.fab.eject ∧ t.fab.egress = s.fab.egress ∧
      match s.pickOutput u d pref alt true with
      | some q => t.fab.side = [] ∧ (bitAt pref q = false → plus t (Reg.FWD_CNT_DEFL d) Fld.FWD_CNT_DEFL_DEFLECTIONS) ∧
          (t.port q).txSeq = ((s.port q).txSeq + 1) % 2 ^ 16 ∧ (t.port q).replay = (s.port q).replay ++ [⟨(s.port q).txSeq, c', a.stomp⟩] ∧
          ∃ h rest, bitsOf h 0 16 = (s.port q).txSeq % 2 ^ 16 ∧
            t.out = s.out ++ [if a.stomp then .stomped q (s.frameMac q) h c' else .frame q (s.frameMac q) h (some c')] ++ rest
      | none => if a.stomp then t.fab.side = [] else t.fab.side = [(d, [c])] ∧ plus t (Reg.FWD_CNT_SW d) Fld.FWD_CNT_SW_SIDE_HELD
    ∃ t, exec .forwardingSlot s = .next t ∧ t.fab.slots = s.fab.slots + 1 ∧
      (s.portDieUp d = false → t.fab.arrived = [a] ∧ t.fab.eject = s.fab.eject ∧ t.fab.egress = s.fab.egress ∧ t.fab.side = []) ∧
      (s.portDieUp d = true → t.fab.arrived = [] ∧
        (old ∨ (c.dest ≠ s.node ∧ ∃ cause, s.route c.dest = .invalid cause) →
          t.fab.eject = s.fab.eject ∧ t.fab.egress = s.fab.egress ∧ t.fab.side = [] ∧
          plus t (Reg.FWD_CNT_DROP d) Fld.FWD_CNT_DROP_DROP_ROUTE) ∧
        (¬ old → c.dest = s.node → s.ejectRoom d c.cls = true → t.fab.side = [] ∧
          t.fab.eject = if a.stomp then s.fab.eject else pushCell (4 * d + c.cls) c s.fab.eject) ∧
        (¬ old → c.dest = s.node → s.ejectRoom d c.cls = false → placed t 0 0 ∧ plus t (Reg.FWD_CNT_EJ d) Fld.FWD_CNT_EJ_EJ_REFUSE) ∧
        (∀ pref alt, ¬ old → c.dest ≠ s.node → s.route c.dest = .masks pref alt → placed t pref alt) ∧
        (∀ pref, ¬ old → c.dest ≠ s.node → s.route c.dest = .egress pref →
          (∀ q, s.egressPort pref = some q → t.fab.side = [] ∧ t.fab.eject = s.fab.eject ∧
            tblGetD q [] t.fab.egress = tblGetD q [] s.fab.egress ++ if a.stomp then [] else [(c, s.clock.elapsedNs)]) ∧
          (s.egressPort pref = none → placed t 0 0)))

/-- R318, R322, R323, R334, R313, R365, R328: in a slot without transit cells, a cell that waits for injection on a port die in service leaves on
the lowest free output of its preferred mask, else of its alternate mask, or waits and is counted when no output of its masks is free; one
for this device goes to its ejection queue, or waits; one without a way is dropped and counted. On a fenced die it stays. An output that sends
no cell sends its oldest control frame, or a frame that is to be replayed when there is none or that has waited 256 slots and the control
frame has not, or an EMPTY frame when an acknowledgement is due. A relayed Sync carries its residence time. -/
def Sys2Proof.Claims.SlotInjectsAndFillsIdleOutputs : Prop :=
  ∀ s : State, s.live = true → s.fab.arrived = [] → s.fab.side = [] → s.fab.ingress = [] →
    let u : SlotUse := ⟨[], []⟩
    let plus (t : State) (r : Nat) (g : BitField) : Prop := t.fld r g = (s.fld r g + 1) % 2 ^ g.w
    (∀ d c, d < 4 → c.cls < 4 → s.fab.inject = [(4 * d + c.cls, [c])] →
      let gone (t : State) : Prop := tblGetD (4 * d + c.cls) [] t.fab.inject = []
      let waits (t : State) : Prop := t.fab.inject = s.fab.inject ∧ t.fab.eject = s.fab.eject ∧ t.fab.egress = s.fab.egress
      let counted (t : State) : Prop := waits t ∧ plus t (Reg.FWD_CNT_EJ d) Fld.FWD_CNT_EJ_INJ_WAIT
      ∃ t, exec .forwardingSlot s = .next t ∧ (s.portDieUp d = false → waits t) ∧
        (s.portDieUp d = true → c.dest = s.node →
          (s.ejectRoom d c.cls = true → gone t ∧ t.fab.eject = pushCell (4 * d + c.cls) c s.fab.eject) ∧
          (s.ejectRoom d c.cls = false → counted t)) ∧
        (∀ cause, s.portDieUp d = true → c.dest ≠ s.node → s.route c.dest = .invalid cause → gone t ∧
          plus t (Reg.FWD_CNT_DROP d) Fld.FWD_CNT_DROP_DROP_ROUTE) ∧
        (∀ pref, s.portDieUp d = true → c.dest ≠ s.node → s.route c.dest = .egress pref →
          (∀ q, s.egressPort pref = some q → gone t ∧
            tblGetD q [] t.fab.egress = tblGetD q [] s.fab.egress ++ [(c, s.clock.elapsedNs)]) ∧
          (s.egressPort pref = none → counted t)) ∧
        (∀ pref alt, s.portDieUp d = true → c.dest ≠ s.node → s.route c.dest = .masks pref alt →
          (∀ q, s.pickOutput u d pref alt false = some q → gone t ∧ ∃ h rest,
            t.out = s.out ++ [.frame q (s.frameMac q) h (some { c with hops := c.hops + 1 })] ++ rest) ∧
          (s.pickOutput u d pref alt false = none → counted t))) ∧
    (s.fab.inject = [] → ∀ q, q < 16 → 0 < s.slotFrames q →
      let x := s.port q
      let mac := s.frameMac q
      let dom := s.fld Reg.FWD_CTRL Fld.FWD_CTRL_PTP_DOMAIN
      let overtakes := ∃ g more seq n rest, x.ctl = g :: more ∧ x.again = (seq, n) :: rest ∧ 256 ≤ n ∧ g.waited < 256
      ∃ t, exec .forwardingSlot s = .next t ∧ t.fab.slots = s.fab.slots + 1 ∧ (t.port q).slots = x.slots + 1 ∧
        (∀ f rest, x.ctl = f :: rest → ¬ overtakes → (t.port q).ctl = (rest.map fun g => { g with waited := g.waited + 1 }) ∧
          (f.body = .lldp → Output.lldp q (s.lldpFrame q) ∈ t.out) ∧
          (f.body = .pdelayReq → Output.ptp q (s.portRole q == 3) dom (.pdelayReq s.node) ∈ t.out ∧
            (t.port q).ptp.pdelayAt = some s.stamp16) ∧
          (∀ tai corr came, f.body = .relay tai corr came → s.flag (Reg.FP_CFG q) Fld.FP_CFG_TWO_STEP = false →
            Output.ptp q (s.portRole q == 3) dom (.sync tai (corr + (s.stamp16 - came : Nat)) false) ∈ t.out) ∧
          (∀ r came, f.body = .pdelayResp r came → Output.ptpAnswer q (s.portRole q == 3) dom r came s.stamp16 ∈ t.out)) ∧
        (∀ seq n rest, x.again = (seq, n) :: rest → (x.ctl = [] ∨ overtakes) →
          (t.port q).again = ((x.again.filter fun e => e.1 != seq).map fun e => (e.1, e.2 + 1)) ∧
          plus t (Reg.FP_CNT_REPLAY q) Fld.FP_CNT_REPLAY_REPLAYED ∧
          ∀ f, x.replay.find? (fun f => f.seq == seq) = some f → ∃ h, bitsOf h 0 16 = seq % 2 ^ 16 ∧
            (if f.stomp then Output.stomped q mac h f.cell else .frame q mac h (some f.cell)) ∈ t.out) ∧
        (x.ctl = [] → x.again = [] → (t.port q).ackDue = false ∧ (t.port q).nakDue = false ∧
          (x.ackDue = true ∨ x.nakDue = true → ∃ h, Output.frame q mac h none ∈ t.out ∧ bitsOf h 16 16 = x.rxAck % 2 ^ 16)))

/-- R326, R327, R366 to R370, R322: on a switched port in FORWARDING, a packet that is not for this device's address, not UDP to UDP_PORT, or
fails its checksum is discarded and counted, one with another partition's tag is dropped and counted, and so is one of another epoch than its
connection's, unless it begins a new one with PSN 0. Of a connection's own packets, one already received is counted and not handed on again; a
new one within 1,024 of the next and with room in the ingress buffer has its cells with an acceptable tag handed to that buffer, and both are
owed an acknowledgement; any other is discarded and counted. On other ports nothing happens. -/
def Sys2Proof.Claims.DataPacketsAreTakenOnce : Prop :=
  ∀ (s : State) (port : Nat) (o : SwOuter) (q : SwPacket), s.live = true → port < 16 →
    let p := s.leadPort port
    let plus (t : State) (r : Nat) (g : BitField) : Prop := t.fld r g = (s.fld r g + 1) % 2 ^ g.w
    let discarded (t : State) : Prop := plus t (Reg.FWD_CNT_SW (p / 4)) Fld.FWD_CNT_SW_SW_DISCARD
    let fresh : Option RxConn := if q.psn = 0 then some ⟨q.epoch, 0, [], 0, 0, p⟩ else none
    let conn : Option RxConn := match tblFind q.srcGw s.fab.rx with
      | some c => if c.epoch = q.epoch then some c else fresh
      | none => fresh
    (∀ ty, s.swAccepts o q ty = true ↔
      let body := packetHeader q ty ++ (q.cells.map Cell.bytes).flatten
      let udp := beBytes 2 o.sport ++ beBytes 2 o.dport ++ beBytes 2 o.len ++ beBytes 2 0 ++ body
      o.dst = s.ownAddress ∧ o.next = 17 ∧ o.dport = s.fld Reg.FWD_SW Fld.FWD_SW_UDP_PORT ∧ o.len = 8 + body.length ∧
        o.sum = udpChecksum (beBytes 16 o.src) (beBytes 16 o.dst) udp) ∧
    (s.portRole p ≠ 3 ∨ s.portStage p ≠ 6 → exec (.swPacketReceive port ⟨o, q⟩) s = .next s ∧ exec (.swAckReceive port ⟨o, q⟩) s = .next s) ∧
    (s.portRole p = 3 → s.portStage p = 6 →
      (∀ i, i ∈ [(Instr.swPacketReceive port ⟨o, q⟩, 0), (.swAckReceive port ⟨o, q⟩, 1)] →
        (s.swAccepts o q i.2 = false → ∃ t, exec i.1 s = .next t ∧ t.fab = s.fab ∧ t.out = s.out ∧ discarded t) ∧
        (s.swAccepts o q i.2 = true → s.packetPtagOk q = false → ∃ t, exec i.1 s = .next t ∧ t.fab.ingress = s.fab.ingress ∧
          t.fab.rx = s.fab.rx ∧ t.fab.tx = s.fab.tx ∧ t.out = s.out ∧ plus t (Reg.FWD_CNT_DROP (p / 4)) Fld.FWD_CNT_DROP_DROP_PTAG)) ∧
      (s.swAccepts o q 0 = true → s.packetPtagOk q = true →
        (conn = none → ∃ t, exec (.swPacketReceive port ⟨o, q⟩) s = .next t ∧ t.fab = s.fab ∧ discarded t) ∧
        (∀ c, conn = some c →
          let dup := psnBefore q.psn c.cum = true ∨ q.psn ∈ c.marks
          let fits := (q.psn + 2 ^ 32 - c.cum) % 2 ^ 32 < 1024 ∧ (s.fab.ingress.filter fun e => e.1 == p).length + q.cells.length ≤ 512
          ∃ t, exec (.swPacketReceive port ⟨o, q⟩) s = .next t ∧
            (dup → t.fab.ingress = s.fab.ingress ∧ plus t Reg.JT_CNT_SW Fld.JT_CNT_SW_SW_DUP ∧
              ∃ r, tblFind q.srcGw t.fab.rx = some r ∧ r.cum = c.cum ∧ r.marks = c.marks ∧ r.unacked = c.unacked + 1) ∧
            (¬ dup → ¬ fits → t.fab.ingress = s.fab.ingress ∧ discarded t ∧ tblFind q.srcGw t.fab.rx = some c) ∧
            (¬ dup → fits →
              t.fab.ingress = s.fab.ingress ++ (q.cells.filter s.ptagOk).map (fun y => (p, y)) ∧
              ∃ r, tblFind q.srcGw t.fab.rx = some r ∧ r.epoch = c.epoch ∧ r.unacked = c.unacked + 1 ∧
                (q.psn = c.cum → c.marks = [] → r.cum = (c.cum + 1) % 2 ^ 32 ∧ r.marks = [])))))

/-- R367 to R370: on a switched port in FORWARDING a packet is built for a gateway once its oldest cell has waited 500 ns, numbered, sent and
kept, while the retransmission store has room; a cell whose rack has no valid prefix is dropped instead. An acknowledgement is owed after
eight packets or 1 µs and then sent; one received for the connection's epoch frees what it acknowledges, and a packet it shows missing is sent
again at most once per RTO. A packet without one for RTO is sent again, and after RETRIES the connection gives up what it holds, begins a new
epoch and writes PATH_LOST. Before its time each of these changes nothing. -/
def Sys2Proof.Claims.PacketsAreSentAcknowledgedAndResent : Prop :=
  ∀ (s : State) (port : Nat), s.live = true → port < 16 →
    let p := s.leadPort port
    let now := s.clock.elapsedNs
    let sent (q : Nat) (x : SwPacket) (ty : Nat) : List Output := if s.portStage q = 6 then [.packet q (s.swHeaders q x ty) x] else []
    (s.portRole p ≠ 3 ∨ s.portStage p ≠ 6 → exec (.swPacketSend port) s = .next s) ∧
    (∀ c at_, s.portRole p = 3 → s.portStage p = 6 → tblGetD p [] s.fab.egress = [(c, at_)] →
      let gw := s.gatewayOf c
      let conn := tblGetD gw ⟨p, tblGetD p 0 s.fab.epochs, 0, []⟩ s.fab.tx
      let valid := s.flag (Reg.FWD_PREFIX1 (c.dest / 256)) Fld.FWD_PREFIX1_VALID
      let goes := at_ + 500 ≤ now ∧ s.storeCells p < 8192
      ∃ t, exec (.swPacketSend port) s = .next t ∧
        (valid = false → t.out = s.out ∧ tblGetD p [] t.fab.egress = [] ∧
          t.fld (Reg.FWD_CNT_DROP (p / 4)) Fld.FWD_CNT_DROP_DROP_ROUTE =
            (s.fld (Reg.FWD_CNT_DROP (p / 4)) Fld.FWD_CNT_DROP_DROP_ROUTE + 1) % 2 ^ Fld.FWD_CNT_DROP_DROP_ROUTE.w) ∧
        (valid = true → ¬ goes → t.out = s.out ∧ t.fab.tx = s.fab.tx ∧ tblGetD p [] t.fab.egress = [(c, at_)]) ∧
        (valid = true → goes →
          t.out = s.out ++ sent p (s.dataPacket gw conn.epoch conn.psn [c]) 0 ∧
          tblGetD p [] t.fab.egress = [] ∧ tblFind gw t.fab.tx =
            some { conn with port := p, psn := (conn.psn + 1) % 2 ^ 32,
                             held := conn.held ++ [⟨conn.psn, [c], now, 0, none⟩] })) ∧
    (∀ src, (tblFind src s.fab.rx = none → exec (.swAckSend src) s = .next s) ∧
      ∀ c, tblFind src s.fab.rx = some c →
        let due := 8 ≤ c.unacked ∨ (0 < c.unacked ∧ c.since + 1000 ≤ now)
        (¬ due → exec (.swAckSend src) s = .next s) ∧
        (due → ∃ t, exec (.swAckSend src) s = .next t ∧ tblFind src t.fab.rx = some { c with unacked := 0 } ∧
          t.out = s.out ++ sent c.port ⟨s.node, src, s.fld Reg.FWD_IDENT Fld.FWD_IDENT_PTAG, 0, c.cum, c.sack, c.epoch, []⟩ 1)) ∧
    (∀ (o : SwOuter) (q : SwPacket), s.portRole p = 3 → s.portStage p = 6 → s.swAccepts o q 1 = true → s.packetPtagOk q = true →
      ((∀ conn, tblFind q.srcGw s.fab.tx = some conn → conn.epoch ≠ q.epoch) → exec (.swAckReceive port ⟨o, q⟩) s = .next s) ∧
      ∀ conn, tblFind q.srcGw s.fab.tx = some conn → conn.epoch = q.epoch →
        let sacked (psn : Nat) : Prop := (psn + 2 ^ 32 - (q.cum + 1)) % 2 ^ 32 < 64 ∧ bitAt q.sack ((psn + 2 ^ 32 - (q.cum + 1)) % 2 ^ 32) = true
        ∃ t x kept, exec (.swAckReceive port ⟨o, q⟩) s = .next t ∧ tblFind q.srcGw t.fab.tx = some x ∧ x.epoch = conn.epoch ∧ x.psn = conn.psn ∧
          kept.Sublist conn.held ∧ (∀ h, h ∈ kept ↔ h ∈ conn.held ∧ psnBefore h.psn q.cum = false ∧ ¬ sacked h.psn) ∧
          x.held.map (fun h => h.psn) = kept.map (fun h => h.psn) ∧
          (q.sack = 0 → x.held = kept ∧ t.out = s.out) ∧
          (∀ h, kept = [h] → q.sack ≠ 0 → q.sack < 2 ^ 64 → (h.psn + 2 ^ 32 - q.cum) % 2 ^ 32 = 0 → h.tries < s.fld Reg.JT_SW Fld.JT_SW_RETRIES →
            ((∀ a, h.sackAt = some a → a + s.rtoNs ≤ now) → t.out = s.out ++ sent conn.port (s.dataPacket q.srcGw conn.epoch h.psn h.cells) 0 ∧
              x.held = [{ h with sent := now, tries := h.tries + 1, sackAt := some now }]) ∧
            (∀ a, h.sackAt = some a → now < a + s.rtoNs → t.out = s.out ∧ x.held = [h]))) ∧
    (∀ gw psn, ((∀ conn, tblFind gw s.fab.tx = some conn → conn.held.find? (fun h => h.psn == psn) = none) →
        exec (.rtoExpire gw psn) s = .next s) ∧
      ∀ conn h, tblFind gw s.fab.tx = some conn → conn.held.find? (fun h => h.psn == psn) = some h →
        (now < h.sent + s.rtoNs → exec (.rtoExpire gw psn) s = .next s) ∧
        (h.sent + s.rtoNs ≤ now → ∃ t x, exec (.rtoExpire gw psn) s = .next t ∧ tblFind gw t.fab.tx = some x ∧
          (h.tries < s.fld Reg.JT_SW Fld.JT_SW_RETRIES → t.out = s.out ++ sent conn.port (s.dataPacket gw conn.epoch h.psn h.cells) 0 ∧
            x.epoch = conn.epoch ∧ (conn.held = [h] → x.held = [{ h with sent := now, tries := h.tries + 1 }])) ∧
          (s.fld Reg.JT_SW Fld.JT_SW_RETRIES ≤ h.tries → x.held = [] ∧ x.psn = 0 ∧ x.epoch ≠ conn.epoch ∧
            Reports s t (0x3013 + conn.port / 4 * 0x100) Code.pathLost none (gw + conn.port * 2 ^ 16))))

/-- R295, R327: PAUSE is discarded and counted; a Neighbor Solicitation for the device's own address on a switched port in FORWARDING is
answered, any other is not. -/
def Sys2Proof.Claims.PauseIsCountedAndSolicitationAnswered : Prop :=
  ∀ (s : State) (port : Nat), s.live = true → port < 16 →
    let p := s.leadPort port
    (∃ t, exec (.pauseReceive port) s = .next t ∧ RegsBut s t [Reg.FP_CNT_FRAME port] ∧
      t.fld (Reg.FP_CNT_FRAME port) Fld.FP_CNT_FRAME_PAUSE_RX =
        (s.fld (Reg.FP_CNT_FRAME port) Fld.FP_CNT_FRAME_PAUSE_RX + 1) % 2 ^ Fld.FP_CNT_FRAME_PAUSE_RX.w) ∧
    ∀ target, ∃ t, exec (.neighborSolicitation port target) s = .next t ∧
      t.out = s.out ++ if target = s.ownAddress ∧ s.portRole p = 3 ∧ s.portStage p = 6 then [.advert p] else []

/-- R328, R329, R77, R334: PTP messages in the device's domain, straight over Ethernet on a torus or ring port and by UDP on a switched one, on
a port whose link is up: a peer-delay request on a torus or ring port is answered, at once in IDENTITY and in a slot in FORWARDING, and the answer
to the port's own request sets PDELAY. A Sync on the time input, with its Follow_Up when it takes two steps, is a sample corrected by
correction, peer delay, ASYM and residence time on such a port, and is relayed on every OUT port; on a switched time input it is kept and the
delay is asked for, and the delay answer is the sample, after which the device, when its time is valid, sends a Sync of its own on its OUT
ports. A sample before the epoch is counted as rejected; under another SRC none is taken. A switched OUT port answers a delay request. Other
messages, and an Announce, change nothing. (The sign of ASYM and the moment of the device's own Sync are the model's choice, log entry 18.) -/
def Sys2Proof.Claims.PtpMessagesSampleAndRelay : Prop :=
  ∀ (s : State) (port : Nat) (f : PtpFrame), s.live = true → port < 16 →
    let p := s.leadPort port
    let x := s.port p
    let direct := s.portRole p = 1 ∨ s.portRole p = 2
    let up := s.portStage p = 5 ∨ s.portStage p = 6
    let taken := up ∧ f.domain = s.fld Reg.FWD_CTRL Fld.FWD_CTRL_PTP_DOMAIN ∧ (f.udp = true ↔ ¬ direct)
    let input := s.timeInput = some p
    let idle := exec (.ptpEventMessage port f) s = .next s
    let done (P : State → Prop) : Prop := ∃ t, exec (.ptpEventMessage port f) s = .next t ∧ P t
    let queued (t : State) (b : CtlBody) : Prop := (t.port p).ctl = x.ctl ++ [⟨b, 0⟩] ∧ t.out = s.out
    let onOutputs (t : State) (b : CtlBody) (yes : Bool) : Prop := ∀ q, (t.port q).ctl = (s.port q).ctl ++
      if yes = true ∧ q ∈ s.timeOutputs then [⟨b, 0⟩] else []
    let sampled (t : State) (time16 : Int) : Prop :=
      (s.ftSrc ≠ 0 → t.tb = s.tb) ∧
      (s.ftSrc = 0 → time16 < (s.reg Reg.FT_EPOCH_TAI : Int) * 65536 → t.tb = s.tb ∧
        t.fld Reg.FT_COUNT Fld.FT_COUNT_SAMPLES_REJECTED = satAdd 16 (s.fld Reg.FT_COUNT Fld.FT_COUNT_SAMPLES_REJECTED) 1) ∧
      (s.ftSrc = 0 → (s.reg Reg.FT_EPOCH_TAI : Int) * 65536 ≤ time16 →
        SampleOutcome s t ((time16 / 65536).toNat - s.reg Reg.FT_EPOCH_TAI) 0)
    let told (tai : Nat) (corr : Int) (came : Nat) : Prop :=
      (¬ direct → s.portRole p = 3 → done fun t => queued t .delayReq ∧ (t.port p).ptp.syncAt = some ((tai * 65536 : Nat) + corr, came) ∧
        t.tb = s.tb) ∧
      (direct → done fun t =>
        let path : Int := corr + ((s.fld (Reg.FP_PTP p) Fld.FP_PTP_PDELAY * 4096 : Nat) : Int) +
          signedOf 16 (s.fld (Reg.FP_PTP p) Fld.FP_PTP_ASYM) * 4096
        sampled t ((tai * 65536 : Nat) + path + (s.stamp16 - came : Nat)) ∧ onOutputs t (.relay tai path came) true)
    (¬ taken ∨ f.body = .announce → idle) ∧
    (taken →
      (∀ r, f.body = .pdelayReq r →
        (direct → s.portStage p = 6 → done fun t => queued t (.pdelayResp r s.stamp16)) ∧
        (direct → s.portStage p = 5 → done fun t => t.ports = s.ports ∧
          t.out = s.out ++ [.ptpAnswer p false f.domain r s.stamp16 s.stamp16]) ∧
        (¬ direct → idle)) ∧
      (∀ turn, f.body = .pdelayResp turn →
        (∀ t1, x.ptp.pdelayAt = some t1 → direct → s.portStage p = 6 → done fun t => RegsBut s t [Reg.FP_PTP p] ∧
          (t.port p).ptp.pdelayAt = none ∧
          t.fld (Reg.FP_PTP p) Fld.FP_PTP_PDELAY = (s.stamp16 - t1 - turn) / 2 / 4096 % 2 ^ Fld.FP_PTP_PDELAY.w) ∧
        (x.ptp.pdelayAt = none ∨ ¬ direct ∨ s.portStage p ≠ 6 → idle)) ∧
      (∀ r, f.body = .delayReq r →
        let answers := s.timeRole p = 2 ∧ s.portStage p = 6 ∧ ¬ direct
        (answers → done fun t => queued t (.delayResp r s.stamp16)) ∧ (¬ answers → idle)) ∧
      (∀ tai corr twoStep, f.body = .sync tai corr twoStep →
        (¬ input → idle) ∧
        (input → twoStep = true → done fun t => (t.port p).ptp.await = some s.stamp16 ∧ t.tb = s.tb ∧ t.out = s.out) ∧
        (input → twoStep = false → told tai corr s.stamp16)) ∧
      (∀ tai corr, f.body = .followUp tai corr →
        (¬ input ∨ x.ptp.await = none → idle) ∧ (∀ came, input → x.ptp.await = some came → told tai corr came)) ∧
      (∀ tai corr, f.body = .delayResp tai corr →
        (¬ input ∨ direct ∨ x.ptp.syncAt = none ∨ x.ptp.delayAt = none → idle) ∧
        (∀ t1 t2 t3, input → ¬ direct → x.ptp.syncAt = some (t1, t2) → x.ptp.delayAt = some t3 → done fun t =>
          let there : Int := (t2 : Int) - t1
          let back : Int := (tai * 65536 : Nat) - corr - (t3 : Int)
          let ahead : Int := (there - back) / 2 - signedOf 16 (s.fld (Reg.FP_PTP p) Fld.FP_PTP_ASYM) * 4096
          sampled t ((s.stamp16 : Int) - ahead) ∧ onOutputs t .sync t.timeValid ∧
          (t.port p).ptp.syncAt = none ∧ (t.port p).ptp.delayAt = none)))
-- Loads, stores and atomics ------------------------------------------------------------------------------------------

/-- R335, R336, R343, R350, R353: an operation of a core to a fabric address that no node maps, or that is not aligned and whole, is reported
with ADDRESS_UNMAPPED; one that no window of the job's table passes is counted and reported with WINDOW_VIOLATION. Neither is injected: a load
or an atomic traps the core with the error value, and a store is remembered for the core's next FENCE. A core that does not stand at an
instruction, or has a push with FENCE still to take effect, issues nothing. (How a trap is entered is RISC-V's, log entry 5.) -/
def Sys2Proof.Claims.RefusedOperationsFailAtTheSource : Prop :=
  ∀ (s : State) (who : Requester) (k : Nat) (a : Word) (len rd ilen : Nat) (data : List Byte) (poison : Bool) (aop : Nat)
    (wide signed : Bool) (opnd swap : Word), s.live = true → coreKey who = some k → s.isFabric a.toNat = true →
    ∀ i q, (i, q) ∈ issues who a len rd ilen data poison aop wide signed opnd swap →
      let c := s.core k
      let failed (t : State) (code detail : Nat) : Prop := t.fab.inject = s.fab.inject ∧ t.fab.opens = s.fab.opens ∧ t.mem = s.mem ∧
        if q.op = Op.store then
          t.core k = { c with storeFail := some (c.storeFail.getD a.toNat) }.advance ilen ∧
            Reports s t (s.unitOf who) code (some a.toNat) detail
        else
          t.core k = (c.writeX rd errorValue).trap (if q.op = Op.load then 5 else 7) a.toNat ∧
            ReportsAtTrap s t k (s.unitOf who) code (some a.toNat) detail
      (s.mayIssue who = false → exec i s = .next s) ∧
      (s.mayIssue who = true → s.settled = true →
        (s.target a.toNat q.len = none ∨ q.aligned = false → ∃ t, exec i s = .next t ∧
          failed t Code.addressUnmapped (q.kind.code * 0x10000)) ∧
        (∀ g, s.target a.toNat q.len = some g → q.aligned = true → s.windowOk q g = false → ∃ t, exec i s = .next t ∧
          t.fld Reg.JT_CNT_MISC Fld.JT_CNT_MISC_WINDOW = (s.fld Reg.JT_CNT_MISC Fld.JT_CNT_MISC_WINDOW + 1) % 2 ^ 32 ∧
          failed t Code.windowViolation (g.node + q.kind.code * 2 ^ 16 + q.lenW * 2 ^ 24)))

/-- R335, R341, R343, R348, R350, R457: an operation of a core to another node that its window passes takes the lowest free entry of its port
die's outstanding table, is counted, and a cell with its operation, tag and offset waits for injection; a store retires at once, a load and an
atomic leave the core waiting. With no entry free the operation waits. From the drain point of a switch on it closes at once, lost and counted,
and no cell is injected. -/
def Sys2Proof.Claims.AcceptedOperationsBecomeCells : Prop :=
  ∀ (s : State) (who : Requester) (k : Nat) (a : Word) (len rd ilen : Nat) (data : List Byte) (poison : Bool) (aop : Nat)
    (wide signed : Bool) (opnd swap : Word), s.live = true → coreKey who = some k → s.mayIssue who = true → s.isFabric a.toNat = true →
    s.settled = true → ∀ i q, (i, q) ∈ issues who a len rd ilen data poison aop wide signed opnd swap →
      ∀ g, s.target a.toNat q.len = some g → q.aligned = true → s.windowOk q g = true → g.node ≠ s.node →
        let die := s.sourceDie g.node
        let isStore := q.op = Op.store
        ∃ t, exec i s = .next t ∧ t.mem = s.mem ∧
          (s.freeEntry die = none → t.fab.inject = s.fab.inject ∧ t.fab.opens = s.fab.opens ∧ t.regs = s.regs ∧
            t.core k = (if isStore then (s.core k).advance ilen else s.core k) ∧
            ∃ w, t.fab.waiting = [w] ∧ w.op.who = who ∧ w.op.op = q.op ∧ w.op.addr = a.toNat ∧ w.die = die) ∧
          (∀ j, s.freeEntry die = some j →
            let tag := die * 16384 + j
            (∀ x, x ≠ tag → tblFind x t.fab.opens = tblFind x s.fab.opens) ∧
            t.fld Reg.JT_CNT_ISSUED Fld.JT_CNT_ISSUED_ISSUED = (s.fld Reg.JT_CNT_ISSUED Fld.JT_CNT_ISSUED_ISSUED + 1) % 2 ^ 64 ∧
            (s.fab.stopJob ≠ none → t.fab.inject = s.fab.inject ∧ tblFind tag t.fab.opens = none ∧
              t.fld Reg.JT_CNT_LOST Fld.JT_CNT_LOST_LOST = (s.fld Reg.JT_CNT_LOST Fld.JT_CNT_LOST_LOST + 1) % 2 ^ 32 ∧
              t.core k = if isStore then { s.core k with storeFail := some ((s.core k).storeFail.getD a.toNat) }.advance ilen
                else ((s.core k).writeX rd errorValue).trap (if q.op = Op.load then 5 else 7) a.toNat) ∧
            (s.fab.stopJob = none →
              t.core k = (if isStore then (s.core k).advance ilen else s.core k) ∧
              (∃ c, t.fab.inject = pushCell (4 * die + c.cls) c s.fab.inject ∧ c.dest = g.node ∧ c.src = s.node ∧ c.op = q.op ∧
                c.cls = opClass q.op false ∧ c.tag = tag ∧ c.offset = g.off ∧ c.lenW = q.lenW ∧ c.injTime = s.injTime ∧ c.life = s.life ∧
                c.payload = q.data ∧ (q.op = Op.atomic → c.aop = aop ∧ c.aw = wide ∧ c.signed = signed)) ∧
              ∃ o, tblFind tag t.fab.opens = some o ∧ o.who = who ∧ o.op = q.op ∧ o.node = g.node ∧ o.addr = a.toNat ∧
                o.sink = q.sink ∧ o.t0 = s.clock.elapsedNs ∧ o.timed = true))

/-- R43, R355, R356: an operation of a core on local HBM is performed at once: a load returns the bytes stored there, a store of a word
writes it and no other byte, and an atomic (ATOMIC_ISSUE or an AMO instruction) leaves its result in the word and returns the old value. -/
def Sys2Proof.Claims.LocalOperationsAreDoneAtOnce : Prop :=
  ∀ (s : State) (who : Requester) (k : Nat) (a : Word), s.live = true → coreKey who = some k → s.mayIssue who = true →
    s.settled = true → a.toNat < hbmSize →
    (∀ len rd n, 0 < len → len ≤ 8 → a.toNat % 4096 + len ≤ 4096 → s.clean a.toNat len →
      ∃ t, exec (.loadIssue who false a len (.reg rd n)) s = .next t ∧ t.mem = s.mem ∧
        t.core k = ((s.core k).writeX rd (leNat (memBytes s.mem a.toNat len))).advance n) ∧
    (∀ data n, data.length = 8 → a.toNat % 8 = 0 → s.clean a.toNat 8 →
      ∃ t, exec (.storeIssue who false a 255 data false n) s = .next t ∧ t.core k = (s.core k).advance n ∧
        memBytes t.mem a.toNat 8 = data ∧ ∀ b, (b < a.toNat ∨ a.toNat + 8 ≤ b) → memByte t.mem b = memByte s.mem b) ∧
    (∀ (wide : Bool) rd,
      let len := if wide then 8 else 4
      a.toNat % len = 0 → s.clean a.toNat len →
      let done (t : State) (n : Nat) : Prop :=
        t.core k = ((s.core k).writeX rd (atomicRead wide (memNat s.mem a.toNat len))).advance n
      (∀ aop signed opnd swap n, aopOk aop len = true →
        ∃ t, exec (.atomicIssue who false a aop wide signed opnd swap (.reg rd n)) s = .next t ∧ done t n ∧
          AtomicAt s t a.toNat len aop signed opnd.toNat swap.toNat) ∧
      ∀ op rs1 rs2, (s.core k).readX rs1 = a.toNat →
        ∃ t, exec (.amo who op wide rd rs1 rs2) s = .next t ∧ done t 4 ∧
          AtomicAt s t a.toNat len (amoAop op).1 (amoAop op).2 ((s.core k).readX rs2 % 2 ^ 64) 0)

/-- R357, R352, R355, R350: a write of an atomic port's CTRL by a core that stands at an instruction, with no push with FENCE before it, issues
the atomic its registers describe; on local HBM, RESULT takes the old value and STATUS reads 0, and an operation the atomic unit does not
have, or an address that is not aligned, gives the error value and ADDRESS_UNMAPPED; one to another node is outstanding. While an atomic of
the port is outstanding, or a write waits, the write waits, and nothing is issued. -/
def Sys2Proof.Claims.AtomicPortIssuesOneAtATime : Prop :=
  ∀ (s : State) (n k : Nat) (v : Word), s.live = true → s.clusterPresent n = true → n < 32 → k < 4 →
    let i := 4 * n + k
    let a := s.reg (Reg.CL_ATOM_ADDR n k)
    let len := if v.getLsbD 4 then 8 else 4
    let aop := v.toNat % 16
    let opnd := s.reg (Reg.CL_ATOM_OPND n k)
    let swap := s.reg (Reg.CL_ATOM_SWAP n k)
    let row := Instr.clAtomCtrlWrite n k v
    let goes := s.mayIssue (.core n k) = true ∧ s.atomBusy i = false ∧ s.settled = true
    (s.mayIssue (.core n k) = false → exec row s = .next s) ∧
    (s.mayIssue (.core n k) = true → s.atomBusy i = true ∨ (s.core i).atomWait ≠ [] →
      ∃ t, exec row s = .next t ∧ t.fab = s.fab ∧ t.mem = s.mem ∧ t.regs = s.regs ∧
        t.core i = { s.core i with atomWait := (s.core i).atomWait ++ [v.toNat] }) ∧
    (goes → a < hbmSize → a % len = 0 → s.clean a len → aopOk aop len = true →
      ∃ t, exec row s = .next t ∧ t.reg (Reg.CL_ATOM_RESULT n k) = memNat s.mem a len ∧ t.reg (Reg.CL_ATOM_STATUS n k) = 0 ∧
        AtomicAt s t a len aop (v.getLsbD 5) opnd swap) ∧
    (goes → a < hbmSize → a % len ≠ 0 ∨ aopOk aop len = false →
      ∃ t, exec row s = .next t ∧ t.reg (Reg.CL_ATOM_RESULT n k) = 2 ^ 64 - 1 ∧
        t.reg (Reg.CL_ATOM_STATUS n k) = Code.addressUnmapped ∧ t.mem = s.mem) ∧
    (let q := (⟨.core n k, Op.atomic, false, a, len, 255, aop, v.getLsbD 5, false, false,
        leBytes 8 opnd ++ leBytes 8 swap, .atomPort⟩ : OpReq)
     ∀ g j, goes → s.isFabric a = true → s.target a len = some g → a % len = 0 → s.windowOk q g = true → g.node ≠ s.node →
      s.fab.stopJob = none → s.freeEntry (s.sourceDie g.node) = some j →
      ∃ t o, exec row s = .next t ∧ t.atomBusy i = true ∧ t.mem = s.mem ∧
        tblFind (s.sourceDie g.node * 16384 + j) t.fab.opens = some o ∧ o.sink = .atomPort ∧ o.node = g.node ∧
        t.reg (Reg.CL_ATOM_RESULT n k) = s.reg (Reg.CL_ATOM_RESULT n k))

/-- R349, R347: a cell is taken when it is at the head of a port die's ejection queues: the row of another operation, and an empty die, change
nothing. A malformed cell before it is discarded and counted, whichever row comes. -/
def Sys2Proof.Claims.RequestsAreServedInTheirTurn : Prop :=
  ∀ (s : State) (d : Nat), s.live = true → d < 4 →
    let rows := [(Op.load, Instr.load d), (Op.store, .store d), (Op.loadRsp, .loadRsp d), (Op.atomicRsp, .atomicRsp d), (Op.ack, .ack d)]
    (s.drainCell d = none → s.mg.tasks = [] → (∀ e ∈ rows, exec e.2 s = .next s) ∧ ∀ e ∈ atomicRows d, exec e.2 s = .next s) ∧
    (∀ c, s.heads d c → s.mg.tasks = [] → (∀ e ∈ rows, c.op ≠ e.1 → exec e.2 s = .next s) ∧
      ∀ e ∈ atomicRows d, ¬ (c.op = Op.atomic ∧ c.aop = e.1) → exec e.2 s = .next s) ∧
    ∀ k c, k < 4 → s.fab.eject = [(4 * d + k, [c])] → cellFormOk c = false → s.mg.tasks = [] →
      ∀ i, i ∈ rows.map (fun e => e.2) ++ (atomicRows d).map (fun e => e.2) → ∃ t, exec i s = .next t ∧
        tblGetD (4 * d + k) [] t.fab.eject = [] ∧ t.mem = s.mem ∧ t.fab.inject = s.fab.inject ∧ t.fab.opens = s.fab.opens ∧
        t.fld Reg.JT_CNT_MISC Fld.JT_CNT_MISC_MALFORMED =
          (s.fld Reg.JT_CNT_MISC Fld.JT_CNT_MISC_MALFORMED + 1) % 2 ^ Fld.JT_CNT_MISC_MALFORMED.w

/-- R349, R347, R359: a LOAD served at its target is answered with the bytes stored there, under its tag and class; a STORE writes the enabled
bytes of a word, or all bytes of several, and no others, and its tag is gathered for an ACK, which leaves with the 64th; an ATOMIC leaves its
result in the word and is answered with the old value, for each of the ten operations. A request for an offset that nothing maps is counted as
malformed and refused, answered with ADDRESS_UNMAPPED and the error value, and nothing is written. A request that has expired is counted and
neither applied nor answered. (HBM words without errors; a store without poison.) -/
def Sys2Proof.Claims.RequestsAreServedAtTheirTarget : Prop :=
  ∀ (s : State) (d : Nat) (c : Cell), s.live = true → d < 4 → s.heads d c → c.cls < 4 → s.hg.swapDue = [] →
    let answered (t : State) (op status lenW : Nat) (payload : List Byte) : Prop := ∃ r : Cell,
      t.fab.inject = pushCell (4 * d + r.cls) r s.fab.inject ∧ r.dest = c.src ∧ r.src = s.node ∧ r.op = op ∧ r.status = status ∧
      r.tag = c.tag ∧ r.cls = (if c.cls = Cls.mgmt then Cls.mgmt else Cls.rsp) ∧ r.lenW = lenW ∧ r.payload = payload
    let key := ackKey d (c.cls == Cls.mgmt) c.src
    let g := tblGetD key ⟨[], s.clock.elapsedNs⟩ s.fab.acks
    let gathered (t : State) (status : Nat) : Prop :=
      (g.entries.length < 63 → t.fab.inject = s.fab.inject ∧
        tblFind key t.fab.acks = some { g with entries := g.entries ++ [(c.tag, status)] }) ∧
      (g.entries.length = 63 → c.src < 2 ^ 16 → tblFind key t.fab.acks = none ∧ ∃ r : Cell,
        t.fab.inject = pushCell (4 * d + r.cls) r s.fab.inject ∧ r.dest = c.src ∧ r.op = Op.ack ∧ r.offset = 64 ∧
        r.payload = ((g.entries ++ [(c.tag, status)]).map fun e => leBytes 4 (e.1 + e.2 * 2 ^ 16)).flatten)
    let len := if c.aw then 8 else 4
    let plus (t : State) (r : Nat) (f : BitField) : Prop := t.fld r f = (s.fld r f + 1) % 2 ^ f.w
    let bad := 2 ^ 64 - 1
    (s.expired c = true ↔ c.life ≠ 0 ∧ (s.timeValid = false ∨ c.life * 1000 ≤ (s.now % 2 ^ 48 + 2 ^ 48 - c.injTime) % 2 ^ 48)) ∧
    (s.expired c = true → ∀ i, (c.op = Op.load ∧ i = .load d) ∨ (c.op = Op.store ∧ i = .store d) ∨
        (c.op = Op.atomic ∧ (c.aop, i) ∈ atomicRows d) → ∃ t, exec i s = .next t ∧ t.mem = s.mem ∧ t.fab.inject = s.fab.inject ∧
      t.fab.acks = s.fab.acks ∧ plus t Reg.JT_CNT_TARGET Fld.JT_CNT_TARGET_EXPIRED) ∧
    (s.expired c = false → offsetOk c.offset = false →
      let refused (t : State) : Prop := t.mem = s.mem ∧ plus t Reg.JT_CNT_MISC Fld.JT_CNT_MISC_MALFORMED ∧
        plus t Reg.JT_CNT_TARGET Fld.JT_CNT_TARGET_REFUSED
      (c.op = Op.load → ∃ t, exec (.load d) s = .next t ∧ refused t ∧
        answered t Op.loadRsp Code.addressUnmapped c.lenW (List.replicate c.len 255)) ∧
      (c.op = Op.store → ∃ t, exec (.store d) s = .next t ∧ refused t ∧ gathered t Code.addressUnmapped) ∧
      (c.op = Op.atomic → ∀ i, (c.aop, i) ∈ atomicRows d → ∃ t, exec i s = .next t ∧ refused t ∧
        answered t Op.atomicRsp Code.addressUnmapped 0 (leBytes 8 bad))) ∧
    (s.expired c = false → c.offset + c.len ≤ hbmSize →
      (c.op = Op.load → s.clean c.offset c.len → ∃ t, exec (.load d) s = .next t ∧ t.mem = s.mem ∧
        answered t Op.loadRsp 0 c.lenW (memBytes s.mem c.offset c.len)) ∧
      (c.op = Op.store → c.poison = false → c.payload.length = 256 → s.clean c.offset c.len →
        ∃ t, exec (.store d) s = .next t ∧ gathered t 0 ∧
          (∀ i, i < c.len → memByte t.mem (c.offset + i) =
            if c.lenW ≠ 0 ∨ c.be.testBit i = true then c.payload.getD i 0 else memByte s.mem (c.offset + i)) ∧
          ∀ b, (b < c.offset ∨ c.offset + c.len ≤ b) → memByte t.mem b = memByte s.mem b) ∧
      (c.op = Op.atomic → s.clean c.offset len → ∀ i, (c.aop, i) ∈ atomicRows d → ∃ t, exec i s = .next t ∧
        AtomicAt s t c.offset len c.aop c.signed (leNat (c.payload.take 8)) (leNat (sliceOf c.payload 8 8)) ∧
        answered t Op.atomicRsp 0 0 (leBytes 8 (memNat s.mem c.offset len))))

/-- R339, R350, R351, R361: an answer closes the entry of its tag. With status OK a load's or atomic's value enters the core's register; with
another status the core takes its access fault with the error value, and a status that is no TARGET_LOST is recorded with REMOTE_REFUSED, once
per requester and node in a counter window. An answer without an entry of its operation and node is counted and reaches no core. An ACK closes
every store it names; a core whose store failed remembers the first one's address. -/
def Sys2Proof.Claims.AnswersCloseTheirEntry : Prop :=
  ∀ (s : State) (d k : Nat) (c : Cell), s.live = true → d < 4 → s.heads d c → s.settled = true → (s.core k).fencing = false →
    (∀ op i, (op, i) ∈ [(Op.load, Instr.loadRsp d), (Op.atomic, .atomicRsp d)] →
      c.op = (if op = Op.load then Op.loadRsp else Op.atomicRsp) →
      (∀ o rd n, tblFind c.tag s.fab.opens = some o → o.op = op → o.node = c.src → coreKey o.who = some k → o.sink = .reg rd n →
        ∃ t, exec i s = .next t ∧ tblFind c.tag t.fab.opens = none ∧ (∀ x, x ≠ c.tag → tblFind x t.fab.opens = tblFind x s.fab.opens) ∧
          (c.status = 0 → Silent s t ∧ t.core k = ((s.core k).writeX rd (
            if op = Op.load then leNat ((c.payload.take c.len).take 8) else atomicRead o.width8 (leNat (c.payload.take 8)))).advance n) ∧
          (c.status ≠ 0 → t.core k = ((s.core k).writeX rd errorValue).trap (if op = Op.load then 5 else 7) o.addr) ∧
          (c.status ≠ 0 → c.status ≠ Code.targetLost → limitKey Code.remoteRefused (s.unitOf o.who) c.src ∉ s.flt.limits →
            ReportsAtTrap s t k (s.unitOf o.who) Code.remoteRefused none (c.src + c.status * 2 ^ 16 + c.tag * 2 ^ 24))) ∧
      ((∀ o, tblFind c.tag s.fab.opens = some o → o.op ≠ op ∨ o.node ≠ c.src) →
        ∃ t, exec i s = .next t ∧ t.fab.opens = s.fab.opens ∧ t.cores = s.cores ∧
          t.fld Reg.JT_CNT_LOST Fld.JT_CNT_LOST_LATE_RSP = (s.fld Reg.JT_CNT_LOST Fld.JT_CNT_LOST_LATE_RSP + 1) % 2 ^ 32)) ∧
    (c.op = Op.ack →
      let e (j : Nat) : Nat := leNat (sliceOf c.payload (4 * j) 4)
      let tag (j : Nat) : Nat := e j % 2 ^ 16
      ((∀ x ∈ s.fab.opens, x.2.op = Op.store → x.2.sink = .none) → ∃ t, exec (.ack d) s = .next t ∧
        (∀ j o, j < c.offset % 128 → tblFind (tag j) s.fab.opens = some o → o.op = Op.store → o.node = c.src →
          tblFind (tag j) t.fab.opens = none) ∧
        ∀ x, (∀ j, j < c.offset % 128 → tag j ≠ x) → tblFind x t.fab.opens = tblFind x s.fab.opens) ∧
      ∀ o, c.offset % 128 = 1 → tblFind (tag 0) s.fab.opens = some o → o.op = Op.store → o.node = c.src → coreKey o.who = some k →
        o.sink = .none → ∃ t, exec (.ack d) s = .next t ∧ tblFind (tag 0) t.fab.opens = none ∧
          (bitsOf (e 0) 16 8 = 0 → t.core k = s.core k ∧ Silent s t) ∧
          (bitsOf (e 0) 16 8 ≠ 0 → t.core k = { s.core k with storeFail := some ((s.core k).storeFail.getD o.addr) }))

/-- R349, R339: the ACK gathered for a source, in its class, leaves ACK_DELAY after its first entry, with as many entries as were gathered;
before that, and with none gathered, nothing changes. -/
def Sys2Proof.Claims.AckLeavesAfterItsDelay : Prop :=
  ∀ (s : State) (d src : Nat) (m : Bool), s.live = true → d < 4 → src < 2 ^ 16 →
    tblFind (ackKey d (!m) src) s.fab.acks = none →
    (tblFind (ackKey d m src) s.fab.acks = none → exec (.ackDelayExpire d src) s = .next s) ∧
    ∀ g, tblFind (ackKey d m src) s.fab.acks = some g →
      (s.clock.elapsedNs < g.since + s.fld Reg.JT_CTRL Fld.JT_CTRL_ACK_DELAY → exec (.ackDelayExpire d src) s = .next s) ∧
      (g.since + s.fld Reg.JT_CTRL Fld.JT_CTRL_ACK_DELAY ≤ s.clock.elapsedNs →
        ∃ t r, exec (.ackDelayExpire d src) s = .next t ∧ tblFind (ackKey d m src) t.fab.acks = none ∧
          t.fab.inject = pushCell (4 * d + r.cls) r s.fab.inject ∧ r.dest = src ∧ r.op = Op.ack ∧
          r.cls = (if m then Cls.mgmt else Cls.rsp) ∧ r.offset = g.entries.length ∧
          r.payload = (g.entries.map fun e => leBytes 4 (e.1 + e.2 * 2 ^ 16)).flatten)

/-- R358, R360, R75: an entry still open at T_dead, in elapsed time or, for a MGMT operation sent before fabric time was valid, in array cycles,
closes with TARGET_LOST: it is counted, a core's load or atomic takes its access fault with the error value, a store is remembered as failed,
and the tag is kept for a late answer. Before T_dead, and for a tag not open, nothing changes. (An entry of a DMA engine's load instead stores
error values on, which may open another.) -/
def Sys2Proof.Claims.TargetIsLostAtTDead : Prop :=
  ∀ (s : State) (tag : Nat), s.live = true → s.settled = true →
    (tblFind tag s.fab.opens = none → exec (.tDeadExpire tag) s = .next s) ∧
    (∀ o, tblFind tag s.fab.opens = some o →
      let dead := s.fld Reg.JT_CTRL Fld.JT_CTRL_T_DEAD
      let due := if o.timed then o.t0 + dead * 1000 ≤ s.clock.elapsedNs else o.t0 + dead * 2700 ≤ s.clock.cycles
      (¬ due → exec (.tDeadExpire tag) s = .next s) ∧
      (due → (∀ dst off, o.sink ≠ .dma dst off) → ∃ t, exec (.tDeadExpire tag) s = .next t ∧ tblFind tag t.fab.opens = none ∧
        tblFind tag t.fab.lost = some o ∧ (∀ x, x ≠ tag → tblFind x t.fab.opens = tblFind x s.fab.opens) ∧
        t.fld Reg.JT_CNT_LOST Fld.JT_CNT_LOST_LOST = (s.fld Reg.JT_CNT_LOST Fld.JT_CNT_LOST_LOST + 1) % 2 ^ 32 ∧
        ∀ k, coreKey o.who = some k → (s.core k).fencing = false →
          (∀ rd n, o.sink = .reg rd n →
            t.core k = ((s.core k).writeX rd errorValue).trap (if o.op = Op.load then 5 else 7) o.addr ∧
            (limitKey Code.targetLost (s.unitOf o.who) o.node ∉ s.flt.limits →
              ReportsAtTrap s t k (s.unitOf o.who) Code.targetLost none (o.node + tag * 2 ^ 16 + o.op * 2 ^ 32))) ∧
          (o.op = Op.store → o.sink = .none →
            t.core k = { s.core k with storeFail := some ((s.core k).storeFail.getD o.addr) })))
-- Collectives --------------------------------------------------------------------------------------------------------

/-- R374, R377, R378, R379, R380, R383: the words of a collective descriptor that a core stores are latched, and the collective takes effect when
its last word is stored. One that R378 refuses starts nothing: it is reported with COLLECTIVE_INVALID and its kind, which STATUS shows; a reserved
OP is refused under any of the five rows, and another row's OP is only latched. Any other sets BUSY, is counted, and holds the descriptor, the
group, the launch list, the mode of the lead cluster and the descriptor's hash; its deadline is LIMIT, or T_COL from now. -/
def Sys2Proof.Claims.LaunchIsCheckedAndStarts : Prop :=
  ∀ (s : State) (who : Requester) (off : Nat) (ws : List Nat), s.live = true →
    ∀ op i, (op, i) ∈ [(1, Instr.allReduce who off ws), (2, .reduceScatter who off ws), (3, .allGather who off ws), (4, .broadcast who off ws),
        (5, .barrier who off ws)] →
      (s.launchKey who = none ∨ off % 8 ≠ 0 ∨ ws = [] → exec i s = .next s) ∧
      ∀ key, s.launchKey who = some key → off % 8 = 0 → ws ≠ [] →
        let old := tblGetD key (List.replicate 8 0) s.col.latches
        let words := latchWords old (off / 8) ws
        let last := off / 8 < 8 ∧ 8 ≤ off / 8 + ws.length
        let d0 := ColDesc.ofWords words
        let d : ColDesc := { d0 with chunk := if d0.chunk = 0 then s.fld Reg.COL_CTRL Fld.COL_CTRL_CHUNK_LOG2 else d0.chunk }
        let mine := d.op = op ∨ d.op = 0 ∨ 5 < d.op
        (∀ j, j < old.length → nthD words j 0 =
          if off / 8 ≤ j ∧ j < off / 8 + ws.length then nthD ws (j - off / 8) 0 % 2 ^ 64 else nthD old j 0) ∧
        (¬ (last ∧ mine) → ∃ t, exec i s = .next t ∧ t.regs = s.regs ∧ Silent s t ∧
          t.col = { s.col with latches := tblSet key words s.col.latches }) ∧
        (last → mine →
          (∀ kind, s.launchRefusal who d = some kind → ∃ t, exec i s = .next t ∧ t.col = { s.col with latches := tblSet key words s.col.latches } ∧
            t.colBusy = s.colBusy ∧ t.fld Reg.COL_STATUS Fld.COL_STATUS_STATUS = Code.collectiveInvalid ∧ RegsBut s t [Reg.COL_STATUS] ∧
            Reports s t (s.unitOf who) Code.collectiveInvalid none (d.tag + kind * 2 ^ 16)) ∧
          (s.launchRefusal who d = none → ∃ t, exec i s = .next t ∧ t.colBusy = true ∧ RegsBut s t [Reg.COL_STATUS, Reg.COL_CNT] ∧
            t.fld Reg.COL_CNT Fld.COL_CNT_LAUNCHED =
              (s.fld Reg.COL_CNT Fld.COL_CNT_LAUNCHED + 1) % 2 ^ Fld.COL_CNT_LAUNCHED.w ∧
            t.col.list = s.launchList ∧ t.col.members = s.groupEntries.length ∧ t.col.own = s.ownSlots.headD 0 ∧ t.col.finished = [] ∧
            t.col.raised = none ∧ t.col.run.phase = .waiting ∧ t.col.run.hash = d.hash words s.groupEntries.length ∧
            t.col.run.canon = s.flag (Reg.CL_CTRL (s.launchList.headD 0)) Fld.CL_CTRL_CANON ∧
            (ColDesc.ofWords t.col.desc).op = op ∧ (ColDesc.ofWords t.col.desc).epoch = d.epoch ∧
            t.col.deadline = (if d.limit = 0 then s.now + s.fld Reg.COL_CTRL Fld.COL_CTRL_T_COL * 1000 else d.limit) ∧ Silent s t))

/-- R379, R390: once the running commands of every enabled cluster have retired and their queues are empty, and T_DEAD after a collective that
failed, the collective interrupt becomes pending on all their control cores, once; until then nothing changes. A running core of the launch
list that does not mask it, and waits on no load or store, takes it: it traps with cause 24 to its handler. (How a trap is entered is
RISC-V's, log entry 5.) -/
def Sys2Proof.Claims.CollectiveInterruptWaitsForQuiet : Prop :=
  ∀ s : State, s.live = true →
    let waits := ∃ f, s.sw.colFail = some f ∧ s.clock.elapsedNs < f + s.fld Reg.JT_CTRL Fld.JT_CTRL_T_DEAD * 1000
    let quiet := ∀ n, n < 32 → s.clusterPresent n = true → (s.cluster n).quiet = true
    let due := s.colBusy = true ∧ s.col.raised = none ∧ ¬ waits ∧ quiet
    let takes (i : Nat) : Bool := s.col.list.contains (i / 4) && s.coreRuns i && bitAt (s.core i).mie 24 && (s.core i).loads.isEmpty &&
      !s.storeHeld i && !s.col.run.cores.contains i
    (¬ due → exec .collectiveInterrupt s = .next s) ∧
    (due → s.col.list.Nodup → (∀ m, m ∈ s.col.list → m < 32) → ∃ t, exec .collectiveInterrupt s = .next t ∧
      t.col.raised = some s.clock.elapsedNs ∧ t.regs = s.regs ∧
      (∀ i, i ∈ t.col.run.cores ↔ i ∈ s.col.run.cores ∨ takes i = true) ∧
      ∀ n k, n < 32 → k < 4 →
        let c := s.core (4 * n + k)
        let r : CoreState := if s.clusterPresent n then { c with mip := c.mip ||| 2 ^ 24 } else c
        let v := c.mtvec
        t.core (4 * n + k) = if takes (4 * n + k) then
            { r.trap (2 ^ 63 + 24) 0 with pc := if v % 4 = 1 then (v / 4 * 4 + 96) % 2 ^ 64 else v / 4 * 4 }
          else r)

/-- R396, R397, R379: COL_FINISH of a cluster of the launch list is noted once; with the last one the collective completes: BUSY clears, STATUS,
SEQ, LAGGARD and COL_EPOCH show its outcome, the interrupt's pending bits clear, the cores that took it return, and an outcome other than OK is
counted and reported, one that is no outcome of a collective as poisoned. A completion item for a channel out of service is counted lost. Any
other write of COL_FINISH changes nothing. (No routing step waits for the end here.) -/
def Sys2Proof.Claims.LastFinishCompletesTheCollective : Prop :=
  ∀ (s : State) (n : Nat) (v : Word), s.live = true →
    let counts := s.colBusy = true ∧ s.clusterPresent n = true ∧ n ∈ s.col.list ∧ n ∉ s.col.finished
    let last := ∀ m, m ∈ s.col.list → m = n ∨ m ∈ s.col.finished
    let lead := if n = s.col.list.headD 0 then v.toNat else s.col.lead
    (¬ counts → exec (.colFinish n v) s = .next s) ∧
    (counts → ¬ last → ∃ t, exec (.colFinish n v) s = .next t ∧ t.regs = s.regs ∧ t.cores = s.cores ∧
      t.col = { s.col with finished := s.col.finished ++ [n], lead := lead }) ∧
    (counts → last → s.col.seals = [] → (∀ m, m ∈ s.col.list → m < 32) →
      let given := lead % 256
      let known := given = Code.ok ∨ given = Code.collectivePoisoned ∨ given = Code.deadlineMissed
      let status := if known then given else Code.collectivePoisoned
      let ch := s.fld Reg.COL_CTRL Fld.COL_CTRL_DONE_CHANNEL
      ∃ t, exec (.colFinish n v) s = .next t ∧ t.colBusy = false ∧ t.fld Reg.COL_STATUS Fld.COL_STATUS_STATUS = status ∧
        t.fld Reg.COL_STATUS Fld.COL_STATUS_SEQ = (s.fld Reg.COL_STATUS Fld.COL_STATUS_SEQ + 1) % 2 ^ 32 ∧
        t.fld Reg.COL_STATUS Fld.COL_STATUS_LAGGARD = bitsOf lead 8 8 ∧
        t.reg Reg.COL_EPOCH = (ColDesc.ofWords s.col.desc).epoch % 2 ^ 64 ∧
        t.col.raised = none ∧ t.col.finished = [] ∧ t.col.run = ColRun.reset ∧
        t.sw.colFail = (if status = Code.ok then none else some s.clock.elapsedNs) ∧
        (∀ m k, m ∈ s.col.list → k < 4 → bitAt (t.core (4 * m + k)).mip 24 = false) ∧
        (s.flag Reg.COL_CTRL Fld.COL_CTRL_DONE_EN = false →
          (s.col.run.cores.Nodup → ∀ i, i ∈ s.col.run.cores → (t.core i).pc = (s.core i).mepc ∧
            ((t.core i).machine = true ↔ bitsOf (s.core i).mstatus 11 2 = 3)) ∧
          (status = Code.ok → Silent s t ∧ t.fld Reg.COL_CNT Fld.COL_CNT_FAILED = s.fld Reg.COL_CNT Fld.COL_CNT_FAILED) ∧
          (status ≠ Code.ok → t.fld Reg.COL_CNT Fld.COL_CNT_FAILED =
              (s.fld Reg.COL_CNT Fld.COL_CNT_FAILED + 1) % 2 ^ Fld.COL_CNT_FAILED.w ∧
            Reports s t (s.clusterUnit (s.col.list.headD 0) 4) status none (s.colDetail given))) ∧
        (s.flag Reg.COL_CTRL Fld.COL_CTRL_DONE_EN = true → s.chanOn ch = false → (s.chan ch).held = [] → (∀ e, e ∈ s.cores → e.2.slcWait = []) →
          t.fld Reg.COL_CNT Fld.COL_CNT_DONE_LOST = satAdd Fld.COL_CNT_DONE_LOST.w (s.fld Reg.COL_CNT Fld.COL_CNT_DONE_LOST) 1))

/-- R393, R94: a collective whose deadline passes before every member's closing record is held completes with DEADLINE_MISSED, counted and
reported with the lowest missing slot, and its cores return; before its deadline, and with every record held, nothing changes. (No completion
item is asked for here, and no routing step waits for the end.) -/
def Sys2Proof.Claims.CollectiveDeadlineEndsIt : Prop :=
  ∀ s : State, s.live = true →
    let missing := (List.range s.col.members).filter fun i => !s.closingHeld i
    let due := s.colBusy = true ∧ s.timeValid = true ∧ s.col.deadline ≤ s.now ∧ missing ≠ []
    let low := missing.headD 0
    (¬ due → exec .collectiveDeadline s = .next s) ∧
    (due → s.col.seals = [] → s.flag Reg.COL_CTRL Fld.COL_CTRL_DONE_EN = false →
      ∃ t, exec .collectiveDeadline s = .next t ∧ t.colBusy = false ∧
        t.fld Reg.COL_STATUS Fld.COL_STATUS_STATUS = Code.deadlineMissed ∧
        t.fld Reg.COL_STATUS Fld.COL_STATUS_SEQ = (s.fld Reg.COL_STATUS Fld.COL_STATUS_SEQ + 1) % 2 ^ 32 ∧
        t.sw.colFail = some s.clock.elapsedNs ∧ t.col.raised = none ∧ t.col.run = ColRun.reset ∧
        t.fld Reg.COL_CNT Fld.COL_CNT_FAILED = (s.fld Reg.COL_CNT Fld.COL_CNT_FAILED + 1) % 2 ^ Fld.COL_CNT_FAILED.w ∧
        Reports s t (s.clusterUnit (s.col.list.headD 0) 4) Code.deadlineMissed none
          (low + s.fld (Reg.COL_GROUP low) Fld.COL_GROUP_NODE * 2 ^ 8 + missing.length % 256 * 2 ^ 24 +
            (ColDesc.ofWords s.col.desc).epoch % 2 ^ 28 * 2 ^ 32 + 2 ^ 60))

/-- R386, R388, R389: in the data phase of a collective, a chunk whose header has been stored stays with its sender until its ack word stands in
the ack line: RESULT 0 releases it, and RESULT 1 has it sent again with ATTEMPT one higher while attempts are left; after RESEND_MAX failed
attempts the verdict is poisoned with cause 1. Until its ack word stands there, nothing of the collective changes. (An idle step of the machine,
with this chunk alone on its way and none awaited; log entry 42.) -/
def Sys2Proof.Claims.ChunkStaysUntilAcknowledged : Prop :=
  ∀ (s : State) (x : ColSend), s.live = true → s.pending = [] → s.settled = true → s.colBusy = true → s.col.raised ≠ none →
    s.colReady = true → (∀ i, i ∈ s.colCores → s.takesCol i = false) → s.col.run.phase = .moving → s.col.run.cause = 0 →
    s.col.run.sends = [x] → x.stage = .header → x.moved = false → x.lost = false → s.colOpen (.colChunk x.peer x.t) = false →
    (∀ i, i < s.col.members → s.colExpects i ≤ (tblGetD i (0, none) s.col.run.took).1 ∧ s.closingPoisoned i = false) →
    let w := leNat (s.stageBytes (0x4000 + 64 * x.peer + 8 * (x.t % s.colDesc.depth)) 8)
    let acked := bitsOf w 0 32 = x.t ∧ bitsOf w 40 8 = x.attempt ∧ bitsOf w 48 16 = s.colSeq % 2 ^ 16
    let again := x.attempt + 1 < s.fld Reg.COL_CTRL Fld.COL_CTRL_RESEND_MAX
    ∃ t, step s = .next t ∧
      (¬ acked → t.col = s.col) ∧
      (acked → bitsOf w 32 8 ≠ 1 → t.col.run.sends = [] ∧ t.col.run.cause = 0 ∧ t.col.run.phase = .closing) ∧
      (acked → bitsOf w 32 8 = 1 → ¬ again → t.col.run.sends = [] ∧ t.col.run.cause = 1 ∧ t.col.run.phase = .closing) ∧
      (acked → bitsOf w 32 8 = 1 → again → x.src = none → x.poison = false → s.slotNode x.peer ≠ s.node → t.col.run.resends = s.col.run.resends + 1 ∧
        t.col.run.phase = .moving ∧ ∃ lost, t.col.run.sends = [{ x with attempt := x.attempt + 1, stage := .storing, again := true, lost := lost }])

/-- R387, R388: the fields of a chunk header and of an ack word stand where the tables have them. -/
def Sys2Proof.Claims.ChunkHeadersAndAcksAreLaidOut : Prop :=
  ∀ (s : State) (x : ColSend) (result : Nat),
    let h := s.chunkHeader x
    let w := ackWord x.t result x.attempt s.colSeq
    h.length = 64 ∧ leNat (sliceOf h 0 8) = (ColDesc.ofWords s.col.desc).epoch % 2 ^ 64 ∧ leNat (sliceOf h 8 4) = s.colSeq % 2 ^ 32 ∧
    leNat (sliceOf h 12 4) = x.t % 2 ^ 32 ∧ leNat (sliceOf h 16 4) = x.k % 2 ^ 32 ∧ leNat (sliceOf h 20 4) = x.data.length % 2 ^ 32 ∧
    leNat (sliceOf h 24 4) = crc32c x.data % 2 ^ 32 ∧ leNat (sliceOf h 28 1) = s.col.own % 2 ^ 8 ∧
    leNat (sliceOf h 29 1) = (x.phase + x.attempt % 16 * 16) % 2 ^ 8 ∧
    (x.t < 2 ^ 32 → result < 2 ^ 8 → x.attempt < 2 ^ 8 →
      bitsOf w 0 32 = x.t ∧ bitsOf w 32 8 = result ∧ bitsOf w 40 8 = x.attempt ∧ bitsOf w 48 16 = s.colSeq % 2 ^ 16)

/-- R381, R382, R237: the canonical sum of contributions splits them, in slot order, at the highest power of two below their number, sums both
parts so, and adds the two; the sum of one is that one. -/
def Sys2Proof.Claims.CanonicalSumIsTheFixedTree : Prop :=
  ∀ (dtype : Nat) (cs : List (List Byte)),
    (∀ c, cs = [c] → colSum dtype cs = c) ∧
    ∀ e, 2 ^ e < cs.length → cs.length ≤ 2 * 2 ^ e →
      colSum dtype cs = colAdd dtype (colSum dtype (cs.take (2 ^ e))) (colSum dtype (cs.drop (2 ^ e)))
-- Travo Link, rings and requests -------------------------------------------------------------------------------------

/-- R404 to R406: a flit with a bad CRC is answered with a NAK and counted, and the ninth in a row takes the link down; a good one frees what its
ACK names from the replay buffer, the next in order advances the receive sequence number, a message the companion may not send is counted,
and a NAK has every flit still held sent again, counted, until eight replays in a row have freed nothing, when the link goes down. While the
link is down nothing is received. -/
def Sys2Proof.Claims.FlitsAreAcknowledgedAndReplayed : Prop :=
  ∀ (s : State) (msg seq ack : Nat) (nak : Bool), s.live = true →
    let kept := s.tl.sent.filter fun e => !decide ((ack + 4096 - e.1) % 4096 < 2048)
    let freed := kept.length < s.tl.sent.length
    let good := exec (.travoFlitReceive msg seq ack nak true) s
    (s.travoUp = false → ∀ ok, exec (.travoFlitReceive msg seq ack nak ok) s = .next s) ∧
    (s.travoUp = true →
      (∃ t, exec (.travoFlitReceive msg seq ack nak false) s = .next t ∧
        (s.tl.rxFails < 8 → t.out = s.out ++ [.travoNak s.tl.rxSeq] ∧ t.tl = { s.tl with rxFails := s.tl.rxFails + 1 }) ∧
        (8 ≤ s.tl.rxFails → t.travoUp = false)) ∧
      (∃ t, good = .next t ∧
        t.fld Reg.TL_CNT_LINK Fld.TL_CNT_LINK_MALFORMED = (s.fld Reg.TL_CNT_LINK Fld.TL_CNT_LINK_MALFORMED +
          if travoInbound msg then 0 else 1) % 2 ^ Fld.TL_CNT_LINK_MALFORMED.w ∧
        (nak = false ∨ freed ∨ s.tl.txFails < 8 → t.tl.sent = kept ∧ t.tl.rxFails = 0 ∧ t.travoUp = true ∧
          t.tl.rxSeq = (if seq % 4096 = (s.tl.rxSeq + 1) % 4096 then seq % 4096 else s.tl.rxSeq)) ∧
        (nak = false → t.out = s.out) ∧
        (nak = true → freed ∨ s.tl.txFails < 8 → t.out = s.out ++ (kept.map fun e => .travo e.2 e.1) ∧
          t.fld Reg.TL_CNT_LINK Fld.TL_CNT_LINK_REPLAYS =
            (s.fld Reg.TL_CNT_LINK Fld.TL_CNT_LINK_REPLAYS + kept.length) % 2 ^ Fld.TL_CNT_LINK_REPLAYS.w) ∧
        (nak = true → ¬ freed → 8 ≤ s.tl.txFails → t.travoUp = false)))

/-- R405, R408: a snoop is answered, with the line's data when it is dirty; SNP_SHARED leaves a held line shared and clean, SNP_INV drops it, and a
write that waits for the line asks for it again. While the link is down neither has an effect. -/
def Sys2Proof.Claims.SnoopsAreAnswered : Prop :=
  ∀ (s : State) (txn line : Nat), s.live = true →
    (s.travoUp = false → exec (.snpShared txn line) s = .next s ∧ exec (.snpInv txn line) s = .next s) ∧
    (s.travoUp = true →
      let dirty := ∃ h, tblFind line s.tl.lines = some h ∧ h.dirty = true
      let answered (t : State) (more : Bool) : Prop := ∃ (f : TravoFlit) (rest : List Output),
        t.out = s.out ++ .travo f ((s.tl.txSeq + 1) % 4096) :: rest ∧ (more = false → rest = []) ∧
        f.msg = 0x0A ∧ f.txn = txn % 4096 ∧ f.addr = line * 128 ∧
        (dirty → f.payload = memBytes s.tl.cmem (line * 128) 128) ∧ (¬ dirty → f.payload = [])
      (∃ t, exec (.snpShared txn line) s = .next t ∧ answered t false ∧ t.tl.cmem = s.tl.cmem ∧ t.tl.writes = s.tl.writes ∧
        (s.lineHeld line = true → tblFind line t.tl.lines = some ⟨false, false⟩) ∧
        (s.lineHeld line = false → t.tl.lines = s.tl.lines)) ∧
      ∃ t, exec (.snpInv txn line) s = .next t ∧ answered t (!s.tl.writes.isEmpty) ∧ tblFind line t.tl.lines = none ∧
        (s.tl.writes = [] → t.tl.cmem = s.tl.cmem) ∧
        ∀ w, w ∈ s.tl.writes → w.addr / 128 = line → w ∈ t.tl.writes ∧ ∃ q, q ∈ t.tl.lineReqs ∧ q.line = line ∧ q.own = true)

/-- R403, R405, R407, R408: an answer with an unknown tag changes nothing. LINE stores the line's data, the line is held, and an engine read that
waited for it completes, POISONED when the line is; GRANT makes the line owned and a write that waited for it is performed. An agent without
room writes its oldest line back when that is dirty, and drops it otherwise. (Here at most one read or write waits.) -/
def Sys2Proof.Claims.LineAnswersCompleteWhatWaits : Prop :=
  ∀ (s : State) (txn : Nat) (data : List Byte) (poison : Bool), s.live = true → data.length = 128 →
    let asked := s.tl.lineReqs.find? fun q => q.txn == txn % 4096
    (s.travoUp = false ∨ asked = none → exec (.line txn poison data) s = .next s ∧ exec (.grant txn) s = .next s) ∧
    (∀ q, s.travoUp = true → asked = some q →
      let held := tblFind q.line s.tl.lines
      let dirty := match held with | some h => h.dirty | none => false
      let room := held ≠ none ∨ s.tl.lines.length < lineCapacity
      (∀ l h rest, ¬ room → s.tl.lines = (l, h) :: rest → s.tl.writes = [] → s.tl.reads = [] →
        ∃ t, exec (.grant txn) s = .next t ∧ tblFind q.line t.tl.lines = some ⟨true, false⟩ ∧ t.tl.lines.length ≤ s.tl.lines.length ∧
          Sends s t (if h.dirty then ⟨0x04, false, s.tl.nextTxn, 0, 0, l * 128, 0, memBytes s.tl.cmem (l * 128) 128⟩
            else ⟨0x05, false, s.tl.nextTxn, 0, 0, l * 128, 0, []⟩)) ∧
      (room → s.tl.writes = [] → s.tl.reads = [] →
        (∃ t, exec (.line txn poison data) s = .next t ∧ memBytes t.tl.cmem (q.line * 128) 128 = data ∧ t.out = s.out ∧
          tblFind q.line t.tl.lines = some ⟨q.own, dirty⟩ ∧ q ∉ t.tl.lineReqs) ∧
        ∃ t, exec (.grant txn) s = .next t ∧ t.tl.cmem = s.tl.cmem ∧ t.out = s.out ∧
          tblFind q.line t.tl.lines = some ⟨true, dirty⟩ ∧ q ∉ t.tl.lineReqs) ∧
      (room → s.tl.writes = [] → ∀ who k a rd n, s.tl.reads = [⟨who, a, 8, .reg rd n⟩] → coreKey who = some k → (s.core k).fencing = false →
        a % 8 = 0 → a / 128 = q.line →
        ∃ t, exec (.line txn poison data) s = .next t ∧ memBytes t.tl.cmem (q.line * 128) 128 = data ∧ t.tl.reads = [] ∧
          tblFind q.line t.tl.lines = some ⟨q.own, dirty⟩ ∧ t.core k =
            if poison then ((s.core k).writeX rd errorValue).trap 5 (companionBase + a)
            else ((s.core k).writeX rd (leNat (sliceOf data (a % 128) 8))).advance n) ∧
      (room → s.tl.reads = [] → ∀ w, s.tl.writes = [w] → w.addr / 128 = q.line → 0 < w.data.length → w.addr % 128 + w.data.length ≤ 128 →
        ∃ t, exec (.grant txn) s = .next t ∧ t.tl.writes = [] ∧ tblFind q.line t.tl.lines = some ⟨true, true⟩ ∧
          memBytes t.tl.cmem w.addr w.data.length = w.data))

/-- R403, R405, R407, R412: an uncached read of 8 or 16 bytes of set-up space is answered with what the registers read as, one whose register word
is bad with POISON and UNCORRECTABLE, one of a doorbell page with the ring's pointers at DB_STATE and zeros elsewhere, and one of another
address with ADDRESS_UNMAPPED, which is reported. No register changes. (A 16-byte read of the polling window is POLL's.) -/
def Sys2Proof.Claims.UncachedReadsAreAnswered : Prop :=
  ∀ (s : State) (txn size : Nat) (a : Word) (bad : Bool), s.live = true → s.travoUp = true →
    let n := if size = 4 then 16 else 8
    let o := (a.toNat - doorbellBase) % 4096
    let r := (a.toNat - doorbellBase) / 4096
    let flit (status : Nat) (poison : Bool) (data : List Byte) : TravoFlit :=
      ⟨0x1A, poison, txn % 4096, status, if size = 4 then 4 else 3, a.toNat, 0, data⟩
    let answers (f : TravoFlit) : Prop := ∃ t, exec (.ucRd txn a size bad) s = .next t ∧ t.regs = s.regs ∧ Silent s t ∧ Sends s t f
    ((regDescAt (a.toNat - setupBase)).map RegDesc.width4 ≠ some true → s.ucWord a.toNat = s.setupReadAt a.toNat) ∧
    (inSetup a.toNat = true →
      (bad = false → answers (flit 0 false (if size = 4 then leBytes 8 (s.ucWord a.toNat) ++ leBytes 8 (s.ucWord (a.toNat + 8))
        else leBytes 8 (s.ucWord a.toNat)))) ∧
      (bad = true → answers (flit Code.uncorrectable true (List.replicate n 0)))) ∧
    (inDoorbell a.toNat = true →
      (s.safeState = true → answers (flit 0 false (List.replicate n 0))) ∧
      (s.safeState = false → bad = true → answers (flit Code.uncorrectable true (List.replicate n 0))) ∧
      (s.safeState = false → bad = false → o = 0x10 → size ≠ 4 →
        answers (flit 0 false (leBytes 8 ((s.ring r).head + (s.ring r).tail * 2 ^ 32)))) ∧
      (s.safeState = false → bad = false → ¬ (o = 0x10 ∧ size ≠ 4) → ¬ (o = 0x100 ∧ size = 4) →
        answers (flit 0 false (List.replicate n 0)))) ∧
    (inSetup a.toNat = false → inDoorbell a.toNat = false →
      ∃ t, exec (.ucRd txn a size bad) s = .next t ∧ t.regs = s.regs ∧ Sends s t (flit Code.addressUnmapped false (List.replicate n 0)) ∧
        Reports s t 0x5001 Code.addressUnmapped (some a.toNat) 0)

/-- R403, R405, R412: an uncached write of a whole 64-bit register is the set-up write from Travo Link, one of 16 bytes two of them, the lower
address first, acknowledged with UC_ACK; a write of part of a register leaves it as it was and is acknowledged. A whole 8-byte write of a
doorbell is that doorbell's; any other on a doorbell page, and one in the safe state, changes nothing. One to an unmapped address is
reported and acknowledged with ADDRESS_UNMAPPED. (Registers of 32 bits, two to 8 bytes, take theirs likewise.) -/
def Sys2Proof.Claims.UncachedWritesAreAcknowledged : Prop :=
  ∀ (s : State) (txn size be : Nat) (a : Word) (data : List Byte), s.live = true → s.travoUp = true →
    let row := Instr.ucWr txn a size be data [] []
    let flit (status : Nat) : TravoFlit := ⟨0x1B, false, txn % 4096, status, size, a.toNat, 0, []⟩
    let wide (x : Nat) : Prop := (regDescAt (x - setupBase)).map RegDesc.width4 ≠ some true
    let lo : Word := BitVec.ofNat 64 (leNat (sliceOf data 0 8))
    let hi : Word := BitVec.ofNat 64 (leNat (sliceOf data 8 8))
    let quiet := ∃ t, exec row s = .next t ∧ t.regs = s.regs ∧ Silent s t ∧ Sends s t (flit 0)
    let after (u : State) : Prop := u.travoUp = true → ∃ t, exec row s = .next t ∧ t.regs = u.regs ∧ t.flt = u.flt ∧ Sends u t (flit 0)
    (inSetup a.toNat = true → wide a.toNat →
      (size ≠ 4 → be % 256 = 255 → ∀ u, exec (.setupWrite .travo a lo) s = .next u → after u) ∧
      (size ≠ 4 → be % 256 ≠ 255 → quiet) ∧
      (size = 4 → wide (a.toNat + 8) → a.toNat + 8 < 2 ^ 64 →
        (be % 65536 = 65535 → ∀ u v, exec (.setupWrite .travo a lo) s = .next u → u.live = true →
          exec (.setupWrite .travo (a + 8) hi) u = .next v → after v) ∧
        (be % 256 ≠ 255 → be / 256 % 256 ≠ 255 → quiet))) ∧
    (inDoorbell a.toNat = true →
      let o := (a.toNat - doorbellBase) % 4096
      let r := (a.toNat - doorbellBase) / 4096
      let whole := size = 3 ∧ be % 256 = 255 ∧ s.safeState = false
      (¬ whole ∨ (o ≠ 0 ∧ o ≠ 8) → quiet) ∧
      (whole → o = 0 → ∀ u, exec (.dbTail r lo.toNat) s = .next u → after u) ∧
      (whole → o = 8 → ∀ u, exec (.dbHead r lo.toNat) s = .next u → after u)) ∧
    (inSetup a.toNat = false → inDoorbell a.toNat = false →
      ∃ t, exec row s = .next t ∧ t.regs = s.regs ∧ Sends s t (flit Code.addressUnmapped) ∧
        Reports s t 0x5001 Code.addressUnmapped (some a.toNat) 0x10000)

/-- R410, R413: a descriptor word of a ring that is off is stored field by field, and setting ENABLE starts the ring empty; a write to a ring
that is on is taken when it only clears ENABLE, and any other is refused with RING_INVALID of kind 0 and changes nothing. -/
def Sys2Proof.Claims.RingStartsEmptyOrIsRefused : Prop :=
  ∀ (s : State) (src : Source) (r w : Nat) (v : Word) (d : RegDesc), s.live = true → s.hears src = true → r < 16384 → w < 3 →
    regDescAt (Reg.TL_RING0 r + 8 * w) = some d → d.src.accepts src = true →
    let a := Reg.TL_RING0 r + 8 * w
    let clears := w = 0 ∧ v.toNat &&& 0x03FFFFFF01FF01FF = s.reg a - 1
    (s.ringOn r = false → ∃ t, exec (.tlRingWrite src r w v) s = .next t ∧ RegsBut s t [a] ∧ Silent s t ∧
      (∀ f ∈ d.fields, bitsOf (t.reg a) f.lo f.w = fieldAfter s.lock f (bitsOf (s.reg a) f.lo f.w) (bitsOf v.toNat f.lo f.w)) ∧
      (if w = 0 ∧ v.getLsbD 0 = true then t.ring r = ⟨0, 0, 0, []⟩ else t.ring r = s.ring r) ∧ ∀ x, x ≠ r → t.ring x = s.ring x) ∧
    (s.ringOn r = true → clears → ∃ t, exec (.tlRingWrite src r w v) s = .next t ∧ RegsBut s t [a] ∧ Silent s t ∧ t.ringOn r = false ∧
      t.tl = s.tl) ∧
    (s.ringOn r = true → ¬ clears → ∃ t, exec (.tlRingWrite src r w v) s = .next t ∧ t.regs = s.regs ∧ t.tl = s.tl ∧
      Reports s t 0x5001 Code.ringInvalid none (r + v.toNat % 2 ^ 32 * 2 ^ 18))

/-- R412, R413, R511: DB_TAIL of a submission ring takes a tail that does not fall behind and fits the ring; DB_HEAD of a ring the host reads takes a
head within what has been written. Any other is refused with RING_INVALID: kind 3 for a ring that is off, 2 for the wrong kind of ring, 1 for a
value out of range. In the safe state, and past the last ring, a doorbell does nothing. -/
def Sys2Proof.Claims.DoorbellsMoveTheirPointer : Prop :=
  ∀ (s : State) (r value : Nat), s.live = true →
    let v := value % 2 ^ 32
    let x := s.ring r
    let refused (i : Instr) (kind : Nat) : Prop := ∃ t, exec i s = .next t ∧ t.tl = s.tl ∧
      Reports s t 0x5001 Code.ringInvalid none (r + kind * 2 ^ 14 + v * 2 ^ 18)
    (s.safeState = true ∨ 16384 ≤ r → exec (.dbTail r value) s = .next s ∧ exec (.dbHead r value) s = .next s) ∧
    (s.safeState = false → r < 16384 →
      (s.ringOn r = false → refused (.dbTail r value) 3 ∧ refused (.dbHead r value) 3) ∧
      (s.ringOn r = true → s.ringKind r ≠ 1 → refused (.dbTail r value) 2) ∧
      (s.ringOn r = true → s.ringKind r < 2 ∨ 5 < s.ringKind r → refused (.dbHead r value) 2) ∧
      (s.ringOn r = true → s.ringKind r = 1 →
        let fits := (v + 2 ^ 32 - x.tail) % 2 ^ 32 < 2 ^ 31 ∧ (v + 2 ^ 32 - x.head) % 2 ^ 32 ≤ 2 ^ s.ringSizeLog r
        (fits → ∃ t, exec (.dbTail r value) s = .next t ∧ t.ring r = { x with tail := v } ∧ (∀ y, y ≠ r → t.ring y = s.ring y) ∧ Silent s t) ∧
        (¬ fits → refused (.dbTail r value) 1)) ∧
      (s.ringOn r = true → 2 ≤ s.ringKind r → s.ringKind r ≤ 5 →
        let fits := (v + 2 ^ 32 - x.head) % 2 ^ 32 ≤ (x.tail + 2 ^ 32 - x.head) % 2 ^ 32
        (fits → ∃ t, exec (.dbHead r value) s = .next t ∧ t.ring r = { x with head := v } ∧ (∀ y, y ≠ r → t.ring y = s.ring y) ∧ Silent s t) ∧
        (¬ fits → refused (.dbHead r value) 1)))

/-- R422, R511: a read of the polling window of a token ring returns its oldest entry with the flag that says so; zeros when the ring is empty, which
is counted; and a flag of its own when the entry is no longer held, which is counted too. The window of a ring that is off or of another kind
reads as zeros. It moves neither pointer. In the safe state nothing is answered here. -/
def Sys2Proof.Claims.PollReturnsTheOldestEntry : Prop :=
  ∀ (s : State) (txn r : Nat), s.live = true →
    let x := s.ring r
    let flit (data : List Byte) : TravoFlit := ⟨0x1A, false, txn % 4096, 0, 4, doorbellBase + r * 4096 + 0x100, 0, data⟩
    let token := r < 16384 ∧ s.ringOn r = true ∧ s.ringKind r = 3
    let entry := x.recent.find? fun e => e.1 == x.head
    let counts (t : State) (f : BitField) : Prop :=
      t.fld Reg.TL_CNT_POLL f = (s.fld Reg.TL_CNT_POLL f + 1) % 2 ^ f.w ∧ RegsBut s t [Reg.TL_CNT_POLL]
    (s.safeState = true → exec (.poll txn r) s = .next s) ∧
    (s.safeState = false → s.travoUp = true → ∃ t data, exec (.poll txn r) s = .next t ∧ Sends s t (flit data) ∧ t.tl.rings = s.tl.rings ∧
      (¬ token → data = List.replicate 16 0 ∧ t.regs = s.regs) ∧
      (token → x.head = x.tail → data = List.replicate 16 0 ∧ counts t Fld.TL_CNT_POLL_POLL_EMPTY) ∧
      (token → x.head ≠ x.tail → entry = none → data = List.replicate 4 0 ++ leBytes 4 (2 ^ 24) ++ List.replicate 8 0 ∧
        counts t Fld.TL_CNT_POLL_POLL_BEHIND) ∧
      (∀ e, token → x.head ≠ x.tail → entry = some e → e.2.length = 16 → t.regs = s.regs ∧ data.take 4 = e.2.take 4 ∧
        bytesAt data 4 4 = bytesAt e.2 4 4 % 2 ^ 23 + 2 ^ 23 ∧ data.drop 8 = e.2.drop 8))

/-- R413, R414, R417 to R419, R426, R438: the request at the head of the next ring is consumed under the row of its OP, a reserved OP or a descriptor
that reads bad under any: HEAD advances, and it is counted. One that an ABORT had marked commits ABORTED; one whose descriptor reads bad
commits UNCORRECTABLE; one that R418 refuses commits REQUEST_INVALID. Nothing is consumed while no job runs, the link is down, the engines
have stopped, the admission window is full, no ring has an entry to consume, or a CALL's channel is full. -/
def Sys2Proof.Claims.RequestsAreConsumedAndChecked : Prop :=
  ∀ (s : State) (d image : List Byte) (bad : Bool) (op : Nat) (i : Instr), s.live = true → d.length = 64 →
    (op, i) ∈ requestRows d bad image →
    let given := bytesAt d 0 1
    let mine := bad = true ∨ given = op ∨ given = 0 ∨ 6 < given
    let idle := s.job = none ∨ s.travoUp = false ∨ s.timeValid = false ∨ s.sw.stopped = true ∨ s.ecc.halted = true ∨ s.safeState = true
    (idle ∨ ¬ mine → exec i s = .next s) ∧
    (∀ j, ¬ idle → mine → s.job = some j →
      (s.windowFull j = true → ∃ t, exec i s = .next t ∧ t.regs = s.regs ∧
        t.tl = { s.tl with winStop := s.tl.winStop || s.jobHasEntries j }) ∧
      (s.windowFull j = false → s.nextRing j = none → exec i s = .next s)) ∧
    (∀ j r, s.mayConsume j r → mine →
      let tag := if bad then 0 else bytesAt d 4 4
      let marked := (tblFind (r * 2 ^ 32 + (s.ring r).head) s.tl.marked).isSome
      let held := bad = false ∧ given = 6 ∧ s.callHeld r = true
      (held → exec i s = .next s) ∧
      (¬ held → ∃ t, exec i s = .next t ∧ (t.ring r).head = ((s.ring r).head + 1) % 2 ^ 32 ∧ t.tl.lastRing = r ∧
        t.fld Reg.TL_CNT_REQ Fld.TL_CNT_REQ_CONSUMED =
          (s.fld Reg.TL_CNT_REQ Fld.TL_CNT_REQ_CONSUMED + 1) % 2 ^ Fld.TL_CNT_REQ_CONSUMED.w ∧
        (s.noneClosing →
          (marked = true → Completes s t r tag Code.aborted) ∧
          (marked = false → bad = true → Completes s t r tag Code.uncorrectable) ∧
          (∀ kind, marked = false → bad = false → s.sessionClean (bytesAt d 8 4 % 2 ^ 20) →
            s.requestFault j d (s.sessionEntry (bytesAt d 8 4 % 2 ^ 20)) = some kind → Completes s t r tag Code.requestInvalid))))

/-- R417, R427 to R429, R435, R9: what a consumed request that passes its checks does. PREFILL and GENERATE without a deadline enter the request
table, waiting, and their session becomes ACTIVE; one whose deadline has passed is late at admission where the ring says so; an ACTIVE session
is busy. SESSION_SET makes the image the session's entry, reserved bits zero; SESSION_CLOSE of a session without holder or pages clears VALID,
and waits for a running holder, which ends aborted; ABORT of an entry not yet written commits NOT_FOUND, marks one not yet consumed, ends a
waiting request, has a running one end aborted, and otherwise commits ALREADY_DONE; CALL waits for its return item. -/
def Sys2Proof.Claims.RequestsActByTheirOp : Prop :=
  ∀ (s : State) (d image : List Byte) (j r : Nat), s.live = true → d.length = 64 → image.length = 64 → s.mayConsume j r → s.noneClosing →
    tblFind (r * 2 ^ 32 + (s.ring r).head) s.tl.marked = none → (∀ p ∈ s.tl.requests, ¬ (p.ring = r ∧ p.ptr = (s.ring r).head)) →
    let id := bytesAt d 8 4 % 2 ^ 20
    let tag := bytesAt d 4 4
    let e := s.sessionEntry id
    let deadline := bytesAt d 16 8
    let mine (p : Request) (op : Nat) : Prop := p.ring = r ∧ p.ptr = (s.ring r).head ∧ p.job = j ∧ p.op = op ∧ p.session = id
    let ends (i : Instr) (status : Nat) : Prop := ∃ t, exec i s = .next t ∧ Completes s t r tag status
    s.sessionClean id → s.requestFault j d e = none →
    (∀ op i, (op, i) ∈ [(1, Instr.prefill d false), (2, .generate d false)] → bytesAt d 0 1 = op →
      (sessActive e = true → ends i Code.sessionBusy) ∧
      (sessActive e = false → deadline ≠ 0 → deadline ≤ s.now → s.flag (Reg.TL_RING0 r) Fld.TL_RING0_POLICY = false →
        ends i Code.lateAtAdmission) ∧
      (sessActive e = false → deadline = 0 → ∃ t p, exec i s = .next t ∧ t.tl.requests = s.tl.requests ++ [p] ∧ mine p op ∧
        p.stage = .waiting ∧ p.left = bytesAt d 12 4 ∧ p.accepted = s.tl.accepts ∧ sessActive (t.sessionEntry id) = true)) ∧
    (bytesAt d 0 1 = 3 → ends (.sessionSet d false image true) Code.uncorrectable ∧
      (sessValid e = true → sessActive e = true → ends (.sessionSet d false image false) Code.sessionBusy) ∧
      (sessValid e = false ∨ sessActive e = false → ∃ t, exec (.sessionSet d false image false) s = .next t ∧ Completes s t r tag 0 ∧
        let x := t.sessionEntry id
        bytesAt x 0 1 = 1 + 4 * (bytesAt image 0 1 / 4 % 2) ∧ sessJob x = j % 256 ∧ bytesAt x 2 1 = bytesAt image 2 1 % 16 ∧
        bytesAt x 3 1 = 0 ∧ bytesAt x 4 4 = bytesAt image 4 4 ∧ bytesAt x 8 8 = bytesAt image 8 8 % 2 ^ 40 ∧
        sliceOf x 16 18 = sliceOf image 16 18 ∧ bytesAt x 34 2 = bytesAt image 34 2 % 2 ^ 14 ∧ sliceOf x 36 20 = sliceOf image 36 20 ∧
        bytesAt x 56 8 = 0)) ∧
    (bytesAt d 0 1 = 4 →
      ((∀ p ∈ s.tl.requests, ¬ ((p.op = 1 ∨ p.op = 2) ∧ p.session = id)) → s.kvOf id = ([], []) →
        ∃ t, exec (.sessionClose d false) s = .next t ∧ Completes s t r tag 0 ∧ sessValid (t.sessionEntry id) = false) ∧
      ∀ h, s.tl.requests = [h] → h.stage = .running → h.op = 1 ∨ h.op = 2 → h.session = id →
        ∃ t p, exec (.sessionClose d false) s = .next t ∧ t.tl.requests = [{ h with ending := some Code.aborted }, p] ∧ mine p 4 ∧
          p.stage = .closing ∧ t.mem = s.mem) ∧
    (bytesAt d 0 1 = 5 →
      let tr := bytesAt d 48 2 % 2 ^ 14
      let p := bytesAt d 44 4
      let head := if tr = r then ((s.ring r).head + 1) % 2 ^ 32 else (s.ring tr).head
      let early := (p + 2 ^ 32 - (s.ring tr).tail) % 2 ^ 32 < 2 ^ 31
      let queued := (p + 2 ^ 32 - head) % 2 ^ 32 < ((s.ring tr).tail + 2 ^ 32 - head) % 2 ^ 32
      let marked := (tblFind (tr * 2 ^ 32 + p) s.tl.marked).isSome
      let found := s.tl.requests.find? fun q => q.ring == tr && q.ptr == p
      let row := Instr.abort d false
      (early → ∃ t, exec row s = .next t ∧ Completes s t r tag Code.notFound ∧ t.tl.requests = s.tl.requests) ∧
      (¬ early → found = none → queued → marked = false → ∃ t, exec row s = .next t ∧ Completes s t r tag 0 ∧
        (tblFind (tr * 2 ^ 32 + p) t.tl.marked).isSome = true) ∧
      (¬ early → found = none → ¬ queued ∨ marked = true → ends row Code.alreadyDone) ∧
      (∀ q, ¬ early → found = some q →
        (q.ending = some Code.aborted → ends row Code.alreadyDone) ∧
        (q.ending ≠ some Code.aborted → q.stage = .running → ∃ t, exec row s = .next t ∧ Completes s t r tag 0 ∧
          t.tl.requests = s.tl.requests.map fun x => if x.ring = tr ∧ x.ptr = p then { x with ending := some Code.aborted } else x) ∧
        (q.ending ≠ some Code.aborted → q.stage = .waiting → ∃ t, exec row s = .next t ∧
          ∀ x ∈ t.tl.requests, ¬ (x.ring = tr ∧ x.ptr = p)))) ∧
    (bytesAt d 0 1 = 6 → s.callHeld r = false →
      ∃ t p, exec (.call d false) s = .next t ∧ t.tl.requests = s.tl.requests ++ [p] ∧ mine p 6 ∧ p.stage = .calling)

/-- R417: a return item commits the CALL it names with the status it gives, and the CALL leaves the request table; one that names none, or is
poisoned, is counted. Without a running job or an item nothing is committed. -/
def Sys2Proof.Claims.ReturnItemCommitsItsCall : Prop :=
  ∀ (s s' : State) (item : Option (List Byte × Bool × Bool)), s.live = true →
    (s.job = none → exec .callReturn s = .next s) ∧
    ∀ j, s.job = some j → s.popNow tableUser (s.fld (Reg.TL_JOB j) Fld.TL_JOB_RET_CHANNEL) = (item, s') →
      ∃ t, exec .callReturn s = .next t ∧
        (item = none → t.tl = s'.tl ∧ t.regs = s'.regs) ∧
        (∀ b fin bad, item = some (b, fin, bad) →
          let mine (q : Request) : Bool := q.stage == .calling && q.job == j && q.tag == bytesAt b 0 4 &&
            q.ring == bytesAt b 4 2 % 2 ^ 14 && q.ptr == bytesAt b 8 4
          (bad = true ∨ s'.tl.requests.find? mine = none → t.tl = s'.tl ∧ t.fld Reg.TL_CNT_LINK Fld.TL_CNT_LINK_MALFORMED =
            (s'.fld Reg.TL_CNT_LINK Fld.TL_CNT_LINK_MALFORMED + 1) % 2 ^ Fld.TL_CNT_LINK_MALFORMED.w) ∧
          (∀ q, bad = false → s'.tl.requests.find? mine = some q → (∀ x ∈ t.tl.requests, ¬ (x.ring = q.ring ∧ x.ptr = q.ptr)) ∧
            (s'.noneClosing → Completes s' t q.ring q.tag (bytesAt b 12 1))))

/-- R417, R421, R431 to R435: at a step boundary a waiting request gets a slot and a grant number, and joins the next step when its session
has the pages it needs and the step channel has room; a GENERATE of the ended step takes its token, and with its last one its last step is
over; a waiting request whose deadline has passed commits DEADLINE_MISSED. (Here the job has that one request, a GENERATE whose session
streams nothing.) Without a running job, or with the engines stopped, nothing changes. -/
def Sys2Proof.Claims.StepBoundaryGrantsAndAdvances : Prop :=
  ∀ (s : State) (rs : List StepResult), s.live = true →
    (s.job = none ∨ s.sw.stopped = true → exec (.stepBoundary rs) s = .next s) ∧
    (∀ j q, s.job = some j → s.sw.stopped = false → s.tl.requests = [q] → q.job = j → q.op = 2 → q.stopped = false →
      q.ending = none → s.settled = true → s.sessionClean q.session → sessStream (s.sessionEntry q.session) = false →
      let late := s.timeValid = true ∧ q.deadline ≠ 0 ∧ q.deadline ≤ s.now ∧ bitAt q.flags 0 = false
      (q.stage = .waiting → q.inStep = false → late → q.tag < 2 ^ 32 → ∃ t, exec (.stepBoundary rs) s = .next t ∧ t.tl.requests = [] ∧
        Completes s t q.ring q.tag Code.deadlineMissed) ∧
      (q.stage = .waiting → q.inStep = false → ¬ late → 0 < s.slotsMax →
        sessPosition (s.sessionEntry q.session) + 1 ≤ 64 * (s.kvOf q.session).1.length →
        (s.chan (s.fld (Reg.TL_JOB j) Fld.TL_JOB_STEP_CHANNEL)).count <
          s.chanDepth (s.fld (Reg.TL_JOB j) Fld.TL_JOB_STEP_CHANNEL) →
        ∃ t, exec (.stepBoundary rs) s = .next t ∧
          t.tl.requests = [{ q with stage := .running, grant := tblGetD j 0 s.tl.grants, inStep := true }] ∧
          tblGetD j 0 t.tl.steps = tblGetD j 0 s.tl.steps + 1) ∧
      (∀ tok prob, q.stage = .running → q.inStep = true → q.left = 1 → rs = [⟨q.session, tok, prob⟩] →
        ∃ t, exec (.stepBoundary rs) s = .next t ∧
          t.tl.requests = [{ q with produced := q.produced + 1, left := 0, data := q.data ++ leBytes 4 tok, inStep := false,
                                    ending := some 0, stopped := true }]))

/-- R426, R435: the oldest request whose last step is over commits, with its own status, or DEADLINE_MISSED when its deadline has passed,
and leaves the request table; without one nothing changes. -/
def Sys2Proof.Claims.CommitEndsAFinishedRequest : Prop :=
  ∀ s : State, s.live = true →
    ((∀ q ∈ s.tl.requests, q.stopped = false) → exec .commit s = .next s) ∧
    (∀ q, s.tl.requests.find? (fun q => q.stopped) = some q → s.noneClosing → q.tag < 2 ^ 32 → q.ending.getD 0 < 256 →
      ∃ t, exec .commit s = .next t ∧ (∀ x ∈ t.tl.requests, ¬ (x.ring = q.ring ∧ x.ptr = q.ptr)) ∧
        Completes s t q.ring q.tag (if q.ending.getD 0 = 0 ∧ s.deadlineOver q = true then Code.deadlineMissed else q.ending.getD 0))

/-- R415: the fault records that wait in the buffer enter the event ring in order while the ring has room, which TAIL shows; the others wait. (Up
to 64, the buffer's size, in one write.) -/
def Sys2Proof.Claims.BufferedRecordEntersTheEventRing : Prop :=
  ∀ s : State, s.live = true →
    let e := s.eventRing
    (s.flt.buffer = [] ∨ s.ringRoom e 4 = false → exec .eventRecordWrite s = .next s) ∧
    (∃ t n, exec .eventRecordWrite s = .next t ∧ n ≤ s.flt.buffer.length ∧ n ≤ 64 ∧ t.flt.buffer = s.flt.buffer.drop n ∧
      (t.ring e).tail % 2 ^ 32 = ((s.ring e).tail + n) % 2 ^ 32 ∧ (n = s.flt.buffer.length ∨ n = 64 ∨ t.ringRoom e 4 = false)) ∧
    (∀ r, s.flt.buffer = [r] → s.ringRoom e 4 = true → ∃ t, exec .eventRecordWrite s = .next t ∧ t.flt.buffer = [] ∧
      (t.ring e).tail = ((s.ring e).tail + 1) % 2 ^ 32 ∧ (t.ring e).recent.head? = some ((s.ring e).tail, r.bytes))
-- Jobs and switches --------------------------------------------------------------------------------------------------

/-- R235, R506, R491, R399: a cluster comes to its tile boundary once its issue has been stopped, it runs nothing and no chunk of a ring step
is on its way. A retirement asked for then takes effect: the cluster is absent, its queues are empty, the launch list loses it, and no other
cluster's presence changes. When every job is to stop and every cluster has come to its boundary, no job is loaded any more; a recovery of the
Watermaster then restarts its cores as well. Issue starts again when nothing else stops it. (No collective is under way at the retirement, and
no frame or teardown of the management channel.) -/
def Sys2Proof.Claims.TileBoundaryRetiresAndStops : Prop :=
  ∀ (s : State) (n : Nat), s.live = true → s.mg.tear = none → s.mg.tasks = [] →
    let arrived := (s.cluster n).stop = true ∧ (s.cluster n).idle = true ∧ s.colSending = false
    (¬ arrived → exec (.tileBoundary n) s = .next s) ∧
    (arrived → n < s.fuses.clusters → n < 32 → bitAt (s.reg Reg.ECC_RETIRE_CL) n = true → s.clusterPresent n = true →
      s.ecc.kill = false → s.colBusy = false → ∃ t, exec (.tileBoundary n) s = .next t ∧ t.clusterPresent n = false ∧
        (∀ m, m ≠ n → t.clusterPresent m = s.clusterPresent m) ∧ t.cluster n = { Cluster.empty with stop := (t.cluster n).stop } ∧
        t.col.list = s.col.list.filter (· ≠ n) ∧
        ∀ j, s.job = some j → t.flag (Reg.WM_REPRO j) Fld.WM_REPRO_REFOLDED = true) ∧
    (arrived → s.retiring = [] → s.ecc.kill = false → s.sw.stopped = false →
      ∃ t, exec (.tileBoundary n) s = .next t ∧ t.present = s.present ∧ t.regs = s.regs ∧ (t.cluster n).stop = false) ∧
    (arrived → s.retiring = [] → s.ecc.kill = true → s.clustersIdle = true →
      ∃ t, exec (.tileBoundary n) s = .next t ∧ t.job = none ∧ t.ecc.kill = false ∧ t.sw.phase = .none ∧ t.sw.stopped = true ∧
        t.present = s.present ∧ (s.ecc.recover = false → t.cores = s.cores) ∧
        (s.ecc.recover = true → t.cores = s.cores.filter fun e => e.1 < 128))

/-- R455, R457, R460: a switch saves once every engine has come to its stop point; one that comes there later than QUIESCE_US, or has been
found late before, is reported with SWITCH_LATE of kind 0. At DRAIN_US the outgoing job sends nothing more, and T_DEAD later the port dies
refuse its cells. Each happens once, at its time, and before it nothing happens. -/
def Sys2Proof.Claims.SwitchStopsAndDrains : Prop :=
  ∀ s : State, s.live = true →
    let lim := s.sw.edge + s.quiesceUs * 1000
    let ready := s.sw.phase = .stopping ∧ s.atJobBoundary = true
    (¬ ready → exec .jobBoundary s = .next s) ∧
    (ready → ∃ t, exec .jobBoundary s = .next t ∧ t.sw = { s.sw with phase := .saving } ∧
      (s.sw.late0 = false → s.now ≤ lim → Silent s t) ∧
      (s.sw.late0 = true ∨ lim < s.now → Reports s t 0x4000 Code.switchLate none (s.sw.outJob.getD 0 + s.sw.inJob.getD 0 * 2 ^ 8 +
        min ((s.now - lim) / 1000) (2 ^ 28 - 1) * 2 ^ 20))) ∧
    (∃ t, exec .quiesceOverrun s = .next t ∧
      t.sw = if s.sw.phase = .stopping ∧ lim < s.now then { s.sw with late0 := true } else s.sw) ∧
    (let due := s.switchOut = true ∧ s.sw.drained = false ∧ s.sw.edge + s.drainUs * 1000 ≤ s.now
     (¬ due → exec .drainPoint s = .next s) ∧
     (due → ∃ t, exec .drainPoint s = .next t ∧ t.sw = { s.sw with drained := true } ∧ t.fab = { s.fab with stopJob := s.sw.outJob })) ∧
    (let due := s.switchOut = true ∧ s.sw.drained = true ∧ s.sw.ended = false ∧ s.sw.edge + (s.drainUs + s.tDead) * 1000 ≤ s.now
     (¬ due → exec .drainEnd s = .next s) ∧
     (due → ∃ t, exec .drainEnd s = .next t ∧ t.sw = { s.sw with ended := true } ∧ t.fab = { s.fab with refuse := true }))

/-- R443, R457, R460: when the saves are complete and the drain has ended, the outgoing job is no longer loaded and its context is held as its image;
the reload of the incoming job begins, or, with none, the switch is over and the turn is idle; a switch that a boundary has asked for meanwhile
begins then (R90, the model's reading, log entry 24). Before that nothing changes. -/
def Sys2Proof.Claims.SaveEndsTheOutgoingJob : Prop :=
  ∀ s : State, s.live = true → s.mg.tear = none → s.mg.tasks = [] →
    (s.sw.phase ≠ .saving ∨ s.sw.ended = false → exec .switchSaveDone s = .next s) ∧
    (s.sw.phase = .saving → s.sw.ended = true → ∃ t, exec .switchSaveDone s = .next t ∧ t.job = none ∧
      (s.sw.inJob.isSome → t.sw.phase = .reloading) ∧
      (s.sw.inJob = none → s.sw.want = none →
        t.sw.phase = .none ∧ t.sw.idleAt.isSome ∧ t.flag Reg.WM_SCHED Fld.WM_SCHED_SWITCHING = false) ∧
      (∀ inn gang edge, s.sw.inJob = none → s.sw.want = some (inn, gang, edge) → s.sw.stopped = true →
        t.sw.phase = .stopping ∧ t.sw.inJob = inn ∧ t.sw.gang = gang ∧ t.sw.edge = edge ∧ t.sw.want = none) ∧
      ∀ j, s.sw.outJob = some j → (s.residentSlot j).isSome →
        tblFind j t.sw.images = some s.contextOf ∧ tblFind j t.sw.leftAt = some s.sw.edge)

/-- R457, R460, R461: when the reload is complete the incoming job is loaded: it runs, and its engines start, at once, or at the resume point
B + RESUME_US for a gang job that is ready before it; a gang job ready later is reported with SWITCH_LATE of kind 1. A context image that reads
bad leaves the job FAILED, and none is loaded. (No further switch has been asked for meanwhile; images hold registers of the context only.) -/
def Sys2Proof.Claims.ReloadStartsTheIncomingJob : Prop :=
  ∀ (s : State) (j : Nat), s.live = true → s.mg.tear = none → s.mg.tasks = [] →
    (s.sw.phase ≠ .reloading ∨ s.sw.inJob = none → ∀ us, exec (.switchReady us) s = .next s) ∧
    (s.sw.phase = .reloading → s.sw.inJob = some j → s.sw.want = none → j < 256 → s.job = none →
      (∀ c e, tblFind j s.sw.images = some c → e ∈ c.regs → contextReg e.1 = true) →
      let bad := (s.imageBad (s.saveBase ((s.residentSlot j).getD 0))).1
      let point := s.sw.edge + s.resumeUs * 1000
      ∃ t, exec (.switchReady []) s = .next t ∧ t.flag Reg.WM_SCHED Fld.WM_SCHED_SWITCHING = false ∧
        (bad.isSome → t.job = none ∧ t.sw.phase = .none ∧ t.jobFailed j = true) ∧
        (bad = none → t.job = some j ∧
          (s.sw.gang = true → s.now ≤ point → t.sw.phase = .ready ∧ t.sw.stopped = s.sw.stopped) ∧
          (s.sw.gang = false ∨ point < s.now → t.sw.phase = .none ∧ t.sw.stopped = false ∧ t.fab.refuse = false) ∧
          (s.sw.gang = true → point < s.now → ∃ r ∈ t.flt.fresh, r.code = BitVec.ofNat 8 Code.switchLate ∧
            r.detail = BitVec.ofNat 64 (s.sw.outJob.getD 0 + j * 2 ^ 8 + 2 ^ 16 +
              min ((s.now - point) / 1000) (2 ^ 28 - 1) * 2 ^ 20)))) ∧
    (let due := s.sw.phase = .ready ∧ s.sw.edge + s.resumeUs * 1000 ≤ s.now
     (¬ due → exec .resumePoint s = .next s) ∧
     (due → s.sw.want = none → ∃ t, exec .resumePoint s = .next t ∧ t.sw.phase = .none ∧ t.sw.stopped = false ∧
       t.fab.refuse = false ∧ t.fab.stopJob = none))

/-- R446, R44: the oldest swap completes: a swap in brings what companion memory holds of the context into the save area, which becomes the job's,
and counts; a swap out, none of whose words reads bad, takes it to companion memory, frees the save area and counts. One whose companion memory
is not mapped moves nothing. Without a swap nothing changes. -/
def Sys2Proof.Claims.SwapMovesAContext : Prop :=
  ∀ s : State, s.live = true →
    let counted (t : State) : Prop := t.fld Reg.WM_IDLE Fld.WM_IDLE_SWAPS = (s.fld Reg.WM_IDLE Fld.WM_IDLE_SWAPS + 1) % 2 ^ Fld.WM_IDLE_SWAPS.w
    (s.sw.swaps = [] → exec .swapDone s = .next s) ∧
    (∀ w rest, s.sw.swaps = w :: rest → w.slot < 16 →
      let base := s.saveBase w.slot
      let far := s.reg (Reg.WM_JOB1 w.job) - companionBase
      let mapped := ∀ p ∈ s.swapParts w.job, s.companionMapped (companionBase + far + p.1) p.2 = true
      ∃ t, exec .swapDone s = .next t ∧ t.sw = { s.sw with swaps := rest } ∧
        (¬ mapped → t.regs = s.regs ∧ t.mem = s.mem ∧ t.tl = s.tl ∧
          ∃ r ∈ t.flt.fresh, r.code = BitVec.ofNat 8 Code.addressUnmapped) ∧
        (w.out = false → mapped → w.job < 256 → counted t ∧ t.flag (Reg.WM_SAVE w.slot) Fld.WM_SAVE_VALID = true ∧
          t.fld (Reg.WM_SAVE w.slot) Fld.WM_SAVE_JOB = w.job ∧
          (s.mem.wf = true → s.tl.cmem.wf = true → ∀ p ∈ s.swapParts w.job, ∀ i, i < p.2 →
            memByte t.mem (base + p.1 + i) = memByte s.tl.cmem (far + p.1 + i))) ∧
        (w.out = true → mapped → s.marks = [] → counted t ∧ t.flag (Reg.WM_SAVE w.slot) Fld.WM_SAVE_VALID = false ∧ t.mem = s.mem ∧
          (s.mem.wf = true → s.tl.cmem.wf = true → ∀ p ∈ s.swapParts w.job, ∀ i, i < p.2 →
            memByte t.tl.cmem (far + p.1 + i) = memByte s.mem (base + p.1 + i))))

/-- R467, R468, R481: a core's write of CANON sets the mode bit of its own cluster, and marks the running job MIXED when it is not the job's
mode; a write of WM_REPRO by the Watermaster or the management channel sets mode and freeze and clears MIXED and REFOLDED, and one by Travo
Link is refused. -/
def Sys2Proof.Claims.ModeWritesAreMarked : Prop :=
  ∀ s : State, s.live = true →
    (∀ n canon, s.clusterPresent n = false → exec (.canonWrite n canon) s = .next s) ∧
    (∀ n canon, s.clusterPresent n = true → ∃ t, exec (.canonWrite n canon) s = .next t ∧
      t.flag (Reg.CL_CTRL n) Fld.CL_CTRL_CANON = canon ∧
      (s.job = none → RegsBut s t [Reg.CL_CTRL n]) ∧
      ∀ j, s.job = some j → RegsBut s t [Reg.CL_CTRL n, Reg.WM_REPRO j] ∧
        t.flag (Reg.WM_REPRO j) Fld.WM_REPRO_MIXED =
          (s.flag (Reg.WM_REPRO j) Fld.WM_REPRO_MIXED || s.flag (Reg.WM_REPRO j) Fld.WM_REPRO_CANON != canon)) ∧
    (∀ src j (v : Word), s.hears src = true → j < 256 →
      (src = .travo → ∃ t, exec (.wmReproWrite src j v) s = .next t ∧ t.regs = s.regs ∧
        Reports s t 0x4014 Code.setupLocked (some (setupBase + Reg.WM_REPRO j)) 0) ∧
      (src ≠ .travo → ∃ t, exec (.wmReproWrite src j v) s = .next t ∧ RegsBut s t [Reg.WM_REPRO j] ∧ Silent s t ∧
        t.flag (Reg.WM_REPRO j) Fld.WM_REPRO_CANON = v.getLsbD 0 ∧ t.flag (Reg.WM_REPRO j) Fld.WM_REPRO_FREEZE = v.getLsbD 1 ∧
        t.flag (Reg.WM_REPRO j) Fld.WM_REPRO_MIXED = false ∧ t.flag (Reg.WM_REPRO j) Fld.WM_REPRO_REFOLDED = false))

-- Protection ---------------------------------------------------------------------------------------------------------

/-- R498, R499: outside the scrub slot a scrubber visits nothing. Inside it, a visited line that holds no error stays as it is; a word of it in
which one bit has been upset is corrected and counted, two upsets of one bit leave it right (R97), and a word with three bits in error is written
poisoned and reported. The visit is counted. -/
def Sys2Proof.Claims.ScrubCorrectsOrPoisons : Prop :=
  ∀ (s : State) (d l : Nat), s.live = true → d < 4 → l < 2 ^ 20 →
    let a := rsvBase + d * 2 ^ 32 + l * 256
    (s.scrubOpen = false → ∀ target us, exec (.scrubRead target us) s = .next s) ∧
    (s.scrubOpen = true → s.marks = [] →
      (∃ t, exec (.scrubRead (.rsvLine d l) []) s = .next t ∧ t.mem = s.mem ∧ t.marks = [] ∧ Silent s t ∧
        t.scrubbed 0 d = s.scrubbed 0 d + 1) ∧
      (∀ i b, i < 32 → ∃ t, exec (.scrubRead (.rsvLine d l) [⟨a + 8 * i, [b]⟩]) s = .next t ∧ t.mem = s.mem ∧ t.marks = [] ∧
        t.fld Reg.ECC_CNT_SRAM Fld.ECC_CNT_SRAM_CORRECTED =
          (s.fld Reg.ECC_CNT_SRAM Fld.ECC_CNT_SRAM_CORRECTED + 1) % 2 ^ Fld.ECC_CNT_SRAM_CORRECTED.w) ∧
      (∀ i b, i < 32 → ∃ t, exec (.scrubRead (.rsvLine d l) [⟨a + 8 * i, [b, b]⟩]) s = .next t ∧ t.mem = s.mem ∧ t.marks = [] ∧ Silent s t) ∧
      (∀ i b1 b2 b3, i < 32 → b1 ≠ b2 → b1 ≠ b3 → b2 ≠ b3 → ∃ t, exec (.scrubRead (.rsvLine d l) [⟨a + 8 * i, [b1, b2, b3]⟩]) s = .next t ∧
        t.marks = [(a + 8 * i, ⟨true, []⟩)] ∧ memNat t.mem (a + 8 * i) 8 = 0 ∧
        (∀ x, (x < a + 8 * i ∨ a + 8 * i + 8 ≤ x) → memByte t.mem x = memByte s.mem x) ∧
        ∃ r ∈ t.flt.fresh, r.code = BitVec.ofNat 8 Code.uncorrectable ∧ r.address = BitVec.ofNat 64 (a + 8 * i)))

/-- R507, R408, R44: a heartbeat that is on writes COUNT and the time, 16 bytes, to the heartbeat address: at once when the line of the address
is owned, else once it is; outside the mapped window the write is discarded and recorded. One that is off does nothing. (The address is aligned,
and no earlier write waits.) -/
def Sys2Proof.Claims.HeartbeatWritesCountAndTime : Prop :=
  ∀ s : State, s.live = true →
    let a := s.reg Reg.ECC_HB_ADDR
    let bytes := leBytes 8 (s.reg Reg.ECC_HB_COUNT) ++ leBytes 8 s.stamp
    let owned := ∃ h, tblFind ((a - companionBase) / 128) s.tl.lines = some h ∧ h.owned = true
    (s.flag Reg.ECC_HB_CTRL Fld.ECC_HB_CTRL_ENABLE = false → exec .heartbeat s = .next s) ∧
    (s.flag Reg.ECC_HB_CTRL Fld.ECC_HB_CTRL_ENABLE = true → s.companionMapped a 16 = false →
      ∃ t, exec .heartbeat s = .next t ∧ t.tl = s.tl ∧ Reports s t (s.unitOf hostWriter) Code.addressUnmapped (some a) 0x10000) ∧
    (s.flag Reg.ECC_HB_CTRL Fld.ECC_HB_CTRL_ENABLE = true → s.companionMapped a 16 = true → a % 16 = 0 → s.tl.writes = [] →
      ∃ t, exec .heartbeat s = .next t ∧ Silent s t ∧
        (owned → t.tl.writes = [] ∧ memBytes t.tl.cmem (a - companionBase) 16 = bytes) ∧
        (¬ owned → t.tl.writes = [⟨hostWriter, a - companionBase, bytes⟩] ∧ t.tl.cmem = s.tl.cmem ∧
          ∃ q ∈ t.tl.lineReqs, q.line = (a - companionBase) / 128 ∧ q.own = true))

/-- R508: a write of ECC_WM_RECOVER with GO by Travo Link fails every known job, stops issue in every cluster and asks for the Watermaster's
restart; one without GO changes nothing, and any other source is refused. -/
def Sys2Proof.Claims.WatermasterRecoveryStopsTheJobs : Prop :=
  ∀ (s : State) (src : Source) (v : Word) (image : List Byte), s.live = true → s.hears src = true →
    (src ≠ .travo → ∃ t, exec (.wmRecover src v image) s = .next t ∧ t.regs = s.regs ∧ t.ecc = s.ecc ∧
      Reports s t 0x4014 Code.setupLocked (some (setupBase + Reg.ECC_WM_RECOVER)) 0) ∧
    (src = .travo → v.getLsbD 0 = false → exec (.wmRecover src v image) s = .next s) ∧
    (src = .travo → v.getLsbD 0 = true → ∃ t, exec (.wmRecover src v image) s = .next t ∧
      t.ecc = { s.ecc with kill := true, recover := true } ∧ t.boot = { s.boot with image := image } ∧
      (∀ j, j ∈ s.knownJobs → t.jobFailed j = true) ∧ ∀ n, n < s.fuses.clusters → (t.cluster n).stop = true)

/-- R503, R505, R506, R509: a write of ECC_RETIRE_CL sets the bits it names and never clears one; a cluster newly asked for stops issue
everywhere. A write of ECC_RSV_RETIRE sets the bits of its granules; Travo Link is refused. -/
def Sys2Proof.Claims.RetirementIsAskedForAndKept : Prop :=
  ∀ (s : State) (src : Source) (v : Word), s.live = true → s.hears src = true →
    (∃ t, exec (.retireCluster src v) s = .next t ∧ RegsBut s t [Reg.ECC_RETIRE_CL] ∧ t.present = s.present ∧
      t.reg Reg.ECC_RETIRE_CL = s.reg Reg.ECC_RETIRE_CL ||| v.toNat % 2 ^ 32 ∧
      ((∃ n, n < 32 ∧ v.getLsbD n = true ∧ bitAt (s.reg Reg.ECC_RETIRE_CL) n = false ∧ s.clusterPresent n = true) →
        ∀ m, m < s.fuses.clusters → (t.cluster m).stop = true)) ∧
    ∀ d w, d < 4 → w < 1024 →
      (src = .travo → ∃ t, exec (.eccRsvRetireWrite src d w v) s = .next t ∧ t.regs = s.regs ∧
        Reports s t 0x4014 Code.setupLocked (some (setupBase + Reg.ECC_RSV_RETIRE d w)) 0) ∧
      (src ≠ .travo → ∃ t, exec (.eccRsvRetireWrite src d w v) s = .next t ∧ RegsBut s t [Reg.ECC_RSV_RETIRE d w] ∧ Silent s t ∧
        t.reg (Reg.ECC_RSV_RETIRE d w) = s.reg (Reg.ECC_RSV_RETIRE d w) ||| v.toNat)

/-- R36, R485: an access of an engine to HBM: a read returns the bytes stored there, a write of a whole sector stores them and no other byte, and
corrections the stack reports are counted; one symbol in error in the sector is corrected first, two are answered UNCORRECTABLE. An access past
the end of HBM is not performed but recorded (R44). -/
def Sys2Proof.Claims.HbmAccessesAreAnswered : Prop :=
  (∀ (s : State) (q : RsvRequest) (n : Nat), s.live = true → hbmSize < q.addr + q.len →
    ∃ t, exec (.hbmAccess q [] n) s = .next t ∧ t.mem = s.mem ∧ t.out = s.out ∧
      Reports s t (s.unitOf q.who) Code.addressUnmapped (some q.addr) (if q.write then 0x10000 else 0)) ∧
  ∀ (s : State) (q : RsvRequest) (n : Nat), s.live = true → q.addr + 32 ≤ hbmSize → q.addr % 32 = 0 → q.len = 32 → s.clean q.addr 32 →
    let counted (t : State) : Prop := t.fld Reg.ECC_CNT_ODE Fld.ECC_CNT_ODE_ON_DIE =
      (s.fld Reg.ECC_CNT_ODE Fld.ECC_CNT_ODE_ON_DIE + n) % 2 ^ Fld.ECC_CNT_ODE_ON_DIE.w
    (q.write = false →
      (∃ t, exec (.hbmAccess q [] n) s = .next t ∧ t.mem = s.mem ∧ Silent s t ∧ counted t ∧
        t.out = s.out ++ [.bus q.who q.addr 0 (memBytes s.mem q.addr 32)]) ∧
      (∀ b, b < 35 → ∃ t, exec (.hbmAccess q [⟨q.addr, [b]⟩] n) s = .next t ∧ t.mem = s.mem ∧
        Output.bus q.who q.addr 0 (memBytes s.mem q.addr 32) ∈ t.out) ∧
      (∀ b c, b < 35 → c < 35 → b ≠ c → ∃ t data, exec (.hbmAccess q [⟨q.addr, [b, c]⟩] n) s = .next t ∧ t.mem = s.mem ∧
        Output.bus q.who q.addr Code.uncorrectable data ∈ t.out)) ∧
    (q.write = true → q.poison = false → q.data.length = 32 → q.be % 2 ^ 32 = 2 ^ 32 - 1 →
      ∃ t, exec (.hbmAccess q [] n) s = .next t ∧ counted t ∧ t.out = s.out ++ [.bus q.who q.addr 0 []] ∧
        memBytes t.mem q.addr 32 = q.data ∧ ∀ x, (x < q.addr ∨ q.addr + 32 ≤ x) → memByte t.mem x = memByte s.mem x)

-- Boot and the management channel ------------------------------------------------------------------------------------

/-- R511, R513: when RESET_N rises the descriptor is checked in the order of R513's table; the first check that fails sets CODE, the device stays in
the safe state and takes nothing from the descriptor. TOP_DIE_STATUS shows the dies that came up. While the device has tripped, or once a boot
has begun, nothing happens. -/
def Sys2Proof.Claims.BootStopsAtTheFirstFailedCheck : Prop :=
  ∀ (s : State) (b : BootInput),
    (s.pwr.trip = true ∨ s.reg Reg.SEC_BOOT_STATUS ≠ 0 → exec (.resetRelease b) s = .next s) ∧
    ∀ c, s.pwr.trip = false → s.reg Reg.SEC_BOOT_STATUS = 0 →
      let dies := b.compute % 256 == 255 && b.reservoir % 16 == 15 && b.headgate % 4 == 3 && b.ports % 16 == 15 && b.control && b.link
      let checks : List (Bool × Nat) :=
        [(dies, 0x01), (b.descRead, 0x02), (descOk b.desc, 0x03), (fieldAt b.desc 6 2 == s.fuses.part, 0x04),
         (sliceOf b.desc 96 32 == b.regId, 0x05), (portMapOk b.desc, 0x06), (timeSourceOk b.desc b.pps, 0x07),
         (b.open_ % 2 ^ 11 == 0 && b.shorted % 2 ^ 11 == 0, 0x08), (b.hbm % 256 == 255, 0x09)]
      (checks.find? fun e => !e.1).map (fun e => e.2) = some c →
      ∃ t, exec (.resetRelease b) s = .next t ∧ t.fld Reg.SEC_BOOT_STATUS Fld.SEC_BOOT_STATUS_CODE = c ∧ t.safeState = true ∧
        t.mem = s.mem ∧ RegsBut s t [Reg.TOP_DIE_STATUS, Reg.TL_STATUS, Reg.PWR_SENSE, Reg.SEC_BOOT_STATUS] ∧ t.pwr.resetLow = false ∧
        t.fld Reg.TOP_DIE_STATUS Fld.TOP_DIE_STATUS_COMPUTE_UP = b.compute % 256 ∧
        t.fld Reg.TOP_DIE_STATUS Fld.TOP_DIE_STATUS_STACK_UP = b.hbm % 256

/-- R512, R514 to R518: with every check passed, the registers named take their values from the descriptor, memory is zero, and the image decides:
one that verifies, with an SVN at or above the fused minimum, starts the firmware (PHASE RUNNING, CODE 0, its SVN in SEC_SVN, register 2 extended
by its signed range); one that does not leaves the device in RECOVERY with CODE 0x10 or 0x11. -/
def Sys2Proof.Claims.BootTakesTheDescriptorAndTheImage : Prop :=
  ∀ (s : State) (b : BootInput), s.pwr.trip = false → s.reg Reg.SEC_BOOT_STATUS = 0 → s.bootCode b = none →
    let img := b.image.take (fieldAt b.desc 24 4)
    ∃ t, exec (.resetRelease b) s = .next t ∧ (∀ a, memByte t.mem a = 0) ∧ t.marks = [] ∧ t.node = fieldAt b.desc 8 2 ∧
      t.fld Reg.FT_CTRL Fld.FT_CTRL_SRC = fieldAt b.desc 10 1 % 4 ∧
      t.fld Reg.TL_CTRL Fld.TL_CTRL_WIN_GIB = min (fieldAt b.desc 12 2) 4096 ∧
      t.fld Reg.SEC_MGMT_BOX Fld.SEC_MGMT_BOX_BASE = fieldAt b.desc 48 8 % 2 ^ 39 ∧
      t.reg256 (Reg.SEC_MGR_HASH 0) = sliceOf b.desc 64 32 ∧
      (∀ n, n < 16 → t.fld (Reg.FP_CFG n) Fld.FP_CFG_ROLE = bitsOf (fieldAt b.desc (128 + 8 * n) 8) 5 3 ∧
        t.fld (Reg.FP_EXPECT n) Fld.FP_EXPECT_NODE = bitsOf (fieldAt b.desc (128 + 8 * n) 8) 16 16) ∧
      if s.imageVerifies img (fieldAt b.desc 24 4) = true ∧ s.fuses.minSvn ≤ fieldAt img 8 4 then
        t.phase = 4 ∧ t.fld Reg.SEC_BOOT_STATUS Fld.SEC_BOOT_STATUS_CODE = 0 ∧
        t.fld Reg.SEC_SVN Fld.SEC_SVN_IMAGE = fieldAt img 8 4 ∧
        t.reg256 (Reg.SEC_MEAS 2 0) = sha256 (s.reg256 (Reg.SEC_MEAS 2 0) ++ sha256 (signedRange img))
      else
        t.phase = 3 ∧ t.fld Reg.SEC_BOOT_STATUS Fld.SEC_BOOT_STATUS_CODE =
          if s.imageVerifies img (fieldAt b.desc 24 4) = true then 0x11 else 0x10

/-- R518: SEC_RECOVERY_CTRL takes writes from Travo Link only. LEN is stored; GO in RECOVERY repeats the image steps on the image placed, with
the outcome of the first boot, and ends a request of R508 with WM_RECOVERED; without GO, or in another phase, nothing else changes. -/
def Sys2Proof.Claims.RecoveryRepeatsTheImageSteps : Prop :=
  ∀ (s : State) (src : Source) (v : Word) (image program : List Byte), s.live = true →
    let len := v.toNat % 2 ^ 32
    let img := image.take len
    (s.hears src = true → src ≠ .travo → ∃ t, exec (.recoveryGo src v image program) s = .next t ∧ t.regs = s.regs ∧
      Reports s t 0x4014 Code.setupLocked (some (setupBase + Reg.SEC_RECOVERY_CTRL)) 0) ∧
    (src = .travo → v.getLsbD 32 = false ∨ s.phase ≠ 3 → ∃ t, exec (.recoveryGo src v image program) s = .next t ∧
      RegsBut s t [Reg.SEC_RECOVERY_CTRL] ∧ t.fld Reg.SEC_RECOVERY_CTRL Fld.SEC_RECOVERY_CTRL_LEN = len ∧ Silent s t) ∧
    (src = .travo → v.getLsbD 32 = true → s.phase = 3 →
      ∃ t, exec (.recoveryGo src v image program) s = .next t ∧
        if s.imageVerifies img len = true ∧ s.fuses.minSvn ≤ fieldAt img 8 4 then
          t.phase = 4 ∧ t.fld Reg.SEC_BOOT_STATUS Fld.SEC_BOOT_STATUS_CODE = 0 ∧
          t.fld Reg.SEC_SVN Fld.SEC_SVN_IMAGE = fieldAt img 8 4 ∧ t.ecc.recover = false ∧
          (s.ecc.recover = true → ∃ r ∈ t.flt.fresh, Detected s 0x4010 Code.wmRecovered none 0 r)
        else t.phase = 3 ∧ t.ecc = s.ecc ∧ t.fld Reg.SEC_BOOT_STATUS Fld.SEC_BOOT_STATUS_CODE =
          if s.imageVerifies img len = true then 0x11 else 0x10)

/-- R519: SEC_SVN_BURN takes writes from the management channel only; NEW_MIN above MIN and not above the running image's SVN becomes the fused
minimum, any other value is ignored. -/
def Sys2Proof.Claims.SvnBurnRaisesTheFusedMinimum : Prop :=
  ∀ (s : State) (src : Source) (v : Word), s.live = true → s.hears src = true →
    let n := v.toNat % 2 ^ 32
    (src ≠ .mgmt → ∃ t, exec (.secSvnBurnWrite src v) s = .next t ∧ t.regs = s.regs ∧ t.fuses = s.fuses ∧
      Reports s t 0x4014 Code.setupLocked (some (setupBase + Reg.SEC_SVN_BURN)) 0) ∧
    (src = .mgmt → if s.fuses.minSvn < n ∧ n ≤ s.fld Reg.SEC_SVN Fld.SEC_SVN_IMAGE then
        ∃ t, exec (.secSvnBurnWrite src v) s = .next t ∧ t.fuses = { s.fuses with minSvn := n } ∧
          t.fld Reg.SEC_SVN Fld.SEC_SVN_MIN = n ∧ RegsBut s t [Reg.SEC_SVN] ∧ Silent s t
      else exec (.secSvnBurnWrite src v) s = .next s)

/-- R522, R524, R527: a frame whose type, length, channel, tag or SEQ is not good is taken out of its slot and refused, with the kind that R527
gives, and changes nothing else of the channel; a good type waits for its own command (the model's division of the mailbox, log entry 26). -/
def Sys2Proof.Claims.FramesAreTakenAndChecked : Prop :=
  ∀ (s : State) (f : MgFrame) (node k : Nat) (c : Instr), s.live = true → s.mailHolds f → (k, c) ∈ frameRows node →
    let formed := mgIncoming f.type = true ∧ f.len ≤ 32608
    let channel := f.type ≠ 1 ∧ f.type ≠ 3
    let shaking := f.type = 3 ∧ ∃ h ∈ s.mg.shakes, h.id = f.session
    (f.type ≠ k → mgIncoming f.type = true → exec c s = .next s) ∧
    (f.type = k ∨ mgIncoming f.type = false → ∀ kind,
      ((kind = 4 ∧ (¬ formed ∨ (channel ∧ ∀ x, s.mg.session = some x → x.id ≠ f.session) ∨ (f.type = 3 ∧ ¬ shaking))) ∨
        (kind = 0 ∧ formed ∧ channel ∧ ∃ x, s.mg.session = some x ∧ x.id = f.session ∧ hmac256 x.kIn f.signed ≠ f.tag) ∨
        (kind = 1 ∧ formed ∧ f.seq ≤ s.mg.lastIn ∧ (f.type = 1 ∨ shaking ∨
          (channel ∧ ∃ x, s.mg.session = some x ∧ x.id = f.session ∧ hmac256 x.kIn f.signed = f.tag)))) →
      ∃ t, exec c s = .next t ∧ SlotEmptied s t f ∧ Refuses s t kind node ∧ t.mg = s.mg)

/-- R522: the firmware's fabric work goes in order: nothing is done while it has none, or while it waits for the answer of a load; a slot that
reads zero is free and the next piece comes; a fence is passed once no operation of the firmware is open. -/
def Sys2Proof.Claims.FirmwareWorkGoesInOrder : Prop :=
  ∀ s : State,
    (s.mg.tasks = [] ∨ s.mgBusy → s.mgPump = s) ∧
    (∀ a rest bs, s.mg.tasks = .await a :: rest → s.mg.got = some bs → leNat (bs.take 8) = 0 →
      s.mgStep = some { s with mg := { s.mg with tasks := rest, got := none, waits := false } }) ∧
    (∀ rest, s.mg.tasks = .fence :: rest →
      s.mgStep = if s.opsOpen mgmtUser then none else some { s with mg := { s.mg with tasks := rest } })

/-- R525, R527, R534: HELLO with ENABLE clear is not accepted (the model's reading, log entry 26: it is dropped without a record); with a key of
another hash it is refused with kind 2; otherwise the handshake begins: a key pair is generated, and a report for its OFFER is asked for unless
the lifecycle is RMA. The session open until then stays. -/
def Sys2Proof.Claims.HelloStartsAHandshake : Prop :=
  ∀ (s : State) (f : MgFrame) (node : Nat), s.live = true → s.mailHolds f → f.type = 1 → f.len ≤ 32608 → s.mg.lastIn < f.seq →
    let pub := sliceOf f.payload 32 32
    let on := s.flag Reg.SEC_MGMT_CTRL Fld.SEC_MGMT_CTRL_ENABLE
    ∃ u, RunsThen (.hello node) s u ∧ SlotEmptied s u f ∧ u.mg.session = s.mg.session ∧ u.mg.tasks = s.mg.tasks ∧
      if on = false then u.mg = s.mg ∧ u.regs = s.regs ∧ Silent s u
      else if sha256 pub ≠ s.reg256 (Reg.SEC_MGR_HASH 0) then u.mg = s.mg ∧ Refuses s u 2 node
      else
        Accepts s u f ∧ ∃ h, u.mg.shakes = (s.mg.shakes.filter fun x => x.id != h.id) ++ [h] ∧ h.id = fieldAt f.payload 0 8 ∧
          h.hello = f.payload ∧ h.pub = pub ∧ h.node = fieldAt f.payload 64 2 ∧ h.off = fieldAt f.payload 66 8 ∧ h.offer = [] ∧
          h.ek.length = 1184 ∧
          u.mg.attest = s.mg.attest ++ (if s.production then [⟨sha256 (f.payload.take 32 ++ h.ek), true⟩] else [])

/-- R525: ACCEPT with a signature that does not verify over th, or before OFFER, is refused with kind 2; a good one opens the channel with the
keys derived from the shared secret and th, sends READY, and replaces the session open until then. -/
def Sys2Proof.Claims.AcceptOpensTheChannel : Prop :=
  ∀ (s : State) (f : MgFrame) (h : Handshake) (node : Nat), s.live = true → s.mailHolds f → f.type = 3 → f.len ≤ 32608 →
    s.mg.lastIn < f.seq → (s.mg.shakes.find? fun x => x.id == f.session) = some h →
    let ct := f.payload.take 1088
    let th := sha256 (h.hello ++ h.offer ++ ct)
    let good := h.offer ≠ [] ∧ Config.slhVerify128f h.pub th (sliceOf f.payload 1088 17088) = true
    let ss := Config.kemSecret h.key ct
    let ascii (n : Nat) : List Byte := beBytes 11 n
    ∃ u, RunsThen (.accept node) s u ∧ SlotEmptied s u f ∧
      (¬ good → u.mg = s.mg ∧ Refuses s u 2 node) ∧
      (good → Accepts s u f ∧ u.flag Reg.SEC_MGMT_CTRL Fld.SEC_MGMT_CTRL_OPEN = true ∧
        u.mg.shakes = (s.mg.shakes.filter fun x => x.id != h.id) ∧
        u.mg.session = some ⟨h.id, hmac256 ss (ascii 0x474E422D4D474D542D494E ++ th),
          hmac256 ss (ascii 0x474E422D4D474D542D4F55 ++ [0x54] ++ th), h.node, h.off⟩ ∧
        u.mg.tasks = s.mg.tasks ++ frameTasks h.node h.off h.id (s.mg.outSeq + 1) none 0x04 [])

/-- R526: the writes of a SET frame are applied in frame order as set-up writes of the management channel, and SET_RSP says how many were
applied. (Every register named here takes plain writes and the lock is clear; the write of a locked field is refused and the rest goes on.) -/
def Sys2Proof.Claims.SetAppliesItsWritesInOrder : Prop :=
  ∀ (s : State) (f : MgFrame) (c : MgSession) (node : Nat), s.live = true → s.admits c f → f.type = 0x10 →
    let ws := (List.range (f.len / 16)).map fun i => (f.word (2 * i), f.word (2 * i + 1))
    let plain (w : Nat × Nat) (d : RegDesc) : Prop := setupBase ≤ w.1 ∧ w.1 < setupBase + 2 ^ 28 ∧
      regDescAt (w.1 - setupBase) = some d ∧ plainRegister (w.1 - setupBase) = true ∧ s.absentInstance (w.1 - setupBase) = false ∧
      d.src.accepts .mgmt = true
    (s.lock = false → (∀ w ∈ ws, ∃ d, plain w d) →
      ∃ u, RunsThen (.set node) s u ∧ SlotEmptied s u f ∧ Accepts s u f ∧ Silent s u ∧
        (∀ a, a ≠ Reg.SEC_CNT_MGMT → u.reg a = (ws.foldl (fun t w => t.setupWriteAt .mgmt w.1 w.2 [] []) s).reg a) ∧
        Replies s u c 0x11 (leBytes 8 ws.length ++ leBytes 8 0 ++ leBytes 8 0)) ∧
    (∀ w d g, s.lock = true → ws = [w] → plain w d → g ∈ d.fields → g.acc = .rwl →
      bitsOf w.2 g.lo g.w ≠ bitsOf (s.reg (w.1 - setupBase)) g.lo g.w →
      ∃ u, RunsThen (.set node) s u ∧ SlotEmptied s u f ∧ Accepts s u f ∧ Reports s u 0x4014 Code.setupLocked (some w.1) 0 ∧
        Replies s u c 0x11 (leBytes 8 0 ++ leBytes 8 Code.setupLocked ++ leBytes 8 w.1))

/-- R524: GET is answered with what its set-up addresses read. -/
def Sys2Proof.Claims.GetReadsSetup : Prop :=
  ∀ (s : State) (f : MgFrame) (c : MgSession) (node : Nat), s.live = true → s.admits c f → f.type = 0x12 →
    ∃ u, RunsThen (.get node) s u ∧ SlotEmptied s u f ∧ Accepts s u f ∧ RegsBut s u [Reg.SEC_CNT_MGMT] ∧ Silent s u ∧
      Replies s u c 0x13 ((List.range (f.len / 8)).map fun i => leBytes 8 (s.setupReadAt (f.word i))).flatten

/-- R520, R521, R525: a report is asked for by ATTEST, unless the lifecycle is RMA; the oldest one asked for is signed over its 256-byte message and
sent, in ATTEST_RSP to the manager of the open session, or in the OFFER that waits for it; it is counted, and BUSY stays while others wait. -/
def Sys2Proof.Claims.ReportsAreQueuedAndSigned : Prop :=
  ∀ s : State, s.live = true →
    let signed (nonce : List Byte) : List Byte :=
      s.reportBytes nonce ++ sized 17088 (Config.slhSign (identitySeeds s.fuses.secret) (s.reportBytes nonce))
    (∀ (c : MgSession) (f : MgFrame) (node : Nat), s.admits c f → f.type = 0x20 →
      ∃ u, RunsThen (.attest node) s u ∧ SlotEmptied s u f ∧ Accepts s u f ∧
        u.mg.attest = s.mg.attest ++ (if s.production then [⟨sized 32 f.payload, false⟩] else []) ∧ u.mg.tasks = s.mg.tasks ∧
        (s.production = true → u.flag Reg.SEC_ATTEST_CTRL Fld.SEC_ATTEST_CTRL_BUSY = true)) ∧
    (s.mg.attest = [] → exec .attestSigned s = .next s) ∧
    (∀ c nonce rest, s.mg.session = some c → s.mg.attest = ⟨nonce, false⟩ :: rest → ∃ u, RunsThen .attestSigned s u ∧
      u.mg.attest = rest ∧ Replies s u c 0x21 (signed nonce) ∧ u.flag Reg.SEC_ATTEST_CTRL Fld.SEC_ATTEST_CTRL_BUSY = !rest.isEmpty ∧
      u.fld Reg.SEC_ATTEST_CTRL Fld.SEC_ATTEST_CTRL_REPORTS =
        (s.fld Reg.SEC_ATTEST_CTRL Fld.SEC_ATTEST_CTRL_REPORTS + 1) % 2 ^ Fld.SEC_ATTEST_CTRL_REPORTS.w) ∧
    (∀ h rest, s.mg.attest = ⟨sha256 (h.hello.take 32 ++ h.ek), true⟩ :: rest → s.mg.shakes = [h] → ∃ u offer,
      RunsThen .attestSigned s u ∧ offer = h.ek ++ signed (sha256 (h.hello.take 32 ++ h.ek)) ∧
      u.mg.attest = rest ∧ u.mg.shakes = [{ h with offer := offer }] ∧
      u.mg.tasks = s.mg.tasks ++ frameTasks h.node h.off h.id (s.mg.outSeq + 1) none 0x02 offer)

/-- R76, R79: TIME_ANNOUNCE under PPS gives the time of the next edge; under free-run it sets fabric time, once; under PTP it gives nothing. -/
def Sys2Proof.Claims.TimeAnnounceGivesTheTime : Prop :=
  ∀ (s : State) (f : MgFrame) (c : MgSession) (node : Nat), s.live = true → s.admits c f → f.type = 0x50 →
    let src := s.fld Reg.FT_CTRL Fld.FT_CTRL_SRC
    ∃ u, RunsThen (.timeAnnounce node) s u ∧ SlotEmptied s u f ∧ u.mg.lastIn = f.seq ∧ u.mg.tasks = s.mg.tasks ∧
      (src = 0 → u.tb = s.tb) ∧
      (src = 1 → u.tb = { s.tb with announced := some (f.word 0) }) ∧
      (2 ≤ src → s.timeValid = true → u.tb = s.tb) ∧
      (2 ≤ src → s.timeValid = false → u.timeValid = true ∧ u.now = f.word 0 ∧ u.tb.rate.toNat = Config.nominalRate)

/-- R528, R529, R517, R50, R85: START compares the fingerprint, computed unless it is current, with the frame's. On a match it is kept, VALID and
MATCHED are set, register 3 is extended with it and, with no job loaded and fabric time valid, the job runs with the collective program in every
enabled cluster, its routing steps counted from 0; otherwise MATCHED is clear and no job starts. SET_RSP answers with zero writes either way. -/
def Sys2Proof.Claims.StartRunsTheJobOnAMatch : Prop :=
  ∀ (s : State) (f : MgFrame) (c : MgSession) (node : Nat), s.live = true → s.admits c f → f.type = 0x51 → s.col.seals = [] →
    s.fuses.clusters ≤ 32 →
    let fp := if s.flag Reg.SEC_FP_CTRL Fld.SEC_FP_CTRL_VALID then s.reg256 (Reg.SEC_FP 0)
      else sha256 ((fingerprintWords.map fun a => leBytes 8 (s.reg a)).flatten)
    ∃ u, RunsThen (.start node) s u ∧ Accepts s u f ∧ Replies s u c 0x11 (List.replicate 24 0) ∧
      (fp ≠ sliceOf f.payload 8 32 → u.flag Reg.SEC_FP_CTRL Fld.SEC_FP_CTRL_MATCHED = false ∧
        RegsBut s u [Reg.SEC_FP_CTRL, Reg.SEC_CNT_MGMT] ∧ u.sw = s.sw ∧ u.hg = s.hg ∧ SlotEmptied s u f) ∧
      (fp = sliceOf f.payload 8 32 → u.flag Reg.SEC_FP_CTRL Fld.SEC_FP_CTRL_MATCHED = true ∧
        u.flag Reg.SEC_FP_CTRL Fld.SEC_FP_CTRL_VALID = true ∧ u.reg256 (Reg.SEC_FP 0) = fp ∧
        u.reg256 (Reg.SEC_MEAS 3 0) = sha256 (s.reg256 (Reg.SEC_MEAS 3 0) ++ fp) ∧
        (s.job.isSome ∨ s.timeValid = false → u.job = s.job ∧ u.sw = s.sw ∧ u.hg = s.hg ∧ SlotEmptied s u f) ∧
        (s.job = none → s.timeValid = true → s.sw.phase = .none → s.sw.want = none → s.mg.tear = none →
          u.job = some (f.word 0 % 256) ∧ u.sw.phase = .none ∧ u.sw.stopped = false ∧ u.hg.nextStep = 0 ∧ u.hg.steps = [] ∧
          ∀ n, n < s.fuses.clusters → s.clusterPresent n = true → s.marks = [] →
            memBytes u.mem (scratchAddr n 0xFF8000) (min 32768 s.boot.program.length) = s.boot.program.take 32768))

/-- R533 steps 1 and 2: QUIESCE waits for the end of a switch; then every waiting or running request of the job commits, and the job, when it
runs, stops issuing; the drain begins once the job has stopped, and no operation of the job is sent from then on. A teardown under way goes on
as it was. -/
def Sys2Proof.Claims.QuiesceStopsTheJob : Prop :=
  ∀ (s : State) (f : MgFrame) (c : MgSession) (node : Nat), s.live = true → s.admits c f → f.type = 0x30 →
    let j := f.word 0 % 256
    ∃ u, RunsThen (.quiesce node) s u ∧ Accepts s u f ∧
      (s.mg.tear.isSome → u.mg.tear = s.mg.tear ∧ u.tl = s.tl ∧ u.sw = s.sw ∧ u.fab = s.fab) ∧
      (s.mg.tear = none → s.sw.phase ≠ .none → u.mg.tear = some ⟨j, .waiting, 0⟩ ∧ u.tl = s.tl ∧ u.sw = s.sw ∧ u.fab = s.fab) ∧
      (s.mg.tear = none → s.sw.phase = .none → (∀ q ∈ u.tl.requests, q.job ≠ j) ∧
        (s.job = some j → u.sw.stopped = true ∧ ∀ n, n < s.fuses.clusters → (u.cluster n).stop = true) ∧
        (s.job = some j → s.clustersIdle = false → u.mg.tear = some ⟨j, .quiescing, 0⟩) ∧
        (s.job ≠ some j ∨ s.clustersIdle = true → u.mg.tear = some ⟨j, .draining, s.clock.elapsedNs⟩ ∧ u.fab.stopJob = some j ∧
          u.job ≠ some j))

/-- R533 steps 2 to 6: T_DEAD after the drain began ejection is refused, the Reservoir, the enabled scratchpads and the job's ranges read zero,
every region is FREE, the window, member, zone and group tables are clear, PTAG is zero, and QUIET is sent to the manager of the open session.
Before that, nothing happens. -/
def Sys2Proof.Claims.TeardownScrubsAndUntags : Prop :=
  ∀ (s : State) (ranges : List (Nat × Nat)), s.live = true →
    ((∀ j t, s.mg.tear = some ⟨j, .draining, t⟩ → s.clock.elapsedNs < t + s.fld Reg.JT_CTRL Fld.JT_CTRL_T_DEAD * 1000) →
      exec (.teardownDrainEnd ranges) s = .next s) ∧
    (∀ j t, s.mg.tear = some ⟨j, .draining, t⟩ → t + s.fld Reg.JT_CTRL Fld.JT_CTRL_T_DEAD * 1000 ≤ s.clock.elapsedNs → ∃ u, RunsThen (.teardownDrainEnd ranges) s u ∧ u.mg.tear = none ∧ u.fab.refuse = true ∧
        (∀ x, rsvBase ≤ x → x < rsvBase + 4 * 2 ^ 32 → memByte u.mem x = 0) ∧
        (∀ n x, n < s.fuses.clusters → s.clusterPresent n = true → scratchAddr n 0 ≤ x → x < scratchAddr n 0 + 2 ^ 24 → memByte u.mem x = 0) ∧
        (∀ r ∈ ranges, r.1 + r.2 ≤ hbmSize → ∀ x, r.1 ≤ x → x < r.1 + r.2 → memByte u.mem x = 0) ∧
        (∀ n, n < 256 → (u.region n).type = 0 ∧ u.reg (Reg.JT_WIN0 n) = 0 ∧ u.reg (Reg.COL_GROUP n) = 0) ∧
        (∀ n, n < 128 → u.reg (Reg.JT_MEMBER n) = 0) ∧ (∀ z, z < 1024 → u.reg (Reg.HG_ZONE0 z) = 0) ∧
        u.fld Reg.FWD_IDENT Fld.FWD_IDENT_PTAG = 0 ∧ u.node = s.node ∧
        ∀ c, s.mg.session = some c → Replies s u c 0x31 (leBytes 8 s.now))

/-- R530: LAUNCH with a CHUNKS or CHUNK_LOG2 outside its range starts nothing; any other sets up the launch it describes, with SEC_LAUNCH_STATUS
clear and, where they lie in HBM, empty HAVE and ACK bitmaps. -/
def Sys2Proof.Claims.LaunchIsTaken : Prop :=
  ∀ (s : State) (f : MgFrame) (c : MgSession) (node : Nat), s.live = true → s.admits c f → f.type = 0x40 →
    ∃ u, RunsThen (.launch node) s u ∧ Accepts s u f ∧ u.mg.tasks = s.mg.tasks ∧
      if 1 ≤ f.word 1 ∧ f.word 1 ≤ 65536 ∧ 16 ≤ f.word 2 ∧ f.word 2 ≤ 24 then
        u.reg Reg.SEC_LAUNCH_STATUS = 0 ∧ (∃ l, u.mg.launch = some l ∧ l.id = f.word 0 ∧ l.chunks = f.word 1 ∧ l.chunkLog = f.word 2 ∧
          l.digest = sliceOf f.payload 24 32 ∧ l.dest = f.word 7 ∧ l.ctrl = f.word 8 ∧ l.parent = f.word 9 % 2 ^ 16 ∧
          l.tAck = f.word 18 ∧ l.listOk = false ∧ l.have_ = [] ∧ l.sent = [] ∧
          l.children = (((List.range 8).map fun i => f.word (10 + i)).filter (· ≠ 2 ^ 64 - 1)).map (· % 2 ^ 16)) ∧
        (f.word 8 + 6 * 2 ^ 20 + 9 * 8192 ≤ hbmSize → ∀ x, x < 9 * 8192 → memByte u.mem (f.word 8 + 6 * 2 ^ 20 + x) = 0)
      else u.mg.launch = s.mg.launch ∧ u.reg Reg.SEC_LAUNCH_STATUS = s.reg Reg.SEC_LAUNCH_STATUS

/-- R531, R532: the notice of chunk `i` that a node does not hold yet. A chunk whose digest is its list entry and its notice's is marked in HAVE,
counted, acknowledged to the parent and forwarded to every child, and the last one commits the launch; one that fails a check is refused with kind
5 and nothing is acknowledged. A notice of a chunk held is acknowledged again. (The digest list has come; the model's reading of the 64
bytes is log entry 27.) -/
def Sys2Proof.Claims.NoticesAreVerified : Prop :=
  ∀ (s : State) (l : Launch) (i : Nat) (n bs d : List Byte) (old : Byte), s.live = true → s.mg.launch = some l → l.listOk = true →
    i < l.chunks → l.chunks ≤ 65536 → s.readLocal mgmtUser (l.noticeAddr i) 64 = (0, n, s) → fieldAt n 0 8 = l.id → fieldAt n 8 4 = i →
    s.readLocal mgmtUser (l.chunkAddr i) (min (fieldAt n 12 4) l.chunkBytes) = (0, bs, s) →
    l.ctrl + 6 * 2 ^ 20 + 8192 ≤ hbmSize → s.readLocal mgmtUser (l.haveAddr + i / 8) 1 = (0, [old], s) →
    s.readLocal mgmtUser (l.ctrl + 32 * i) 32 = (0, d, s) →
    let good := fieldAt n 12 4 ≤ l.chunkBytes ∧ sha256 bs = d ∧ sha256 bs = sliceOf n 32 32
    let acks (k : Nat) : List MgTask :=
      if l.parent = s.node then [] else [.orMask (nodeAddr l.parent (l.ackAddr (k % 8) + i / 64 * 8)) (2 ^ (i % 64))]
    (i ∈ l.have_ → ∃ u k, RunsThen (.launchNotice i) s u ∧ u.mg.launch = some l ∧ u.regs = s.regs ∧ u.mem = s.mem ∧
      u.mg.tasks = s.mg.tasks ++ acks k) ∧
    (i ∉ l.have_ → ¬ good → ∃ t, exec (.launchNotice i) s = .next t ∧ t.mg = s.mg ∧ t.mem = s.mem ∧ Refuses s t 5 l.parent) ∧
    (i ∉ l.have_ → good → ∃ u k more, RunsThen (.launchNotice i) s u ∧ u.mg.launch = some { l with have_ := l.have_ ++ [i] } ∧
      memByte u.mem (l.haveAddr + i / 8) = old ||| BitVec.ofNat 8 (2 ^ (i % 8)) ∧
      u.fld Reg.SEC_LAUNCH_STATUS Fld.SEC_LAUNCH_STATUS_HAVE_COUNT =
        satAdd 16 (s.fld Reg.SEC_LAUNCH_STATUS Fld.SEC_LAUNCH_STATUS_HAVE_COUNT) 1 ∧
      u.mg.tasks = s.mg.tasks ++ acks k ++ (l.children.map fun c => s.chunkTasks l c i).flatten ++ more ∧
      (l.have_.length + 1 = l.chunks → u.flag Reg.SEC_LAUNCH_STATUS Fld.SEC_LAUNCH_STATUS_COMMITTED = true))

/-- R531: the notice of the digest list. A list whose SHA-256 is the launch's and the notice's is taken and passed to every child; one that fails is
refused with kind 5; once taken, a second notice changes nothing, as does any notice without a launch. -/
def Sys2Proof.Claims.ListNoticesAreVerified : Prop :=
  ∀ s : State, s.live = true →
    (s.mg.launch = none → ∀ i, exec (.launchNotice i) s = .next s) ∧
    ∀ (l : Launch) (n bs : List Byte), s.mg.launch = some l → s.readLocal mgmtUser (l.noticeAddr 0) 64 = (0, n, s) →
      fieldAt n 0 8 = l.id → fieldAt n 8 4 = listIndex → s.readLocal mgmtUser l.ctrl (32 * l.chunks) = (0, bs, s) →
      let good := sha256 bs = l.digest ∧ sliceOf n 32 32 = l.digest
      (l.listOk = true → exec (.launchNotice listIndex) s = .next s) ∧
      (l.listOk = false → ¬ good → ∃ t, exec (.launchNotice listIndex) s = .next t ∧ t.mg = s.mg ∧ t.mem = s.mem ∧ Refuses s t 5 l.parent) ∧
      (l.listOk = false → good → ∃ u more, RunsThen (.launchNotice listIndex) s u ∧ u.mg.launch = some { l with listOk := true } ∧
        u.mem = s.mem ∧ u.mg.tasks = s.mg.tasks ++ (l.children.map (listTasks l)).flatten ++ more ∧
        (l.have_.length ≠ l.chunks → more = [] ∧ u.regs = s.regs) ∧
        (l.have_.length = l.chunks → u.flag Reg.SEC_LAUNCH_STATUS Fld.SEC_LAUNCH_STATUS_COMMITTED = true))

/-- R532: a child's acknowledgement that is missing T_ACK after the notice has the chunk sent once more; missing after twice that, the manager is
told, once. Before that, or once it is there, nothing happens; nor without a launch, or for a chunk whose notice has not been sent. -/
def Sys2Proof.Claims.MissingAcksAreResentThenReported : Prop :=
  (∀ (s : State) (child i : Nat), s.live = true → s.mg.launch = none ∨
      (∃ l, s.mg.launch = some l ∧ tblFind (65536 * child + i) l.sent = none) → exec (.launchAckTimeout child i) s = .next s) ∧
  ∀ (s : State) (l : Launch) (child i since n : Nat), s.live = true → s.mg.launch = some l →
    tblFind (65536 * child + i) l.sent = some (since, n) →
    let quiet := s.childAcked l child i = true ∨ s.clock.elapsedNs < since + l.tAck * 1000 ∨ 2 ≤ n ∨
      (n = 1 ∧ s.clock.elapsedNs < since + 2 * l.tAck * 1000)
    let marked (k : Nat) : Option Launch := some { l with sent := tblSet (65536 * child + i) (since, k) l.sent }
    (quiet → exec (.launchAckTimeout child i) s = .next s) ∧
    (¬ quiet → n = 0 → ∃ u, RunsThen (.launchAckTimeout child i) s u ∧ u.mg.launch = marked 1 ∧
      u.mg.tasks = s.mg.tasks ++ s.chunkTasks l child i) ∧
    (¬ quiet → n = 1 → ∃ u, RunsThen (.launchAckTimeout child i) s u ∧ u.mg.launch = marked 2 ∧
      ∀ c, s.mg.session = some c → Replies s u c 0x43 (leBytes 8 l.id ++ leBytes 8 child ++ leBytes 8 i))

/-- R532: LAUNCH_CHILD gives a node an orphan, whose HAVE bitmap it reads before it sends what is missing; REPARENT changes the parent;
LAUNCH_ABORT clears the launch and its status. A frame for another image, or without a launch, changes nothing of it. -/
def Sys2Proof.Claims.OrphansMoveAndLaunchesAbort : Prop :=
  ∀ (s : State) (f : MgFrame) (c : MgSession) (node : Nat), s.live = true → s.admits c f →
    let orphan := f.word 1 % 2 ^ 16
    (f.type = 0x41 → ∃ u, RunsThen (.launchChild node) s u ∧ SlotEmptied s u f ∧ Accepts s u f ∧
      (s.mg.launch = none → u.mg.launch = none ∧ u.mg.tasks = s.mg.tasks) ∧
      ∀ l, s.mg.launch = some l →
        if f.word 0 = l.id ∧ l.children.length < 8 ∧ orphan ∉ l.children then
          u.mg.launch = some { l with children := l.children ++ [orphan] } ∧
          u.mg.tasks = s.mg.tasks ++ ((List.range 32).map fun k => .load (nodeAddr orphan (l.haveAddr + 256 * k))) ++ [.missing orphan]
        else u.mg.launch = some l ∧ u.mg.tasks = s.mg.tasks) ∧
    (f.type = 0x42 → ∃ u, RunsThen (.reparent node) s u ∧ SlotEmptied s u f ∧ Accepts s u f ∧ u.mg.tasks = s.mg.tasks ∧
      u.mg.launch = s.mg.launch.map fun l => if f.word 0 = l.id then { l with parent := orphan } else l) ∧
    (f.type = 0x45 → ∃ u, RunsThen (.launchAbort node) s u ∧ SlotEmptied s u f ∧ Accepts s u f ∧ u.mg.launch = none ∧
      u.reg Reg.SEC_LAUNCH_STATUS = 0)
-- Power, temperature and the sideband --------------------------------------------------------------------------------

/-- R541 to R544, R550: the governor stores the readings of the rails and steps down under the thermal demand, the power demand, or both; it asks
for the next higher clock once neither demand has held it back for 10 ms; in safe hold, or while an AVSBus write holds the step, it stays. -/
def Sys2Proof.Claims.GovernorChoosesTheHighestDemand : Prop :=
  ∀ (s : State) (mv0 a0 mv1 a1 watts : Nat), s.live = true →
    let cur := s.fld Reg.PWR_STATUS Fld.PWR_STATUS_STEP
    let tj := s.fld Reg.PWR_STATUS Fld.PWR_STATUS_TJ_MAX
    let stepC := s.fld Reg.PWR_CTRL Fld.PWR_CTRL_STEP_C
    let cap := s.fld Reg.PWR_CTRL Fld.PWR_CTRL_CAP_W
    let bmc := s.fld Reg.PWR_CTRL Fld.PWR_CTRL_BMC_CAP_W
    let causes := (if 5 ≤ cur then [] else if 105 ≤ tj then [7] else if stepC ≤ tj then [1] else []) ++
      (if cur < 5 ∧ min cap bmc < watts then [if bmc < cap then 3 else 2] else [])
    let waiting := s.pwr.stepUp.isSome ∨ s.pwr.clockAt.isSome
    let hold := s.flag Reg.PWR_STATUS Fld.PWR_STATUS_SAFE_HOLD = true
    (s.phase < 4 → exec (.governorInterval mv0 a0 mv1 a1 watts) s = .next s) ∧
    (4 ≤ s.phase → cur ≤ 5 → ∃ t, exec (.governorInterval mv0 a0 mv1 a1 watts) s = .next t ∧
      t.fld (Reg.PWR_RAIL 0) Fld.PWR_RAIL_READ_MV = mv0 % 2 ^ 16 ∧ t.fld (Reg.PWR_RAIL 0) Fld.PWR_RAIL_AMPS = a0 % 2 ^ 16 ∧
      t.fld (Reg.PWR_RAIL 1) Fld.PWR_RAIL_READ_MV = mv1 % 2 ^ 16 ∧ t.fld (Reg.PWR_RAIL 1) Fld.PWR_RAIL_AMPS = a1 % 2 ^ 16 ∧
      t.fld Reg.PWR_POWER Fld.PWR_POWER_WATTS = watts % 2 ^ 16 ∧
      (causes ≠ [] → ¬ hold → (¬ waiting ∨ 105 ≤ tj) → StepsDown s t cur (if 105 ≤ tj then 5 else cur + 1) causes ∧
        t.fld Reg.PWR_CNT Fld.PWR_CNT_THERMAL =
          satAdd 16 (s.fld Reg.PWR_CNT Fld.PWR_CNT_THERMAL) (if 7 ∈ causes ∨ 1 ∈ causes then 1 else 0) ∧
        t.fld Reg.PWR_CNT Fld.PWR_CNT_CAP = satAdd 16 (s.fld Reg.PWR_CNT Fld.PWR_CNT_CAP) (if 2 ∈ causes ∨ 3 ∈ causes then 1 else 0)) ∧
      (causes = [] ∨ hold ∨ (waiting ∧ tj < 105) → t.fld Reg.PWR_STATUS Fld.PWR_STATUS_STEP = cur ∧ Silent s t) ∧
      (∀ c l, 1 ≤ cur → ¬ hold → ¬ waiting → tj < 105 → tj < stepC - s.fld Reg.PWR_CTRL Fld.PWR_CTRL_HYST_C →
        watts * 100 < min cap bmc * 95 → s.pwr.cool = some c → c + 10000000 ≤ s.clock.elapsedNs → s.pwr.low = some l →
        l + 10000000 ≤ s.clock.elapsedNs → t.pwr.stepUp = some (cur - 1) ∧
        t.fld (Reg.PWR_RAIL 0) Fld.PWR_RAIL_SET_MV = nthD s.fuses.stepMv (cur - 1) 720 % 2 ^ 16))

/-- R542: a step up waits for the regulator's completion and then 20 µs, 25,000 engine-clock ticks, before the clock changes. -/
def Sys2Proof.Claims.StepUpWaitsForTheRegulator : Prop :=
  ∀ s : State, s.live = true →
    (s.pwr.stepUp = none → exec .voltageWriteDone s = .next s) ∧
    (∀ n, s.pwr.stepUp = some n → ∃ t, exec .voltageWriteDone s = .next t ∧ t.regs = s.regs ∧ t.pwr.stepUp = none ∧
      t.pwr.clockAt = some (s.clock.ticks + 25000, n)) ∧
    (∀ due n k, s.pwr.clockAt = some (due, n) → ∃ t, exec (.ftTick k) s = .next t ∧
      if due ≤ s.clock.ticks + k then t.pwr.clockAt = none ∧ t.fld Reg.PWR_STATUS Fld.PWR_STATUS_STEP = n % 8
      else t.pwr.clockAt = some (due, n) ∧
        t.fld Reg.PWR_STATUS Fld.PWR_STATUS_STEP = s.fld Reg.PWR_STATUS Fld.PWR_STATUS_STEP)

/-- R537, R539, R540, R552: a rail fault, the fourth failure of an AVSBus operation and the third reading of a sense pair more than 50 mV apart put
the device in safe hold; an earlier failure is retried and counted, and readings that agree do nothing. -/
def Sys2Proof.Claims.FaultsOfSupplyHoldTheSafeClock : Prop :=
  ∀ s : State, s.live = true →
    (∃ t, exec .railFault s = .next t ∧ HoldsSafe s t 6) ∧
    (∀ rail op, let k := rail % 2 * 4 + op % 4
      (tblGetD k 0 s.pwr.avsFails < 3 → ∃ t, exec (.avsbusError rail op) s = .next t ∧ Silent s t ∧ RegsBut s t [Reg.PWR_CNT] ∧
        t.fld Reg.PWR_CNT Fld.PWR_CNT_AVS_ERR = satAdd 16 (s.fld Reg.PWR_CNT Fld.PWR_CNT_AVS_ERR) 1 ∧
        tblGetD k 0 t.pwr.avsFails = tblGetD k 0 s.pwr.avsFails + 1) ∧
      (3 ≤ tblGetD k 0 s.pwr.avsFails → ∃ t, exec (.avsbusError rail op) s = .next t ∧ HoldsSafe s t 4 ∧
        (op % 4 = 0 → t.pwr.stepUp = none) ∧ tblGetD k 0 t.pwr.avsFails = 0)) ∧
    (∀ (readings : List (Nat × Nat)) (p a m : Nat), readings.length = 11 → readings[p]? = some (a, m) →
      (∀ q x y, q ≠ p → readings[q]? = some (x, y) → absDiff x y ≤ 50) →
      (absDiff a m ≤ 50 → ∃ t, exec (.senseCheck readings) s = .next t ∧ Silent s t ∧ t.regs = s.regs ∧
        ∀ q, q < 11 → tblGetD q 0 t.pwr.sense = 0) ∧
      (50 < absDiff a m → tblGetD p 0 s.pwr.sense < 2 → ∃ t, exec (.senseCheck readings) s = .next t ∧ Silent s t ∧ t.regs = s.regs ∧
        tblGetD p 0 t.pwr.sense = tblGetD p 0 s.pwr.sense + 1) ∧
      (50 < absDiff a m → 2 ≤ tblGetD p 0 s.pwr.sense → ∃ t, exec (.senseCheck readings) s = .next t ∧ HoldsSafe s t 5 ∧
        t.reg Reg.PWR_SENSE = s.reg Reg.PWR_SENSE ||| 2 ^ (if a * 5 < m then p + 11 else p)))

/-- R545: TJ_MAX is the highest reading, with its die; at 115 °C the device trips: every port goes DOWN with no lane on, and from then on only the
sideband, RESET_N and the supply have an effect. -/
def Sys2Proof.Claims.TemperatureIsShownAndTrips : Prop :=
  (∀ s : State, s.live = true → exec (.tempRefresh []) s = .next s) ∧
  ∀ (s : State) (readings : List (Nat × Nat)) (r : Nat × Nat), s.live = true → r ∈ readings → (∀ x ∈ readings, x.2 ≤ r.2) →
    ∃ t, exec (.tempRefresh readings) s = .next t ∧ t.fld Reg.PWR_STATUS Fld.PWR_STATUS_TJ_MAX = min r.2 255 ∧
      (∃ x ∈ readings, x.2 = r.2 ∧ t.fld Reg.PWR_STATUS Fld.PWR_STATUS_TJ_DIE = x.1 % 256) ∧
      (r.2 < 115 → RegsBut s t [Reg.PWR_STATUS] ∧ t.pwr = s.pwr ∧ t.ports = s.ports) ∧
      (115 ≤ r.2 → t.pwr.trip = true ∧ t.live = false ∧ ∀ p, p < 16 → t.portStage p = 0 ∧
        t.fld (Reg.FP_STATUS p) Fld.FP_STATUS_LANES = 0)

/-- R547, R545: PWRGOOD or RESET_N falls: every part of the machine is as at reset with the same fuses, and no record is written. RESET_N reads
low, and a trip stays until the rails are removed. -/
def Sys2Proof.Claims.PowerResetKeepsOnlyTheFuses : Prop :=
  ∀ (s : State) (removed : Bool), ∃ t, exec (.powerReset removed) s = .next t ∧ t.fuses = s.fuses ∧
    (∀ p, p ∉ [Part.pwr, .out, .free] → (State.atReset s.fuses).same t p) ∧ t.pwr.resetLow = true ∧
    t.pwr.trip = (s.pwr.trip && !removed) ∧ t.pwr.smbAddr = s.pwr.smbAddr ∧ t.out = s.out ∧ t.live = false ∧ t.smbServes = false

/-- R549, R550: the sideband serves from 5 ms after RESET_N rises and NACKs before: each block read answers its count, its bytes and PEC and
changes nothing; a cap with a good PEC is stored; the Alert Response Address read answers the target's address and clears SMBALERT_N. -/
def Sys2Proof.Claims.SidebandServesAfterFiveMilliseconds : Prop :=
  ∀ s : State,
    let serves := s.pwr.resetLow = false ∧ s.pwr.rose + 5000000 ≤ s.clock.elapsedNs
    let addr := (0x60 + s.pwr.smbAddr % 4) * 2
    (∀ cmd c data, (cmd, c, data) ∈ s.smbReads →
      (serves → ∃ t, exec c s = .next t ∧ (∀ p, p ≠ Part.out → s.same t p) ∧ t.out = s.out ++
        [.smbus ((data.length :: data.map BitVec.toNat ++ [pec ([addr, cmd, addr + 1] ++ data.length :: data.map BitVec.toNat)]).map
          (BitVec.ofNat 8))]) ∧
      (¬ serves → ∃ t, exec c s = .next t ∧ (∀ p, p ≠ Part.out → s.same t p) ∧ t.out = s.out ++ [.smbusNack])) ∧
    (∀ watts pecOk, ∃ t, exec (.bmcCapWWrite watts pecOk) s = .next t ∧
      (serves → pecOk = true → t.fld Reg.PWR_CTRL Fld.PWR_CTRL_BMC_CAP_W = watts % 2 ^ 16 ∧ RegsBut s t [Reg.PWR_CTRL] ∧ t.out = s.out) ∧
      (¬ serves ∨ pecOk = false → t.regs = s.regs ∧ t.out = s.out ++ [.smbusNack])) ∧
    (∃ t, exec .alertResponse s = .next t ∧
      (serves → s.pwr.alert = true → t.pwr = { s.pwr with alert := false } ∧
        t.out = s.out ++ [.smbus ([addr, pec [0x19, addr]].map (BitVec.ofNat 8))]) ∧
      (¬ serves ∨ s.pwr.alert = false → t.pwr = s.pwr ∧ t.out = s.out ++ [.smbusNack]))

-- What every step keeps ----------------------------------------------------------------------------------------------

/-- R519: no step lowers the fused minimum SVN or changes another fuse: a burn is permanent. -/
def Sys2Proof.Claims.FusesArePermanent : Prop :=
  ∀ s t : State, step s = .next t →
    s.fuses.minSvn ≤ t.fuses.minSvn ∧ t.fuses = { s.fuses with minSvn := t.fuses.minSvn }

/-- R13, R80, R505, R545: until the device is reset, valid fabric time stays valid and a trip stays; and, unless an upset strikes the voted words at
a turn boundary, the set-up lock stays set and no cluster that is fused off or retired comes back. -/
def Sys2Proof.Claims.WhatLastsUntilReset : Prop :=
  ∀ s t : State, step s = .next t → (∀ b rest, s.pending ≠ .powerReset b :: rest) →
    (s.timeValid = true → t.timeValid = true) ∧ (s.pwr.trip = true → t.pwr.trip = true) ∧
    ((∀ us n rest, us ≠ [] → s.pending ≠ .turnBoundary us n :: rest) →
      (s.lock = true → t.lock = true) ∧ ∀ n, s.clusterPresent n = false → t.clusterPresent n = false)

/-- A trip lasts over a reset too, until the rails are removed (R545). -/
def Sys2Proof.Claims.TripLastsUntilTheRailsAreRemoved : Prop :=
  ∀ (c : Instr) (s t : State), s.pwr.trip = true → exec c s = .next t → c ≠ .powerReset true → t.pwr.trip = true ∧ t.live = false

/-- Every step keeps local memory, and the lines of companion memory, in canonical form: addresses rising, no byte listed that reads as an unlisted
one does (the form is the model's, log entry 2). So equal memories are equal data. -/
def Sys2Proof.Claims.MemoryStaysCanonical : Prop :=
  ∀ s t : State, Memory.wf s.mem = true → Memory.wf s.tl.cmem = true → step s = .next t →
    Memory.wf t.mem = true ∧ Memory.wf t.tl.cmem = true

/-- The state after reset meets what the steps keep: canonical memories, fabric time not valid, the lock clear, no trip. -/
def Sys2Proof.Claims.ResetMeetsTheInvariants : Prop :=
  ∀ f : Fuses, Memory.wf (State.atReset f).mem = true ∧ Memory.wf (State.atReset f).tl.cmem = true ∧
    (State.atReset f).timeValid = false ∧ (State.atReset f).lock = false ∧ (State.atReset f).pwr.trip = false ∧
    (State.atReset f).fuses = f ∧ State.reset = State.atReset State.reset.fuses

/-- R18: a fault record's 32 bytes hold every field of it. -/
def Sys2Proof.Claims.FaultRecordsKeepTheirFields : Prop :=
  ∀ r : FaultRecord, r.bytes.length = 32 ∧ FaultRecord.ofBytes r.bytes = r

/-- R104, R107: an offset of a region is placed on the die and at the die-view offset that R104 computes, inside the region's footprint, and R107
recovers it; granule 0 of an interleaved region lies on die n mod 4. -/
def Sys2Proof.Claims.RegionsPlaceAndRecoverTheirOffsets : Prop :=
  ∀ (s : State) (n o : Nat), n < 256 → (s.region n).type ≠ 0 → o < (s.region n).size * 4096 → o < 2 ^ 30 →
    ((s.region n).pinned = true ∨ (s.region n).size % 4 = 0) →
    let r := s.region n
    let g := o / 4096
    let die := if r.pinned then r.pinDie else (g + n) % 4
    let x := (r.base + if r.pinned then g else g / 4) * 4096 + o % 4096
    s.decode (regionAddr n o) = .rsv die x (some (n, o)) ∧ r.occupies die (x / 4096) = true ∧ r.offsetOf n die x = o ∧
      (o < 4096 → r.pinned = false → die = n % 4) ∧
      ∀ d p, r.occupies d p = true ↔
        (r.pinned = true → d = r.pinDie) ∧ r.base ≤ p ∧ p < r.base + (if r.pinned then r.size else r.size / 4)

-- The statements -----------------------------------------------------------------------------------------------------

/-- A step runs the command at the front of the queue; with none waiting the block idles or runs its collective program. -/
def Obligations.StepRunsTheFrontCommand : Prop :=
  Claims.StepRunsTheFrontCommand ∧ Claims.IdleStepRunsTheCollectiveProgram

/-- Every command answers a next state in every state. -/
def Obligations.EveryCommandAnswersANextState : Prop :=
  Claims.EveryCommandAnswersANextState

/-- The frame of every command: what it may change. -/
def Obligations.CommandsKeepToTheirParts : Prop :=
  Claims.CommandsKeepToTheirParts

/-- A tripped device, or one held in reset, ignores commands, and a trip lasts. -/
def Obligations.DeadDeviceWaitsForReset : Prop :=
  Claims.DeadDeviceIgnoresCommands ∧ Claims.TripLastsUntilTheRailsAreRemoved

/-- What reset leaves, and that it meets what steps keep. -/
def Obligations.ResetLeavesTheStatedValues : Prop :=
  Claims.ResetLeavesTheStatedValues ∧ Claims.ResetMeetsTheInvariants

/-- Set-up writes follow the access codes and the lock. -/
def Obligations.SetupWritesFollowTheAccessCodes : Prop :=
  Claims.SetupWriteFollowsTheAccessCodes

/-- Unassigned set-up addresses read zero and ignore writes. -/
def Obligations.UnassignedAddressesReadZero : Prop :=
  Claims.UnassignedAddressesReadZeroAndIgnoreWrites

/-- Refused sources change nothing, and the lock is set by writing one. -/
def Obligations.RefusedWritesAndTheLock : Prop :=
  Claims.RefusedSourcesChangeNothing ∧ Claims.LockIsSetByWritingOne

/-- The region table takes a write whole or refuses it. -/
def Obligations.RegionTableWrites : Prop :=
  Claims.RegionWriteIsTaken ∧ Claims.RefusedRegionWriteChangesNothing

/-- Region offsets are placed as the spec computes, and recovered. -/
def Obligations.RegionsPlaceTheirOffsets : Prop :=
  Claims.RegionsPlaceAndRecoverTheirOffsets

/-- Seals are counted or discarded, released, and signalled to the engines. -/
def Obligations.SealsAreCountedAndReleased : Prop :=
  Claims.SealIsCounted ∧ Claims.LateSealIsDiscarded ∧ Claims.ReleaseUnsealsTheRegion ∧ Claims.SealSignalReachesTheEngines

/-- Varve marks take the snapshot and become records. -/
def Obligations.VarveMarksBecomeRecords : Prop :=
  Claims.VarveMarkTakesTheSnapshot ∧ Claims.VarveRecordEntersTheRing ∧ Claims.VarveRecordWaitsOrIsLost

/-- Reservoir reads and writes, and link flits with bad CRC. -/
def Obligations.ReservoirAccesses : Prop :=
  Claims.ReservoirReadReturnsTheBytes ∧ Claims.ReservoirWriteStoresTheEnabledBytes ∧ Claims.BadFlitIsReplayedAndCounted

/-- Channel descriptors and channel resets. -/
def Obligations.ChannelsStartAndReset : Prop :=
  Claims.ChannelWriteStartsEmptyOrIsRefused ∧ Claims.ResetChannelEmptiesAnEnabledChannel

/-- A PUSH stores its item, is refused or is discarded. -/
def Obligations.PushStoresRefusesOrDiscards : Prop :=
  Claims.PushStoresRefusesOrDiscards

/-- POP, PEEK, COUNT and DROP_PACKET answer. -/
def Obligations.PopPeekCountAndDropAnswer : Prop :=
  Claims.PopPeekAndCountAnswer ∧ Claims.DropPacketRemovesOnePacket

/-- Storage done, channels out of service, and the Sluice ports of cores. -/
def Obligations.SluiceStorageAnswers : Prop :=
  Claims.StorageDoneAnswersAndResumes ∧ Claims.DisabledOrFailedChannelAppliesNothing ∧ Claims.SluicePortCarriesCommands

/-- FT_TICK advances time and the accumulator. -/
def Obligations.TicksAdvanceTime : Prop :=
  Claims.TickAdvancesTime

/-- The fault records of a cycle are written in order of unit and code. -/
def Obligations.RecordsAreWrittenInOrder : Prop :=
  Claims.RecordsOfACycleAreWrittenInOrder

/-- Samples and edges move the timebase by its state. -/
def Obligations.SamplesMoveTheTimebase : Prop :=
  Claims.SamplesMoveTheTimebase

/-- Silence means holdover, and a change of source never steps time. -/
def Obligations.TimeNeverSteps : Prop :=
  Claims.SilenceMeansHoldoverThenLost ∧ Claims.SourceChangeNeverStepsTime

/-- Turn registers, turn boundaries and counter windows. -/
def Obligations.TurnsAndWindows : Prop :=
  Claims.TurnWritesKeepTheTurn ∧ Claims.TurnBoundaryChangesTheLengthWhenArmed ∧ Claims.WindowCloseDrainsTheBuckets

/-- Layer descriptors and zones are checked as they are written. -/
def Obligations.LayersAndZonesAreChecked : Prop :=
  Claims.LayerDescriptorIsCheckedOnWrite ∧ Claims.ZoneWriteKeepsNodesDistinct

/-- ROUTE_DECISION and RANK_ROUND. -/
def Obligations.RoutingDecidesByScoreAndCapacity : Prop :=
  Claims.RouteDecisionDecidesOneToken ∧ Claims.RankRoundFillsCapacityBestFirst

/-- SORT_AND_DISPATCH builds the lists, and a gateway relays. -/
def Obligations.ListsAreBuiltAndRelayed : Prop :=
  Claims.SortAndDispatchBuildsTheLists ∧ Claims.GatewayRelaySendsWhatWaits

/-- Shape records, done items, combining and the deadline. -/
def Obligations.StepsEndAndCombine : Prop :=
  Claims.ShapeRecordsTakesTheStepUp ∧ Claims.DoneItemEndsItsSlot ∧ Claims.CombineOrDeadlineEndsTheStep

/-- Placement loads start, wait and end. -/
def Obligations.PlacementLoads : Prop :=
  Claims.PlaceLoadStartsOrWaits ∧ Claims.PlaceLoadEndsAndTheNextStarts

/-- Cores start, fence, and trap LR and SC. -/
def Obligations.CoresRunAndFence : Prop :=
  Claims.CoreRunStartsCores ∧ Claims.FenceWaitsAndLrScTraps

/-- Push windows fill their queues, and buffer commands follow the states. -/
def Obligations.ClusterQueuesAndBuffers : Prop :=
  Claims.PushesEnterTheirQueues ∧ Claims.BufferCommandsFollowTheStates

/-- MATMUL issues, waits or is invalid. -/
def Obligations.MatmulIssuesByItsRule : Prop :=
  Claims.MatmulIssuesByItsRule

/-- The fifteen vector commands. -/
def Obligations.VectorCommandsIssueInOrder : Prop :=
  Claims.VectorCommandsIssueInOrder

/-- The five Flume commands and the DMA engines. -/
def Obligations.FlumeAndDmaCommands : Prop :=
  Claims.FlumeCommandsIssueInOrder ∧ Claims.DmaStartsAndCompletes

/-- Retirement fills the output buffers and interrupts. -/
def Obligations.RetirementFillsTheOutputs : Prop :=
  Claims.RetirementFillsTheOutputs

/-- Ports are enabled, brought up and retrained. -/
def Obligations.PortsComeUpAndRetrain : Prop :=
  Claims.EnableStartsOrEndsAPort ∧ Claims.BringUpAdvancesInOrder ∧ Claims.McuReloadPausesTraining ∧ Claims.CdrLossRetrains

/-- LLDP identity decides forwarding, and frames hand their cell over once. -/
def Obligations.IdentityAndFrames : Prop :=
  Claims.IdentityDecidesForwarding ∧ Claims.FramesHandTheirCellOnce

/-- A forwarding slot moves, injects and fills. -/
def Obligations.SlotsForwardAndInject : Prop :=
  Claims.SlotMovesATransitCell ∧ Claims.SlotInjectsAndFillsIdleOutputs

/-- Switched packets, PFC, neighbours and PTP messages. -/
def Obligations.SwitchedPortsCarryPackets : Prop :=
  Claims.DataPacketsAreTakenOnce ∧ Claims.PacketsAreSentAcknowledgedAndResent ∧ Claims.PauseIsCountedAndSolicitationAnswered ∧
  Claims.PtpMessagesSampleAndRelay

/-- Operations are refused, become cells, or are done at once. -/
def Obligations.OperationsAreIssued : Prop :=
  Claims.RefusedOperationsFailAtTheSource ∧ Claims.AcceptedOperationsBecomeCells ∧ Claims.LocalOperationsAreDoneAtOnce

/-- The atomic port, and requests served at their target. -/
def Obligations.RequestsAreServed : Prop :=
  Claims.AtomicPortIssuesOneAtATime ∧ Claims.RequestsAreServedInTheirTurn ∧ Claims.RequestsAreServedAtTheirTarget

/-- Answers, acknowledgements and T_DEAD. -/
def Obligations.AnswersCloseOperations : Prop :=
  Claims.AnswersCloseTheirEntry ∧ Claims.AckLeavesAfterItsDelay ∧ Claims.TargetIsLostAtTDead

/-- Collectives are checked, interrupt, move their chunks, finish and time out. -/
def Obligations.CollectivesStartAndEnd : Prop :=
  Claims.LaunchIsCheckedAndStarts ∧ Claims.CollectiveInterruptWaitsForQuiet ∧ Claims.LastFinishCompletesTheCollective ∧
  Claims.CollectiveDeadlineEndsIt ∧ Claims.ChunkStaysUntilAcknowledged ∧ Claims.ChunkHeadersAndAcksAreLaidOut ∧
  Claims.CanonicalSumIsTheFixedTree

/-- Travo Link flits, snoops and line answers. -/
def Obligations.CompanionMemoryStaysCoherent : Prop :=
  Claims.FlitsAreAcknowledgedAndReplayed ∧ Claims.SnoopsAreAnswered ∧ Claims.LineAnswersCompleteWhatWaits

/-- Uncached reads and writes. -/
def Obligations.UncachedAccessesAreAnswered : Prop :=
  Claims.UncachedReadsAreAnswered ∧ Claims.UncachedWritesAreAcknowledged

/-- Rings, doorbells and polls. -/
def Obligations.RingsMoveByDoorbells : Prop :=
  Claims.RingStartsEmptyOrIsRefused ∧ Claims.DoorbellsMoveTheirPointer ∧ Claims.PollReturnsTheOldestEntry

/-- Requests are consumed, checked and act by their operation. -/
def Obligations.RequestsAreAdmitted : Prop :=
  Claims.RequestsAreConsumedAndChecked ∧ Claims.RequestsActByTheirOp

/-- Steps, returns, commits and the event ring. -/
def Obligations.RequestsRunAndCommit : Prop :=
  Claims.ReturnItemCommitsItsCall ∧ Claims.StepBoundaryGrantsAndAdvances ∧ Claims.CommitEndsAFinishedRequest ∧
  Claims.BufferedRecordEntersTheEventRing ∧ Claims.FaultRecordsKeepTheirFields

/-- Tile boundaries retire and stop; mode writes are marked. -/
def Obligations.TileBoundariesAndModes : Prop :=
  Claims.TileBoundaryRetiresAndStops ∧ Claims.ModeWritesAreMarked

/-- Job switches from boundary to resume, and swaps. -/
def Obligations.JobsSwitchAndSwap : Prop :=
  Claims.SwitchStopsAndDrains ∧ Claims.SaveEndsTheOutgoingJob ∧ Claims.ReloadStartsTheIncomingJob ∧ Claims.SwapMovesAContext

/-- Patrol scrubbing and HBM accesses. -/
def Obligations.StorageIsScrubbedAndRead : Prop :=
  Claims.ScrubCorrectsOrPoisons ∧ Claims.HbmAccessesAreAnswered

/-- Heartbeat, Watermaster recovery and retirement. -/
def Obligations.RecoveryAndRetirement : Prop :=
  Claims.HeartbeatWritesCountAndTime ∧ Claims.WatermasterRecoveryStopsTheJobs ∧ Claims.RetirementIsAskedForAndKept

/-- Boot checks the descriptor and verifies the image. -/
def Obligations.BootChecksAndVerifies : Prop :=
  Claims.BootStopsAtTheFirstFailedCheck ∧ Claims.BootTakesTheDescriptorAndTheImage ∧ Claims.RecoveryRepeatsTheImageSteps

/-- The fused minimum SVN rises by SEC_SVN_BURN alone, and for good. -/
def Obligations.FusedMinimumOnlyRises : Prop :=
  Claims.SvnBurnRaisesTheFusedMinimum ∧ Claims.FusesArePermanent

/-- Management frames are checked, and the handshake opens the channel. -/
def Obligations.ManagementChannelOpens : Prop :=
  Claims.FramesAreTakenAndChecked ∧ Claims.FirmwareWorkGoesInOrder ∧ Claims.HelloStartsAHandshake ∧ Claims.AcceptOpensTheChannel

/-- SET, GET, ATTEST and TIME_ANNOUNCE. -/
def Obligations.ManagementFramesAreServed : Prop :=
  Claims.SetAppliesItsWritesInOrder ∧ Claims.GetReadsSetup ∧ Claims.ReportsAreQueuedAndSigned ∧ Claims.TimeAnnounceGivesTheTime

/-- START, QUIESCE and the end of a teardown. -/
def Obligations.JobsStartAndAreTornDown : Prop :=
  Claims.StartRunsTheJobOnAMatch ∧ Claims.QuiesceStopsTheJob ∧ Claims.TeardownScrubsAndUntags

/-- Launch broadcast. -/
def Obligations.LaunchesAreBroadcast : Prop :=
  Claims.LaunchIsTaken ∧ Claims.NoticesAreVerified ∧ Claims.ListNoticesAreVerified ∧ Claims.MissingAcksAreResentThenReported ∧
  Claims.OrphansMoveAndLaunchesAbort

/-- The governor, clock steps and safe hold. -/
def Obligations.ClockFollowsItsDemands : Prop :=
  Claims.GovernorChoosesTheHighestDemand ∧ Claims.StepUpWaitsForTheRegulator ∧ Claims.FaultsOfSupplyHoldTheSafeClock

/-- Temperature, the supply and the SMBus sideband. -/
def Obligations.TemperatureResetAndSideband : Prop :=
  Claims.TemperatureIsShownAndTrips ∧ Claims.PowerResetKeepsOnlyTheFuses ∧ Claims.SidebandServesAfterFiveMilliseconds

/-- Every step keeps memory canonical. -/
def Obligations.MemoryStaysCanonical : Prop :=
  Claims.MemoryStaysCanonical

/-- Valid time, the lock, retirement and a trip last until reset. -/
def Obligations.WhatLastsUntilReset : Prop :=
  Claims.WhatLastsUntilReset
end

