-- ==== Sys2Proof/Laws/Table.lean ====
section
/-! SUPPORT. Laws of sparse tables and of memory: reading after writing, and the canonical form. -/

namespace Sys2Proof.Machine

-- Reading after writing ----------------------------------------------------------------------------------------------

section
variable {α : Type}

@[simp] theorem tblFind_nil (k : Nat) : tblFind k ([] : List (Nat × α)) = none := rfl

theorem tblFind_cons (k a : Nat) (x : α) (t : List (Nat × α)) :
    tblFind k ((a, x) :: t) = if a = k then some x else tblFind k t := rfl

@[simp] theorem tblFind_tblSet_self (k : Nat) (v : α) (t : List (Nat × α)) : tblFind k (tblSet k v t) = some v := by
  induction t with
  | nil => simp [tblSet, tblFind_cons]
  | cons e t ih =>
    obtain ⟨a, x⟩ := e
    simp only [tblSet]
    split
    · simp [tblFind_cons]
    · split
      · simp [tblFind_cons]
      · rename_i h _
        simp [tblFind_cons, h, ih]

theorem tblFind_tblSet_ne {k j : Nat} (h : j ≠ k) (v : α) (t : List (Nat × α)) :
    tblFind j (tblSet k v t) = tblFind j t := by
  induction t with
  | nil => simp [tblSet, tblFind_cons, Ne.symm h]
  | cons e t ih =>
    obtain ⟨a, x⟩ := e
    simp only [tblSet]
    split
    · subst_vars
      simp [tblFind_cons, Ne.symm h]
    · split
      · simp [tblFind_cons, Ne.symm h]
      · simp [tblFind_cons, ih]

@[simp] theorem tblFind_tblErase_self (k : Nat) (t : List (Nat × α)) : tblFind k (tblErase k t) = none := by
  induction t with
  | nil => rfl
  | cons e t ih =>
    obtain ⟨a, x⟩ := e
    simp only [tblErase]
    split
    · exact ih
    · rename_i h
      simp [tblFind_cons, h, ih]

theorem tblFind_tblErase_ne {k j : Nat} (h : j ≠ k) (t : List (Nat × α)) : tblFind j (tblErase k t) = tblFind j t := by
  induction t with
  | nil => rfl
  | cons e t ih =>
    obtain ⟨a, x⟩ := e
    simp only [tblErase]
    split
    · subst_vars
      simp [tblFind_cons, Ne.symm h, ih]
    · simp [tblFind_cons, ih]

@[simp] theorem tblGetD_tblSet_self (k : Nat) (d v : α) (t : List (Nat × α)) : tblGetD k d (tblSet k v t) = v := by
  simp [tblGetD]

theorem tblGetD_tblSet_ne {k j : Nat} (h : j ≠ k) (d v : α) (t : List (Nat × α)) :
    tblGetD j d (tblSet k v t) = tblGetD j d t := by
  simp [tblGetD, tblFind_tblSet_ne h]

@[simp] theorem tblGetD_tblErase_self (k : Nat) (d : α) (t : List (Nat × α)) : tblGetD k d (tblErase k t) = d := by
  simp [tblGetD]

theorem tblGetD_tblErase_ne {k j : Nat} (h : j ≠ k) (d : α) (t : List (Nat × α)) :
    tblGetD j d (tblErase k t) = tblGetD j d t := by
  simp [tblGetD, tblFind_tblErase_ne h]

variable [DecidableEq α]

/-- A key reads as it was put. -/
@[simp] theorem tblGetD_tblPut_self (k : Nat) (d v : α) (t : List (Nat × α)) : tblGetD k d (tblPut k d v t) = v := by
  unfold tblPut
  split
  · simp_all
  · simp

/-- Every other key reads as before. -/
theorem tblGetD_tblPut_ne {k j : Nat} (h : j ≠ k) (c d v : α) (t : List (Nat × α)) :
    tblGetD j c (tblPut k d v t) = tblGetD j c t := by
  unfold tblPut
  split
  · exact tblGetD_tblErase_ne h c t
  · exact tblGetD_tblSet_ne h c v t

-- The canonical form -------------------------------------------------------------------------------------------------

/-- The canonical form, as a pairwise order and a property of every entry. -/
theorem tblWf_iff (d : α) (t : List (Nat × α)) :
    tblWf d t = true ↔ t.Pairwise (fun a b => a.1 < b.1) ∧ ∀ e ∈ t, e.2 ≠ d := by
  induction t with
  | nil => simp [tblWf]
  | cons e t ih =>
    obtain ⟨a, x⟩ := e
    cases t with
    | nil => simp [tblWf]
    | cons f t =>
      obtain ⟨b, y⟩ := f
      simp only [tblWf, Bool.and_eq_true, decide_eq_true_eq, ih]
      constructor
      · rintro ⟨⟨hab, hx⟩, hp, hd⟩
        refine ⟨List.pairwise_cons.2 ⟨?_, hp⟩, ?_⟩
        · intro e he
          rcases List.mem_cons.1 he with rfl | he
          · exact hab
          · exact Nat.lt_trans hab ((List.pairwise_cons.1 hp).1 e he)
        · intro e he
          rcases List.mem_cons.1 he with rfl | he
          · exact hx
          · exact hd e he
      · rintro ⟨hp, hd⟩
        have hp' := List.pairwise_cons.1 hp
        exact ⟨⟨hp'.1 (b, y) (by simp), hd (a, x) (by simp)⟩, hp'.2, fun e he => hd e (List.mem_cons_of_mem _ he)⟩

omit [DecidableEq α] in
theorem mem_tblErase {k : Nat} {t : List (Nat × α)} {e : Nat × α} (h : e ∈ tblErase k t) : e ∈ t := by
  induction t with
  | nil => exact h
  | cons f t ih =>
    obtain ⟨a, x⟩ := f
    simp only [tblErase] at h
    split at h
    · exact List.mem_cons_of_mem _ (ih h)
    · rcases List.mem_cons.1 h with rfl | h
      · simp
      · exact List.mem_cons_of_mem _ (ih h)

omit [DecidableEq α] in
theorem mem_tblSet {k : Nat} {v : α} {t : List (Nat × α)} {e : Nat × α} (h : e ∈ tblSet k v t) : e = (k, v) ∨ e ∈ t := by
  induction t with
  | nil => simpa [tblSet] using h
  | cons f t ih =>
    obtain ⟨a, x⟩ := f
    simp only [tblSet] at h
    split at h
    · rcases List.mem_cons.1 h with rfl | h
      · exact .inl rfl
      · exact .inr (List.mem_cons_of_mem _ h)
    · split at h
      · rcases List.mem_cons.1 h with rfl | h
        · exact .inl rfl
        · exact .inr h
      · rcases List.mem_cons.1 h with rfl | h
        · exact .inr (by simp)
        · rcases ih h with rfl | h
          · exact .inl rfl
          · exact .inr (List.mem_cons_of_mem _ h)

theorem tblErase_wf {d : α} {t : List (Nat × α)} (k : Nat) (h : tblWf d t = true) : tblWf d (tblErase k t) = true := by
  rw [tblWf_iff] at h ⊢
  refine ⟨?_, fun e he => h.2 e (mem_tblErase he)⟩
  have hp := h.1
  clear h
  induction t with
  | nil => exact hp
  | cons f t ih =>
    obtain ⟨a, x⟩ := f
    have hp' := List.pairwise_cons.1 hp
    simp only [tblErase]
    split
    · exact ih hp'.2
    · exact List.pairwise_cons.2 ⟨fun e he => hp'.1 e (mem_tblErase he), ih hp'.2⟩

theorem tblSet_wf {d v : α} {t : List (Nat × α)} (k : Nat) (hv : v ≠ d) (h : tblWf d t = true) :
    tblWf d (tblSet k v t) = true := by
  rw [tblWf_iff] at h ⊢
  refine ⟨?_, fun e he => (mem_tblSet he).elim (fun h' => by rw [h']; exact hv) (h.2 e)⟩
  have hp := h.1
  clear h
  induction t with
  | nil => simp [tblSet]
  | cons f t ih =>
    obtain ⟨a, x⟩ := f
    have hp' := List.pairwise_cons.1 hp
    simp only [tblSet]
    split
    · subst_vars
      exact List.pairwise_cons.2 ⟨fun e he => hp'.1 e he, hp'.2⟩
    · split
      · rename_i hk
        refine List.pairwise_cons.2 ⟨fun e he => ?_, hp⟩
        rcases List.mem_cons.1 he with rfl | he
        · exact hk
        · exact Nat.lt_trans hk (hp'.1 e he)
      · rename_i h1 h2
        refine List.pairwise_cons.2 ⟨fun e he => ?_, ih hp'.2⟩
        rcases mem_tblSet he with rfl | he
        · show a < k
          omega
        · exact hp'.1 e he

theorem tblPut_wf {d : α} {t : List (Nat × α)} (k : Nat) (v : α) (h : tblWf d t = true) :
    tblWf d (tblPut k d v t) = true := by
  unfold tblPut
  split
  · exact tblErase_wf k h
  · exact tblSet_wf k ‹_› h

end

-- Memory -------------------------------------------------------------------------------------------------------------

@[simp] theorem memByte_memPutByte_self (m : Memory) (a : Nat) (b : Byte) : memByte (memPutByte m a b) a = b := by
  simp [memByte, memPutByte]

theorem memByte_memPutByte_ne {a c : Nat} (h : c ≠ a) (m : Memory) (b : Byte) :
    memByte (memPutByte m a b) c = memByte m c := tblGetD_tblPut_ne h 0 0 b m

/-- A byte outside the range written reads as before. -/
theorem memByte_memPutBytes_out (bs : List Byte) : ∀ (m : Memory) (a c : Nat), c < a ∨ a + bs.length ≤ c →
    memByte (memPutBytes m a bs) c = memByte m c := by
  induction bs with
  | nil => intros; rfl
  | cons b bs ih =>
    intro m a c h
    simp only [List.length_cons] at h
    rw [memPutBytes, ih _ _ _ (by omega), memByte_memPutByte_ne (by omega)]

/-- A byte inside the range written reads as it was written. -/
theorem memByte_memPutBytes_in (bs : List Byte) : ∀ (m : Memory) (a i : Nat), i < bs.length →
    memByte (memPutBytes m a bs) (a + i) = bs.getD i 0 := by
  induction bs with
  | nil => intro m a i h; simp at h
  | cons b bs ih =>
    intro m a i h
    cases i with
    | zero => rw [memPutBytes, memByte_memPutBytes_out _ _ _ _ (by omega)]; simp
    | succ i =>
      have := ih (memPutByte m a b) (a + 1) i (by simpa using h)
      rw [memPutBytes, show a + (i + 1) = a + 1 + i by omega, this]
      simp

@[simp] theorem memBytes_length (m : Memory) (a n : Nat) : (memBytes m a n).length = n := by
  induction n generalizing a with
  | zero => rfl
  | succ n ih => simp [memBytes, ih]

theorem memBytes_congr {m m' : Memory} {a n : Nat} (h : ∀ c, a ≤ c → c < a + n → memByte m c = memByte m' c) :
    memBytes m a n = memBytes m' a n := by
  induction n generalizing a with
  | zero => rfl
  | succ n ih =>
    simp only [memBytes]
    rw [h a (by omega) (by omega), ih fun c hc hd => h c (by omega) (by omega)]

/-- Reading back a range just written gives what was written. -/
theorem memBytes_memPutBytes (bs : List Byte) : ∀ (m : Memory) (a : Nat), memBytes (memPutBytes m a bs) a bs.length = bs := by
  induction bs with
  | nil => intros; rfl
  | cons b bs ih =>
    intro m a
    simp only [List.length_cons, memBytes, memPutBytes]
    rw [ih, memByte_memPutBytes_out _ _ _ _ (by omega)]
    simp

-- Every memory operation keeps the canonical form.

theorem memPutByte_wf {m : Memory} (a : Nat) (b : Byte) (h : Memory.wf m = true) : Memory.wf (memPutByte m a b) = true :=
  tblPut_wf a b h

theorem memPutBytes_wf (bs : List Byte) : ∀ {m : Memory} (a : Nat), Memory.wf m = true → Memory.wf (memPutBytes m a bs) = true := by
  induction bs with
  | nil => intro m a h; exact h
  | cons b bs ih => intro m a h; exact ih _ (memPutByte_wf a b h)

theorem memPutNat_wf {m : Memory} (a n v : Nat) (h : Memory.wf m = true) : Memory.wf (memPutNat m a n v) = true :=
  memPutBytes_wf _ _ h

theorem memPutMasked_wf (bs : List Byte) :
    ∀ {m : Memory} (a be : Nat), Memory.wf m = true → Memory.wf (memPutMasked m a be bs) = true := by
  induction bs with
  | nil => intro m a be h; exact h
  | cons b bs ih =>
    intro m a be h
    unfold memPutMasked
    refine ih _ _ ?_
    split
    · exact memPutByte_wf a b h
    · exact h

theorem memZero_wf {m : Memory} (a n : Nat) (h : Memory.wf m = true) : Memory.wf (memZero m a n) = true := by
  have h' := (tblWf_iff _ _).1 h
  refine (tblWf_iff _ _).2 ⟨h'.1.filter _, fun e he => h'.2 e ?_⟩
  exact (List.mem_filter.1 he).1

-- Little-endian bytes ------------------------------------------------------------------------------------------------

@[simp] theorem leBytes_length (n v : Nat) : (leBytes n v).length = n := by
  induction n generalizing v with
  | zero => rfl
  | succ n ih => simp [leBytes, ih]

/-- The number that the bytes of a number spell. -/
@[simp] theorem leNat_leBytes (n v : Nat) : leNat (leBytes n v) = v % 2 ^ (8 * n) := by
  induction n generalizing v with
  | zero => simp [leBytes, leNat, Nat.mod_one]
  | succ n ih =>
    simp only [leBytes, leNat, ih, BitVec.toNat_ofNat]
    rw [show 8 * (n + 1) = 8 + 8 * n by omega, Nat.pow_add, show (256 : Nat) = 2 ^ 8 by rfl, Nat.mod_mul]

end Sys2Proof.Machine
end

