-- ==== Sys2Proof/Laws/Memory.lean ====
section
/-! SUPPORT. Laws of the memory operations on states and ranges: each keeps the canonical form, and reads back what it wrote. -/

namespace Sys2Proof.Machine

/-- Leaving entries out keeps the canonical form. -/
theorem Memory.filter_wf {m : Memory} (p : Host.Cell → Bool) (h : Memory.wf m = true) : Memory.wf (m.filter p) = true := by
  have h' := (tblWf_iff _ _).1 h
  exact (tblWf_iff _ _).2 ⟨h'.1.filter _, fun e he => h'.2 e (List.mem_of_mem_filter he)⟩

theorem Memory.nil_wf : Memory.wf [] = true := rfl

/-- Placing cells one by one keeps the canonical form. -/
theorem memPutCells_wf (cs : List Host.Cell) :
    ∀ {m : Memory}, Memory.wf m = true → Memory.wf (cs.foldl (fun t c => memPutByte t c.1 c.2) m) = true := by
  induction cs with
  | nil => exact fun h => h
  | cons c cs ih => exact fun h => ih (memPutByte_wf c.1 c.2 h)

/-- Replacing a range keeps the canonical form. -/
theorem memReplace_wf {m : Memory} (dst n : Nat) (cs : List Host.Cell) (h : Memory.wf m = true) :
    Memory.wf (memReplace m dst n cs) = true :=
  memPutCells_wf cs (memZero_wf dst n h)

/-- A zeroed byte reads 0. -/
theorem memByte_memZero_in {a n c : Nat} (m : Memory) (h : a ≤ c) (h' : c < a + n) : memByte (memZero m a n) c = 0 := by
  induction m with
  | nil => rfl
  | cons e m ih =>
    obtain ⟨k, b⟩ := e
    unfold memByte tblGetD memZero at *
    by_cases hk : k = c
    · subst hk
      simpa [h, h'] using ih
    · by_cases hin : a ≤ k ∧ k < a + n
      · simpa [hin.1, hin.2] using ih
      · rw [List.filter_cons_of_pos (by simp; omega), tblFind_cons, if_neg hk]
        exact ih

/-- Every other byte reads as before. -/
theorem memByte_memZero_out {a n c : Nat} (m : Memory) (h : c < a ∨ a + n ≤ c) : memByte (memZero m a n) c = memByte m c := by
  induction m with
  | nil => rfl
  | cons e m ih =>
    obtain ⟨k, b⟩ := e
    unfold memByte tblGetD memZero at *
    by_cases hin : a ≤ k ∧ k < a + n
    · have hk : k ≠ c := by omega
      rw [List.filter_cons_of_neg (by simp [hin.1, hin.2]), tblFind_cons c k, if_neg hk]
      exact ih
    · rw [List.filter_cons_of_pos (by simp; omega), tblFind_cons, tblFind_cons]
      split
      · rfl
      · exact ih

-- Operations on a state ----------------------------------------------------------------------------------------------

theorem State.dropMarks_mem (s : State) (a n : Nat) : (s.dropMarks a n).mem = s.mem := rfl

theorem State.poisonWord_mem (s : State) (k : Nat) : (s.poisonWord k).mem = memZero s.mem k (wordSize k) := rfl

theorem State.tearScrub_mem_wf {s : State} (h : Memory.wf s.mem = true) : Memory.wf s.tearScrub.mem = true :=
  Memory.filter_wf _ h

/-- Memory lists nothing after reset, and so has the canonical form. -/
theorem State.reset_mem_wf : Memory.wf State.reset.mem = true ∧ Memory.wf State.reset.tl.cmem = true := ⟨rfl, rfl⟩

end Sys2Proof.Machine
end

