-- ==== Sys2Proof/Laws/State.lean ====
section
/-! SUPPORT. What each named update of State leaves alone, field by field, and what a scope lets through. -/

namespace Sys2Proof.Machine

-- Scopes

@[simp] theorem State.keep_fuses (w : List Part) (s t : State) : (s.keep w t).fuses = if Part.fuses ∈ w then t.fuses else s.fuses := rfl
@[simp] theorem State.keep_clock (w : List Part) (s t : State) : (s.keep w t).clock = if Part.clock ∈ w then t.clock else s.clock := rfl
@[simp] theorem State.keep_tb (w : List Part) (s t : State) : (s.keep w t).tb = if Part.tb ∈ w then t.tb else s.tb := rfl
@[simp] theorem State.keep_lock (w : List Part) (s t : State) : (s.keep w t).lock = if Part.lock ∈ w then t.lock else s.lock := rfl
@[simp] theorem State.keep_present (w : List Part) (s t : State) : (s.keep w t).present = if Part.present ∈ w then t.present else s.present := rfl
@[simp] theorem State.keep_regs (w : List Part) (s t : State) : (s.keep w t).regs = if Part.regs ∈ w then t.regs else s.regs := rfl
@[simp] theorem State.keep_mem (w : List Part) (s t : State) : (s.keep w t).mem = if Part.mem ∈ w then t.mem else s.mem := rfl
@[simp] theorem State.keep_marks (w : List Part) (s t : State) : (s.keep w t).marks = if Part.marks ∈ w then t.marks else s.marks := rfl
@[simp] theorem State.keep_ecc (w : List Part) (s t : State) : (s.keep w t).ecc = if Part.ecc ∈ w then t.ecc else s.ecc := rfl
@[simp] theorem State.keep_rsv (w : List Part) (s t : State) : (s.keep w t).rsv = if Part.rsv ∈ w then t.rsv else s.rsv := rfl
@[simp] theorem State.keep_banks (w : List Part) (s t : State) : (s.keep w t).banks = if Part.banks ∈ w then t.banks else s.banks := rfl
@[simp] theorem State.keep_chans (w : List Part) (s t : State) : (s.keep w t).chans = if Part.chans ∈ w then t.chans else s.chans := rfl
@[simp] theorem State.keep_hg (w : List Part) (s t : State) : (s.keep w t).hg = if Part.hg ∈ w then t.hg else s.hg := rfl
@[simp] theorem State.keep_fab (w : List Part) (s t : State) : (s.keep w t).fab = if Part.fab ∈ w then t.fab else s.fab := rfl
@[simp] theorem State.keep_ports (w : List Part) (s t : State) : (s.keep w t).ports = if Part.ports ∈ w then t.ports else s.ports := rfl
@[simp] theorem State.keep_cores (w : List Part) (s t : State) : (s.keep w t).cores = if Part.cores ∈ w then t.cores else s.cores := rfl
@[simp] theorem State.keep_cls (w : List Part) (s t : State) : (s.keep w t).cls = if Part.cls ∈ w then t.cls else s.cls := rfl
@[simp] theorem State.keep_col (w : List Part) (s t : State) : (s.keep w t).col = if Part.col ∈ w then t.col else s.col := rfl
@[simp] theorem State.keep_tl (w : List Part) (s t : State) : (s.keep w t).tl = if Part.tl ∈ w then t.tl else s.tl := rfl
@[simp] theorem State.keep_sw (w : List Part) (s t : State) : (s.keep w t).sw = if Part.sw ∈ w then t.sw else s.sw := rfl
@[simp] theorem State.keep_boot (w : List Part) (s t : State) : (s.keep w t).boot = if Part.boot ∈ w then t.boot else s.boot := rfl
@[simp] theorem State.keep_pwr (w : List Part) (s t : State) : (s.keep w t).pwr = if Part.pwr ∈ w then t.pwr else s.pwr := rfl
@[simp] theorem State.keep_mg (w : List Part) (s t : State) : (s.keep w t).mg = if Part.mg ∈ w then t.mg else s.mg := rfl
@[simp] theorem State.keep_flt (w : List Part) (s t : State) : (s.keep w t).flt = if Part.flt ∈ w then t.flt else s.flt := rfl
@[simp] theorem State.keep_out (w : List Part) (s t : State) : (s.keep w t).out = if Part.out ∈ w then t.out else s.out := rfl
@[simp] theorem State.keep_free (w : List Part) (s t : State) : (s.keep w t).free = if Part.free ∈ w then t.free else s.free := rfl
@[simp] theorem State.keep_pending (w : List Part) (s t : State) : (s.keep w t).pending = s.pending := rfl

-- setReg

@[simp] theorem State.setReg_fuses (s : State) (a v : Nat) : (s.setReg a v).fuses = s.fuses := rfl
@[simp] theorem State.setReg_clock (s : State) (a v : Nat) : (s.setReg a v).clock = s.clock := rfl
@[simp] theorem State.setReg_tb (s : State) (a v : Nat) : (s.setReg a v).tb = s.tb := rfl
@[simp] theorem State.setReg_lock (s : State) (a v : Nat) : (s.setReg a v).lock = s.lock := rfl
@[simp] theorem State.setReg_present (s : State) (a v : Nat) : (s.setReg a v).present = s.present := rfl
@[simp] theorem State.setReg_mem (s : State) (a v : Nat) : (s.setReg a v).mem = s.mem := rfl
@[simp] theorem State.setReg_marks (s : State) (a v : Nat) : (s.setReg a v).marks = s.marks := rfl
@[simp] theorem State.setReg_ecc (s : State) (a v : Nat) : (s.setReg a v).ecc = s.ecc := rfl
@[simp] theorem State.setReg_rsv (s : State) (a v : Nat) : (s.setReg a v).rsv = s.rsv := rfl
@[simp] theorem State.setReg_banks (s : State) (a v : Nat) : (s.setReg a v).banks = s.banks := rfl
@[simp] theorem State.setReg_chans (s : State) (a v : Nat) : (s.setReg a v).chans = s.chans := rfl
@[simp] theorem State.setReg_hg (s : State) (a v : Nat) : (s.setReg a v).hg = s.hg := rfl
@[simp] theorem State.setReg_fab (s : State) (a v : Nat) : (s.setReg a v).fab = s.fab := rfl
@[simp] theorem State.setReg_ports (s : State) (a v : Nat) : (s.setReg a v).ports = s.ports := rfl
@[simp] theorem State.setReg_cores (s : State) (a v : Nat) : (s.setReg a v).cores = s.cores := rfl
@[simp] theorem State.setReg_cls (s : State) (a v : Nat) : (s.setReg a v).cls = s.cls := rfl
@[simp] theorem State.setReg_col (s : State) (a v : Nat) : (s.setReg a v).col = s.col := rfl
@[simp] theorem State.setReg_tl (s : State) (a v : Nat) : (s.setReg a v).tl = s.tl := rfl
@[simp] theorem State.setReg_sw (s : State) (a v : Nat) : (s.setReg a v).sw = s.sw := rfl
@[simp] theorem State.setReg_boot (s : State) (a v : Nat) : (s.setReg a v).boot = s.boot := rfl
@[simp] theorem State.setReg_pwr (s : State) (a v : Nat) : (s.setReg a v).pwr = s.pwr := rfl
@[simp] theorem State.setReg_mg (s : State) (a v : Nat) : (s.setReg a v).mg = s.mg := rfl
@[simp] theorem State.setReg_flt (s : State) (a v : Nat) : (s.setReg a v).flt = s.flt := rfl
@[simp] theorem State.setReg_out (s : State) (a v : Nat) : (s.setReg a v).out = s.out := rfl
@[simp] theorem State.setReg_free (s : State) (a v : Nat) : (s.setReg a v).free = s.free := rfl
@[simp] theorem State.setReg_pending (s : State) (a v : Nat) : (s.setReg a v).pending = s.pending := rfl

-- setFld

@[simp] theorem State.setFld_fuses (s : State) (a : Nat) (f : BitField) (v : Nat) : (s.setFld a f v).fuses = s.fuses := rfl
@[simp] theorem State.setFld_clock (s : State) (a : Nat) (f : BitField) (v : Nat) : (s.setFld a f v).clock = s.clock := rfl
@[simp] theorem State.setFld_tb (s : State) (a : Nat) (f : BitField) (v : Nat) : (s.setFld a f v).tb = s.tb := rfl
@[simp] theorem State.setFld_lock (s : State) (a : Nat) (f : BitField) (v : Nat) : (s.setFld a f v).lock = s.lock := rfl
@[simp] theorem State.setFld_present (s : State) (a : Nat) (f : BitField) (v : Nat) : (s.setFld a f v).present = s.present := rfl
@[simp] theorem State.setFld_mem (s : State) (a : Nat) (f : BitField) (v : Nat) : (s.setFld a f v).mem = s.mem := rfl
@[simp] theorem State.setFld_marks (s : State) (a : Nat) (f : BitField) (v : Nat) : (s.setFld a f v).marks = s.marks := rfl
@[simp] theorem State.setFld_ecc (s : State) (a : Nat) (f : BitField) (v : Nat) : (s.setFld a f v).ecc = s.ecc := rfl
@[simp] theorem State.setFld_rsv (s : State) (a : Nat) (f : BitField) (v : Nat) : (s.setFld a f v).rsv = s.rsv := rfl
@[simp] theorem State.setFld_banks (s : State) (a : Nat) (f : BitField) (v : Nat) : (s.setFld a f v).banks = s.banks := rfl
@[simp] theorem State.setFld_chans (s : State) (a : Nat) (f : BitField) (v : Nat) : (s.setFld a f v).chans = s.chans := rfl
@[simp] theorem State.setFld_hg (s : State) (a : Nat) (f : BitField) (v : Nat) : (s.setFld a f v).hg = s.hg := rfl
@[simp] theorem State.setFld_fab (s : State) (a : Nat) (f : BitField) (v : Nat) : (s.setFld a f v).fab = s.fab := rfl
@[simp] theorem State.setFld_ports (s : State) (a : Nat) (f : BitField) (v : Nat) : (s.setFld a f v).ports = s.ports := rfl
@[simp] theorem State.setFld_cores (s : State) (a : Nat) (f : BitField) (v : Nat) : (s.setFld a f v).cores = s.cores := rfl
@[simp] theorem State.setFld_cls (s : State) (a : Nat) (f : BitField) (v : Nat) : (s.setFld a f v).cls = s.cls := rfl
@[simp] theorem State.setFld_col (s : State) (a : Nat) (f : BitField) (v : Nat) : (s.setFld a f v).col = s.col := rfl
@[simp] theorem State.setFld_tl (s : State) (a : Nat) (f : BitField) (v : Nat) : (s.setFld a f v).tl = s.tl := rfl
@[simp] theorem State.setFld_sw (s : State) (a : Nat) (f : BitField) (v : Nat) : (s.setFld a f v).sw = s.sw := rfl
@[simp] theorem State.setFld_boot (s : State) (a : Nat) (f : BitField) (v : Nat) : (s.setFld a f v).boot = s.boot := rfl
@[simp] theorem State.setFld_pwr (s : State) (a : Nat) (f : BitField) (v : Nat) : (s.setFld a f v).pwr = s.pwr := rfl
@[simp] theorem State.setFld_mg (s : State) (a : Nat) (f : BitField) (v : Nat) : (s.setFld a f v).mg = s.mg := rfl
@[simp] theorem State.setFld_flt (s : State) (a : Nat) (f : BitField) (v : Nat) : (s.setFld a f v).flt = s.flt := rfl
@[simp] theorem State.setFld_out (s : State) (a : Nat) (f : BitField) (v : Nat) : (s.setFld a f v).out = s.out := rfl
@[simp] theorem State.setFld_free (s : State) (a : Nat) (f : BitField) (v : Nat) : (s.setFld a f v).free = s.free := rfl
@[simp] theorem State.setFld_pending (s : State) (a : Nat) (f : BitField) (v : Nat) : (s.setFld a f v).pending = s.pending := rfl

-- setFlag

@[simp] theorem State.setFlag_fuses (s : State) (a : Nat) (f : BitField) (b : Bool) : (s.setFlag a f b).fuses = s.fuses := rfl
@[simp] theorem State.setFlag_clock (s : State) (a : Nat) (f : BitField) (b : Bool) : (s.setFlag a f b).clock = s.clock := rfl
@[simp] theorem State.setFlag_tb (s : State) (a : Nat) (f : BitField) (b : Bool) : (s.setFlag a f b).tb = s.tb := rfl
@[simp] theorem State.setFlag_lock (s : State) (a : Nat) (f : BitField) (b : Bool) : (s.setFlag a f b).lock = s.lock := rfl
@[simp] theorem State.setFlag_present (s : State) (a : Nat) (f : BitField) (b : Bool) : (s.setFlag a f b).present = s.present := rfl
@[simp] theorem State.setFlag_mem (s : State) (a : Nat) (f : BitField) (b : Bool) : (s.setFlag a f b).mem = s.mem := rfl
@[simp] theorem State.setFlag_marks (s : State) (a : Nat) (f : BitField) (b : Bool) : (s.setFlag a f b).marks = s.marks := rfl
@[simp] theorem State.setFlag_ecc (s : State) (a : Nat) (f : BitField) (b : Bool) : (s.setFlag a f b).ecc = s.ecc := rfl
@[simp] theorem State.setFlag_rsv (s : State) (a : Nat) (f : BitField) (b : Bool) : (s.setFlag a f b).rsv = s.rsv := rfl
@[simp] theorem State.setFlag_banks (s : State) (a : Nat) (f : BitField) (b : Bool) : (s.setFlag a f b).banks = s.banks := rfl
@[simp] theorem State.setFlag_chans (s : State) (a : Nat) (f : BitField) (b : Bool) : (s.setFlag a f b).chans = s.chans := rfl
@[simp] theorem State.setFlag_hg (s : State) (a : Nat) (f : BitField) (b : Bool) : (s.setFlag a f b).hg = s.hg := rfl
@[simp] theorem State.setFlag_fab (s : State) (a : Nat) (f : BitField) (b : Bool) : (s.setFlag a f b).fab = s.fab := rfl
@[simp] theorem State.setFlag_ports (s : State) (a : Nat) (f : BitField) (b : Bool) : (s.setFlag a f b).ports = s.ports := rfl
@[simp] theorem State.setFlag_cores (s : State) (a : Nat) (f : BitField) (b : Bool) : (s.setFlag a f b).cores = s.cores := rfl
@[simp] theorem State.setFlag_cls (s : State) (a : Nat) (f : BitField) (b : Bool) : (s.setFlag a f b).cls = s.cls := rfl
@[simp] theorem State.setFlag_col (s : State) (a : Nat) (f : BitField) (b : Bool) : (s.setFlag a f b).col = s.col := rfl
@[simp] theorem State.setFlag_tl (s : State) (a : Nat) (f : BitField) (b : Bool) : (s.setFlag a f b).tl = s.tl := rfl
@[simp] theorem State.setFlag_sw (s : State) (a : Nat) (f : BitField) (b : Bool) : (s.setFlag a f b).sw = s.sw := rfl
@[simp] theorem State.setFlag_boot (s : State) (a : Nat) (f : BitField) (b : Bool) : (s.setFlag a f b).boot = s.boot := rfl
@[simp] theorem State.setFlag_pwr (s : State) (a : Nat) (f : BitField) (b : Bool) : (s.setFlag a f b).pwr = s.pwr := rfl
@[simp] theorem State.setFlag_mg (s : State) (a : Nat) (f : BitField) (b : Bool) : (s.setFlag a f b).mg = s.mg := rfl
@[simp] theorem State.setFlag_flt (s : State) (a : Nat) (f : BitField) (b : Bool) : (s.setFlag a f b).flt = s.flt := rfl
@[simp] theorem State.setFlag_out (s : State) (a : Nat) (f : BitField) (b : Bool) : (s.setFlag a f b).out = s.out := rfl
@[simp] theorem State.setFlag_free (s : State) (a : Nat) (f : BitField) (b : Bool) : (s.setFlag a f b).free = s.free := rfl
@[simp] theorem State.setFlag_pending (s : State) (a : Nat) (f : BitField) (b : Bool) : (s.setFlag a f b).pending = s.pending := rfl

-- countSat

@[simp] theorem State.countSat_fuses (s : State) (a : Nat) (f : BitField) (n : Nat) : (s.countSat a f n).fuses = s.fuses := rfl
@[simp] theorem State.countSat_clock (s : State) (a : Nat) (f : BitField) (n : Nat) : (s.countSat a f n).clock = s.clock := rfl
@[simp] theorem State.countSat_tb (s : State) (a : Nat) (f : BitField) (n : Nat) : (s.countSat a f n).tb = s.tb := rfl
@[simp] theorem State.countSat_lock (s : State) (a : Nat) (f : BitField) (n : Nat) : (s.countSat a f n).lock = s.lock := rfl
@[simp] theorem State.countSat_present (s : State) (a : Nat) (f : BitField) (n : Nat) : (s.countSat a f n).present = s.present := rfl
@[simp] theorem State.countSat_mem (s : State) (a : Nat) (f : BitField) (n : Nat) : (s.countSat a f n).mem = s.mem := rfl
@[simp] theorem State.countSat_marks (s : State) (a : Nat) (f : BitField) (n : Nat) : (s.countSat a f n).marks = s.marks := rfl
@[simp] theorem State.countSat_ecc (s : State) (a : Nat) (f : BitField) (n : Nat) : (s.countSat a f n).ecc = s.ecc := rfl
@[simp] theorem State.countSat_rsv (s : State) (a : Nat) (f : BitField) (n : Nat) : (s.countSat a f n).rsv = s.rsv := rfl
@[simp] theorem State.countSat_banks (s : State) (a : Nat) (f : BitField) (n : Nat) : (s.countSat a f n).banks = s.banks := rfl
@[simp] theorem State.countSat_chans (s : State) (a : Nat) (f : BitField) (n : Nat) : (s.countSat a f n).chans = s.chans := rfl
@[simp] theorem State.countSat_hg (s : State) (a : Nat) (f : BitField) (n : Nat) : (s.countSat a f n).hg = s.hg := rfl
@[simp] theorem State.countSat_fab (s : State) (a : Nat) (f : BitField) (n : Nat) : (s.countSat a f n).fab = s.fab := rfl
@[simp] theorem State.countSat_ports (s : State) (a : Nat) (f : BitField) (n : Nat) : (s.countSat a f n).ports = s.ports := rfl
@[simp] theorem State.countSat_cores (s : State) (a : Nat) (f : BitField) (n : Nat) : (s.countSat a f n).cores = s.cores := rfl
@[simp] theorem State.countSat_cls (s : State) (a : Nat) (f : BitField) (n : Nat) : (s.countSat a f n).cls = s.cls := rfl
@[simp] theorem State.countSat_col (s : State) (a : Nat) (f : BitField) (n : Nat) : (s.countSat a f n).col = s.col := rfl
@[simp] theorem State.countSat_tl (s : State) (a : Nat) (f : BitField) (n : Nat) : (s.countSat a f n).tl = s.tl := rfl
@[simp] theorem State.countSat_sw (s : State) (a : Nat) (f : BitField) (n : Nat) : (s.countSat a f n).sw = s.sw := rfl
@[simp] theorem State.countSat_boot (s : State) (a : Nat) (f : BitField) (n : Nat) : (s.countSat a f n).boot = s.boot := rfl
@[simp] theorem State.countSat_pwr (s : State) (a : Nat) (f : BitField) (n : Nat) : (s.countSat a f n).pwr = s.pwr := rfl
@[simp] theorem State.countSat_mg (s : State) (a : Nat) (f : BitField) (n : Nat) : (s.countSat a f n).mg = s.mg := rfl
@[simp] theorem State.countSat_flt (s : State) (a : Nat) (f : BitField) (n : Nat) : (s.countSat a f n).flt = s.flt := rfl
@[simp] theorem State.countSat_out (s : State) (a : Nat) (f : BitField) (n : Nat) : (s.countSat a f n).out = s.out := rfl
@[simp] theorem State.countSat_free (s : State) (a : Nat) (f : BitField) (n : Nat) : (s.countSat a f n).free = s.free := rfl
@[simp] theorem State.countSat_pending (s : State) (a : Nat) (f : BitField) (n : Nat) : (s.countSat a f n).pending = s.pending := rfl

-- countWrap

@[simp] theorem State.countWrap_fuses (s : State) (a : Nat) (f : BitField) (n : Nat) : (s.countWrap a f n).fuses = s.fuses := rfl
@[simp] theorem State.countWrap_clock (s : State) (a : Nat) (f : BitField) (n : Nat) : (s.countWrap a f n).clock = s.clock := rfl
@[simp] theorem State.countWrap_tb (s : State) (a : Nat) (f : BitField) (n : Nat) : (s.countWrap a f n).tb = s.tb := rfl
@[simp] theorem State.countWrap_lock (s : State) (a : Nat) (f : BitField) (n : Nat) : (s.countWrap a f n).lock = s.lock := rfl
@[simp] theorem State.countWrap_present (s : State) (a : Nat) (f : BitField) (n : Nat) : (s.countWrap a f n).present = s.present := rfl
@[simp] theorem State.countWrap_mem (s : State) (a : Nat) (f : BitField) (n : Nat) : (s.countWrap a f n).mem = s.mem := rfl
@[simp] theorem State.countWrap_marks (s : State) (a : Nat) (f : BitField) (n : Nat) : (s.countWrap a f n).marks = s.marks := rfl
@[simp] theorem State.countWrap_ecc (s : State) (a : Nat) (f : BitField) (n : Nat) : (s.countWrap a f n).ecc = s.ecc := rfl
@[simp] theorem State.countWrap_rsv (s : State) (a : Nat) (f : BitField) (n : Nat) : (s.countWrap a f n).rsv = s.rsv := rfl
@[simp] theorem State.countWrap_banks (s : State) (a : Nat) (f : BitField) (n : Nat) : (s.countWrap a f n).banks = s.banks := rfl
@[simp] theorem State.countWrap_chans (s : State) (a : Nat) (f : BitField) (n : Nat) : (s.countWrap a f n).chans = s.chans := rfl
@[simp] theorem State.countWrap_hg (s : State) (a : Nat) (f : BitField) (n : Nat) : (s.countWrap a f n).hg = s.hg := rfl
@[simp] theorem State.countWrap_fab (s : State) (a : Nat) (f : BitField) (n : Nat) : (s.countWrap a f n).fab = s.fab := rfl
@[simp] theorem State.countWrap_ports (s : State) (a : Nat) (f : BitField) (n : Nat) : (s.countWrap a f n).ports = s.ports := rfl
@[simp] theorem State.countWrap_cores (s : State) (a : Nat) (f : BitField) (n : Nat) : (s.countWrap a f n).cores = s.cores := rfl
@[simp] theorem State.countWrap_cls (s : State) (a : Nat) (f : BitField) (n : Nat) : (s.countWrap a f n).cls = s.cls := rfl
@[simp] theorem State.countWrap_col (s : State) (a : Nat) (f : BitField) (n : Nat) : (s.countWrap a f n).col = s.col := rfl
@[simp] theorem State.countWrap_tl (s : State) (a : Nat) (f : BitField) (n : Nat) : (s.countWrap a f n).tl = s.tl := rfl
@[simp] theorem State.countWrap_sw (s : State) (a : Nat) (f : BitField) (n : Nat) : (s.countWrap a f n).sw = s.sw := rfl
@[simp] theorem State.countWrap_boot (s : State) (a : Nat) (f : BitField) (n : Nat) : (s.countWrap a f n).boot = s.boot := rfl
@[simp] theorem State.countWrap_pwr (s : State) (a : Nat) (f : BitField) (n : Nat) : (s.countWrap a f n).pwr = s.pwr := rfl
@[simp] theorem State.countWrap_mg (s : State) (a : Nat) (f : BitField) (n : Nat) : (s.countWrap a f n).mg = s.mg := rfl
@[simp] theorem State.countWrap_flt (s : State) (a : Nat) (f : BitField) (n : Nat) : (s.countWrap a f n).flt = s.flt := rfl
@[simp] theorem State.countWrap_out (s : State) (a : Nat) (f : BitField) (n : Nat) : (s.countWrap a f n).out = s.out := rfl
@[simp] theorem State.countWrap_free (s : State) (a : Nat) (f : BitField) (n : Nat) : (s.countWrap a f n).free = s.free := rfl
@[simp] theorem State.countWrap_pending (s : State) (a : Nat) (f : BitField) (n : Nat) : (s.countWrap a f n).pending = s.pending := rfl

-- emit

@[simp] theorem State.emit_fuses (s : State) (o : Output) : (s.emit o).fuses = s.fuses := rfl
@[simp] theorem State.emit_clock (s : State) (o : Output) : (s.emit o).clock = s.clock := rfl
@[simp] theorem State.emit_tb (s : State) (o : Output) : (s.emit o).tb = s.tb := rfl
@[simp] theorem State.emit_lock (s : State) (o : Output) : (s.emit o).lock = s.lock := rfl
@[simp] theorem State.emit_present (s : State) (o : Output) : (s.emit o).present = s.present := rfl
@[simp] theorem State.emit_regs (s : State) (o : Output) : (s.emit o).regs = s.regs := rfl
@[simp] theorem State.emit_mem (s : State) (o : Output) : (s.emit o).mem = s.mem := rfl
@[simp] theorem State.emit_marks (s : State) (o : Output) : (s.emit o).marks = s.marks := rfl
@[simp] theorem State.emit_ecc (s : State) (o : Output) : (s.emit o).ecc = s.ecc := rfl
@[simp] theorem State.emit_rsv (s : State) (o : Output) : (s.emit o).rsv = s.rsv := rfl
@[simp] theorem State.emit_banks (s : State) (o : Output) : (s.emit o).banks = s.banks := rfl
@[simp] theorem State.emit_chans (s : State) (o : Output) : (s.emit o).chans = s.chans := rfl
@[simp] theorem State.emit_hg (s : State) (o : Output) : (s.emit o).hg = s.hg := rfl
@[simp] theorem State.emit_fab (s : State) (o : Output) : (s.emit o).fab = s.fab := rfl
@[simp] theorem State.emit_ports (s : State) (o : Output) : (s.emit o).ports = s.ports := rfl
@[simp] theorem State.emit_cores (s : State) (o : Output) : (s.emit o).cores = s.cores := rfl
@[simp] theorem State.emit_cls (s : State) (o : Output) : (s.emit o).cls = s.cls := rfl
@[simp] theorem State.emit_col (s : State) (o : Output) : (s.emit o).col = s.col := rfl
@[simp] theorem State.emit_tl (s : State) (o : Output) : (s.emit o).tl = s.tl := rfl
@[simp] theorem State.emit_sw (s : State) (o : Output) : (s.emit o).sw = s.sw := rfl
@[simp] theorem State.emit_boot (s : State) (o : Output) : (s.emit o).boot = s.boot := rfl
@[simp] theorem State.emit_pwr (s : State) (o : Output) : (s.emit o).pwr = s.pwr := rfl
@[simp] theorem State.emit_mg (s : State) (o : Output) : (s.emit o).mg = s.mg := rfl
@[simp] theorem State.emit_flt (s : State) (o : Output) : (s.emit o).flt = s.flt := rfl
@[simp] theorem State.emit_free (s : State) (o : Output) : (s.emit o).free = s.free := rfl
@[simp] theorem State.emit_pending (s : State) (o : Output) : (s.emit o).pending = s.pending := rfl

-- faultFor

@[simp] theorem State.faultFor_fuses (s : State) (j : Option Nat) (u c : Nat) (a : Option Nat) (d : Nat) : (s.faultFor j u c a d).fuses = s.fuses := rfl
@[simp] theorem State.faultFor_clock (s : State) (j : Option Nat) (u c : Nat) (a : Option Nat) (d : Nat) : (s.faultFor j u c a d).clock = s.clock := rfl
@[simp] theorem State.faultFor_tb (s : State) (j : Option Nat) (u c : Nat) (a : Option Nat) (d : Nat) : (s.faultFor j u c a d).tb = s.tb := rfl
@[simp] theorem State.faultFor_lock (s : State) (j : Option Nat) (u c : Nat) (a : Option Nat) (d : Nat) : (s.faultFor j u c a d).lock = s.lock := rfl
@[simp] theorem State.faultFor_present (s : State) (j : Option Nat) (u c : Nat) (a : Option Nat) (d : Nat) : (s.faultFor j u c a d).present = s.present := rfl
@[simp] theorem State.faultFor_regs (s : State) (j : Option Nat) (u c : Nat) (a : Option Nat) (d : Nat) : (s.faultFor j u c a d).regs = s.regs := rfl
@[simp] theorem State.faultFor_mem (s : State) (j : Option Nat) (u c : Nat) (a : Option Nat) (d : Nat) : (s.faultFor j u c a d).mem = s.mem := rfl
@[simp] theorem State.faultFor_marks (s : State) (j : Option Nat) (u c : Nat) (a : Option Nat) (d : Nat) : (s.faultFor j u c a d).marks = s.marks := rfl
@[simp] theorem State.faultFor_ecc (s : State) (j : Option Nat) (u c : Nat) (a : Option Nat) (d : Nat) : (s.faultFor j u c a d).ecc = s.ecc := rfl
@[simp] theorem State.faultFor_rsv (s : State) (j : Option Nat) (u c : Nat) (a : Option Nat) (d : Nat) : (s.faultFor j u c a d).rsv = s.rsv := rfl
@[simp] theorem State.faultFor_banks (s : State) (j : Option Nat) (u c : Nat) (a : Option Nat) (d : Nat) : (s.faultFor j u c a d).banks = s.banks := rfl
@[simp] theorem State.faultFor_chans (s : State) (j : Option Nat) (u c : Nat) (a : Option Nat) (d : Nat) : (s.faultFor j u c a d).chans = s.chans := rfl
@[simp] theorem State.faultFor_hg (s : State) (j : Option Nat) (u c : Nat) (a : Option Nat) (d : Nat) : (s.faultFor j u c a d).hg = s.hg := rfl
@[simp] theorem State.faultFor_fab (s : State) (j : Option Nat) (u c : Nat) (a : Option Nat) (d : Nat) : (s.faultFor j u c a d).fab = s.fab := rfl
@[simp] theorem State.faultFor_ports (s : State) (j : Option Nat) (u c : Nat) (a : Option Nat) (d : Nat) : (s.faultFor j u c a d).ports = s.ports := rfl
@[simp] theorem State.faultFor_cores (s : State) (j : Option Nat) (u c : Nat) (a : Option Nat) (d : Nat) : (s.faultFor j u c a d).cores = s.cores := rfl
@[simp] theorem State.faultFor_cls (s : State) (j : Option Nat) (u c : Nat) (a : Option Nat) (d : Nat) : (s.faultFor j u c a d).cls = s.cls := rfl
@[simp] theorem State.faultFor_col (s : State) (j : Option Nat) (u c : Nat) (a : Option Nat) (d : Nat) : (s.faultFor j u c a d).col = s.col := rfl
@[simp] theorem State.faultFor_tl (s : State) (j : Option Nat) (u c : Nat) (a : Option Nat) (d : Nat) : (s.faultFor j u c a d).tl = s.tl := rfl
@[simp] theorem State.faultFor_sw (s : State) (j : Option Nat) (u c : Nat) (a : Option Nat) (d : Nat) : (s.faultFor j u c a d).sw = s.sw := rfl
@[simp] theorem State.faultFor_boot (s : State) (j : Option Nat) (u c : Nat) (a : Option Nat) (d : Nat) : (s.faultFor j u c a d).boot = s.boot := rfl
@[simp] theorem State.faultFor_pwr (s : State) (j : Option Nat) (u c : Nat) (a : Option Nat) (d : Nat) : (s.faultFor j u c a d).pwr = s.pwr := rfl
@[simp] theorem State.faultFor_mg (s : State) (j : Option Nat) (u c : Nat) (a : Option Nat) (d : Nat) : (s.faultFor j u c a d).mg = s.mg := rfl
@[simp] theorem State.faultFor_out (s : State) (j : Option Nat) (u c : Nat) (a : Option Nat) (d : Nat) : (s.faultFor j u c a d).out = s.out := rfl
@[simp] theorem State.faultFor_free (s : State) (j : Option Nat) (u c : Nat) (a : Option Nat) (d : Nat) : (s.faultFor j u c a d).free = s.free := rfl
@[simp] theorem State.faultFor_pending (s : State) (j : Option Nat) (u c : Nat) (a : Option Nat) (d : Nat) : (s.faultFor j u c a d).pending = s.pending := rfl

-- fault

@[simp] theorem State.fault_fuses (s : State) (u c : Nat) (a : Option Nat) (d : Nat) : (s.fault u c a d).fuses = s.fuses := rfl
@[simp] theorem State.fault_clock (s : State) (u c : Nat) (a : Option Nat) (d : Nat) : (s.fault u c a d).clock = s.clock := rfl
@[simp] theorem State.fault_tb (s : State) (u c : Nat) (a : Option Nat) (d : Nat) : (s.fault u c a d).tb = s.tb := rfl
@[simp] theorem State.fault_lock (s : State) (u c : Nat) (a : Option Nat) (d : Nat) : (s.fault u c a d).lock = s.lock := rfl
@[simp] theorem State.fault_present (s : State) (u c : Nat) (a : Option Nat) (d : Nat) : (s.fault u c a d).present = s.present := rfl
@[simp] theorem State.fault_regs (s : State) (u c : Nat) (a : Option Nat) (d : Nat) : (s.fault u c a d).regs = s.regs := rfl
@[simp] theorem State.fault_mem (s : State) (u c : Nat) (a : Option Nat) (d : Nat) : (s.fault u c a d).mem = s.mem := rfl
@[simp] theorem State.fault_marks (s : State) (u c : Nat) (a : Option Nat) (d : Nat) : (s.fault u c a d).marks = s.marks := rfl
@[simp] theorem State.fault_ecc (s : State) (u c : Nat) (a : Option Nat) (d : Nat) : (s.fault u c a d).ecc = s.ecc := rfl
@[simp] theorem State.fault_rsv (s : State) (u c : Nat) (a : Option Nat) (d : Nat) : (s.fault u c a d).rsv = s.rsv := rfl
@[simp] theorem State.fault_banks (s : State) (u c : Nat) (a : Option Nat) (d : Nat) : (s.fault u c a d).banks = s.banks := rfl
@[simp] theorem State.fault_chans (s : State) (u c : Nat) (a : Option Nat) (d : Nat) : (s.fault u c a d).chans = s.chans := rfl
@[simp] theorem State.fault_hg (s : State) (u c : Nat) (a : Option Nat) (d : Nat) : (s.fault u c a d).hg = s.hg := rfl
@[simp] theorem State.fault_fab (s : State) (u c : Nat) (a : Option Nat) (d : Nat) : (s.fault u c a d).fab = s.fab := rfl
@[simp] theorem State.fault_ports (s : State) (u c : Nat) (a : Option Nat) (d : Nat) : (s.fault u c a d).ports = s.ports := rfl
@[simp] theorem State.fault_cores (s : State) (u c : Nat) (a : Option Nat) (d : Nat) : (s.fault u c a d).cores = s.cores := rfl
@[simp] theorem State.fault_cls (s : State) (u c : Nat) (a : Option Nat) (d : Nat) : (s.fault u c a d).cls = s.cls := rfl
@[simp] theorem State.fault_col (s : State) (u c : Nat) (a : Option Nat) (d : Nat) : (s.fault u c a d).col = s.col := rfl
@[simp] theorem State.fault_tl (s : State) (u c : Nat) (a : Option Nat) (d : Nat) : (s.fault u c a d).tl = s.tl := rfl
@[simp] theorem State.fault_sw (s : State) (u c : Nat) (a : Option Nat) (d : Nat) : (s.fault u c a d).sw = s.sw := rfl
@[simp] theorem State.fault_boot (s : State) (u c : Nat) (a : Option Nat) (d : Nat) : (s.fault u c a d).boot = s.boot := rfl
@[simp] theorem State.fault_pwr (s : State) (u c : Nat) (a : Option Nat) (d : Nat) : (s.fault u c a d).pwr = s.pwr := rfl
@[simp] theorem State.fault_mg (s : State) (u c : Nat) (a : Option Nat) (d : Nat) : (s.fault u c a d).mg = s.mg := rfl
@[simp] theorem State.fault_out (s : State) (u c : Nat) (a : Option Nat) (d : Nat) : (s.fault u c a d).out = s.out := rfl
@[simp] theorem State.fault_free (s : State) (u c : Nat) (a : Option Nat) (d : Nat) : (s.fault u c a d).free = s.free := rfl
@[simp] theorem State.fault_pending (s : State) (u c : Nat) (a : Option Nat) (d : Nat) : (s.fault u c a d).pending = s.pending := rfl

-- unmapped

@[simp] theorem State.unmapped_fuses (s : State) (w : Requester) (a : Nat) (k : AccessKind) : (s.unmapped w a k).fuses = s.fuses := rfl
@[simp] theorem State.unmapped_clock (s : State) (w : Requester) (a : Nat) (k : AccessKind) : (s.unmapped w a k).clock = s.clock := rfl
@[simp] theorem State.unmapped_tb (s : State) (w : Requester) (a : Nat) (k : AccessKind) : (s.unmapped w a k).tb = s.tb := rfl
@[simp] theorem State.unmapped_lock (s : State) (w : Requester) (a : Nat) (k : AccessKind) : (s.unmapped w a k).lock = s.lock := rfl
@[simp] theorem State.unmapped_present (s : State) (w : Requester) (a : Nat) (k : AccessKind) : (s.unmapped w a k).present = s.present := rfl
@[simp] theorem State.unmapped_regs (s : State) (w : Requester) (a : Nat) (k : AccessKind) : (s.unmapped w a k).regs = s.regs := rfl
@[simp] theorem State.unmapped_mem (s : State) (w : Requester) (a : Nat) (k : AccessKind) : (s.unmapped w a k).mem = s.mem := rfl
@[simp] theorem State.unmapped_marks (s : State) (w : Requester) (a : Nat) (k : AccessKind) : (s.unmapped w a k).marks = s.marks := rfl
@[simp] theorem State.unmapped_ecc (s : State) (w : Requester) (a : Nat) (k : AccessKind) : (s.unmapped w a k).ecc = s.ecc := rfl
@[simp] theorem State.unmapped_rsv (s : State) (w : Requester) (a : Nat) (k : AccessKind) : (s.unmapped w a k).rsv = s.rsv := rfl
@[simp] theorem State.unmapped_banks (s : State) (w : Requester) (a : Nat) (k : AccessKind) : (s.unmapped w a k).banks = s.banks := rfl
@[simp] theorem State.unmapped_chans (s : State) (w : Requester) (a : Nat) (k : AccessKind) : (s.unmapped w a k).chans = s.chans := rfl
@[simp] theorem State.unmapped_hg (s : State) (w : Requester) (a : Nat) (k : AccessKind) : (s.unmapped w a k).hg = s.hg := rfl
@[simp] theorem State.unmapped_fab (s : State) (w : Requester) (a : Nat) (k : AccessKind) : (s.unmapped w a k).fab = s.fab := rfl
@[simp] theorem State.unmapped_ports (s : State) (w : Requester) (a : Nat) (k : AccessKind) : (s.unmapped w a k).ports = s.ports := rfl
@[simp] theorem State.unmapped_cores (s : State) (w : Requester) (a : Nat) (k : AccessKind) : (s.unmapped w a k).cores = s.cores := rfl
@[simp] theorem State.unmapped_cls (s : State) (w : Requester) (a : Nat) (k : AccessKind) : (s.unmapped w a k).cls = s.cls := rfl
@[simp] theorem State.unmapped_col (s : State) (w : Requester) (a : Nat) (k : AccessKind) : (s.unmapped w a k).col = s.col := rfl
@[simp] theorem State.unmapped_tl (s : State) (w : Requester) (a : Nat) (k : AccessKind) : (s.unmapped w a k).tl = s.tl := rfl
@[simp] theorem State.unmapped_sw (s : State) (w : Requester) (a : Nat) (k : AccessKind) : (s.unmapped w a k).sw = s.sw := rfl
@[simp] theorem State.unmapped_boot (s : State) (w : Requester) (a : Nat) (k : AccessKind) : (s.unmapped w a k).boot = s.boot := rfl
@[simp] theorem State.unmapped_pwr (s : State) (w : Requester) (a : Nat) (k : AccessKind) : (s.unmapped w a k).pwr = s.pwr := rfl
@[simp] theorem State.unmapped_mg (s : State) (w : Requester) (a : Nat) (k : AccessKind) : (s.unmapped w a k).mg = s.mg := rfl
@[simp] theorem State.unmapped_out (s : State) (w : Requester) (a : Nat) (k : AccessKind) : (s.unmapped w a k).out = s.out := rfl
@[simp] theorem State.unmapped_free (s : State) (w : Requester) (a : Nat) (k : AccessKind) : (s.unmapped w a k).free = s.free := rfl
@[simp] theorem State.unmapped_pending (s : State) (w : Requester) (a : Nat) (k : AccessKind) : (s.unmapped w a k).pending = s.pending := rfl

-- setupLocked

@[simp] theorem State.setupLocked_fuses (s : State) (a : Nat) : (s.setupLocked a).fuses = s.fuses := rfl
@[simp] theorem State.setupLocked_clock (s : State) (a : Nat) : (s.setupLocked a).clock = s.clock := rfl
@[simp] theorem State.setupLocked_tb (s : State) (a : Nat) : (s.setupLocked a).tb = s.tb := rfl
@[simp] theorem State.setupLocked_lock (s : State) (a : Nat) : (s.setupLocked a).lock = s.lock := rfl
@[simp] theorem State.setupLocked_present (s : State) (a : Nat) : (s.setupLocked a).present = s.present := rfl
@[simp] theorem State.setupLocked_regs (s : State) (a : Nat) : (s.setupLocked a).regs = s.regs := rfl
@[simp] theorem State.setupLocked_mem (s : State) (a : Nat) : (s.setupLocked a).mem = s.mem := rfl
@[simp] theorem State.setupLocked_marks (s : State) (a : Nat) : (s.setupLocked a).marks = s.marks := rfl
@[simp] theorem State.setupLocked_ecc (s : State) (a : Nat) : (s.setupLocked a).ecc = s.ecc := rfl
@[simp] theorem State.setupLocked_rsv (s : State) (a : Nat) : (s.setupLocked a).rsv = s.rsv := rfl
@[simp] theorem State.setupLocked_banks (s : State) (a : Nat) : (s.setupLocked a).banks = s.banks := rfl
@[simp] theorem State.setupLocked_chans (s : State) (a : Nat) : (s.setupLocked a).chans = s.chans := rfl
@[simp] theorem State.setupLocked_hg (s : State) (a : Nat) : (s.setupLocked a).hg = s.hg := rfl
@[simp] theorem State.setupLocked_fab (s : State) (a : Nat) : (s.setupLocked a).fab = s.fab := rfl
@[simp] theorem State.setupLocked_ports (s : State) (a : Nat) : (s.setupLocked a).ports = s.ports := rfl
@[simp] theorem State.setupLocked_cores (s : State) (a : Nat) : (s.setupLocked a).cores = s.cores := rfl
@[simp] theorem State.setupLocked_cls (s : State) (a : Nat) : (s.setupLocked a).cls = s.cls := rfl
@[simp] theorem State.setupLocked_col (s : State) (a : Nat) : (s.setupLocked a).col = s.col := rfl
@[simp] theorem State.setupLocked_tl (s : State) (a : Nat) : (s.setupLocked a).tl = s.tl := rfl
@[simp] theorem State.setupLocked_sw (s : State) (a : Nat) : (s.setupLocked a).sw = s.sw := rfl
@[simp] theorem State.setupLocked_boot (s : State) (a : Nat) : (s.setupLocked a).boot = s.boot := rfl
@[simp] theorem State.setupLocked_pwr (s : State) (a : Nat) : (s.setupLocked a).pwr = s.pwr := rfl
@[simp] theorem State.setupLocked_mg (s : State) (a : Nat) : (s.setupLocked a).mg = s.mg := rfl
@[simp] theorem State.setupLocked_out (s : State) (a : Nat) : (s.setupLocked a).out = s.out := rfl
@[simp] theorem State.setupLocked_free (s : State) (a : Nat) : (s.setupLocked a).free = s.free := rfl
@[simp] theorem State.setupLocked_pending (s : State) (a : Nat) : (s.setupLocked a).pending = s.pending := rfl

-- setRing

@[simp] theorem State.setRing_fuses (s : State) (r : Nat) (x : RingState) : (s.setRing r x).fuses = s.fuses := rfl
@[simp] theorem State.setRing_clock (s : State) (r : Nat) (x : RingState) : (s.setRing r x).clock = s.clock := rfl
@[simp] theorem State.setRing_tb (s : State) (r : Nat) (x : RingState) : (s.setRing r x).tb = s.tb := rfl
@[simp] theorem State.setRing_lock (s : State) (r : Nat) (x : RingState) : (s.setRing r x).lock = s.lock := rfl
@[simp] theorem State.setRing_present (s : State) (r : Nat) (x : RingState) : (s.setRing r x).present = s.present := rfl
@[simp] theorem State.setRing_regs (s : State) (r : Nat) (x : RingState) : (s.setRing r x).regs = s.regs := rfl
@[simp] theorem State.setRing_mem (s : State) (r : Nat) (x : RingState) : (s.setRing r x).mem = s.mem := rfl
@[simp] theorem State.setRing_marks (s : State) (r : Nat) (x : RingState) : (s.setRing r x).marks = s.marks := rfl
@[simp] theorem State.setRing_ecc (s : State) (r : Nat) (x : RingState) : (s.setRing r x).ecc = s.ecc := rfl
@[simp] theorem State.setRing_rsv (s : State) (r : Nat) (x : RingState) : (s.setRing r x).rsv = s.rsv := rfl
@[simp] theorem State.setRing_banks (s : State) (r : Nat) (x : RingState) : (s.setRing r x).banks = s.banks := rfl
@[simp] theorem State.setRing_chans (s : State) (r : Nat) (x : RingState) : (s.setRing r x).chans = s.chans := rfl
@[simp] theorem State.setRing_hg (s : State) (r : Nat) (x : RingState) : (s.setRing r x).hg = s.hg := rfl
@[simp] theorem State.setRing_fab (s : State) (r : Nat) (x : RingState) : (s.setRing r x).fab = s.fab := rfl
@[simp] theorem State.setRing_ports (s : State) (r : Nat) (x : RingState) : (s.setRing r x).ports = s.ports := rfl
@[simp] theorem State.setRing_cores (s : State) (r : Nat) (x : RingState) : (s.setRing r x).cores = s.cores := rfl
@[simp] theorem State.setRing_cls (s : State) (r : Nat) (x : RingState) : (s.setRing r x).cls = s.cls := rfl
@[simp] theorem State.setRing_col (s : State) (r : Nat) (x : RingState) : (s.setRing r x).col = s.col := rfl
@[simp] theorem State.setRing_sw (s : State) (r : Nat) (x : RingState) : (s.setRing r x).sw = s.sw := rfl
@[simp] theorem State.setRing_boot (s : State) (r : Nat) (x : RingState) : (s.setRing r x).boot = s.boot := rfl
@[simp] theorem State.setRing_pwr (s : State) (r : Nat) (x : RingState) : (s.setRing r x).pwr = s.pwr := rfl
@[simp] theorem State.setRing_mg (s : State) (r : Nat) (x : RingState) : (s.setRing r x).mg = s.mg := rfl
@[simp] theorem State.setRing_flt (s : State) (r : Nat) (x : RingState) : (s.setRing r x).flt = s.flt := rfl
@[simp] theorem State.setRing_out (s : State) (r : Nat) (x : RingState) : (s.setRing r x).out = s.out := rfl
@[simp] theorem State.setRing_free (s : State) (r : Nat) (x : RingState) : (s.setRing r x).free = s.free := rfl
@[simp] theorem State.setRing_pending (s : State) (r : Nat) (x : RingState) : (s.setRing r x).pending = s.pending := rfl

-- setChan

@[simp] theorem State.setChan_fuses (s : State) (c : Nat) (x : Channel) : (s.setChan c x).fuses = s.fuses := rfl
@[simp] theorem State.setChan_clock (s : State) (c : Nat) (x : Channel) : (s.setChan c x).clock = s.clock := rfl
@[simp] theorem State.setChan_tb (s : State) (c : Nat) (x : Channel) : (s.setChan c x).tb = s.tb := rfl
@[simp] theorem State.setChan_lock (s : State) (c : Nat) (x : Channel) : (s.setChan c x).lock = s.lock := rfl
@[simp] theorem State.setChan_present (s : State) (c : Nat) (x : Channel) : (s.setChan c x).present = s.present := rfl
@[simp] theorem State.setChan_regs (s : State) (c : Nat) (x : Channel) : (s.setChan c x).regs = s.regs := rfl
@[simp] theorem State.setChan_mem (s : State) (c : Nat) (x : Channel) : (s.setChan c x).mem = s.mem := rfl
@[simp] theorem State.setChan_marks (s : State) (c : Nat) (x : Channel) : (s.setChan c x).marks = s.marks := rfl
@[simp] theorem State.setChan_ecc (s : State) (c : Nat) (x : Channel) : (s.setChan c x).ecc = s.ecc := rfl
@[simp] theorem State.setChan_rsv (s : State) (c : Nat) (x : Channel) : (s.setChan c x).rsv = s.rsv := rfl
@[simp] theorem State.setChan_banks (s : State) (c : Nat) (x : Channel) : (s.setChan c x).banks = s.banks := rfl
@[simp] theorem State.setChan_hg (s : State) (c : Nat) (x : Channel) : (s.setChan c x).hg = s.hg := rfl
@[simp] theorem State.setChan_fab (s : State) (c : Nat) (x : Channel) : (s.setChan c x).fab = s.fab := rfl
@[simp] theorem State.setChan_ports (s : State) (c : Nat) (x : Channel) : (s.setChan c x).ports = s.ports := rfl
@[simp] theorem State.setChan_cores (s : State) (c : Nat) (x : Channel) : (s.setChan c x).cores = s.cores := rfl
@[simp] theorem State.setChan_cls (s : State) (c : Nat) (x : Channel) : (s.setChan c x).cls = s.cls := rfl
@[simp] theorem State.setChan_col (s : State) (c : Nat) (x : Channel) : (s.setChan c x).col = s.col := rfl
@[simp] theorem State.setChan_tl (s : State) (c : Nat) (x : Channel) : (s.setChan c x).tl = s.tl := rfl
@[simp] theorem State.setChan_sw (s : State) (c : Nat) (x : Channel) : (s.setChan c x).sw = s.sw := rfl
@[simp] theorem State.setChan_boot (s : State) (c : Nat) (x : Channel) : (s.setChan c x).boot = s.boot := rfl
@[simp] theorem State.setChan_pwr (s : State) (c : Nat) (x : Channel) : (s.setChan c x).pwr = s.pwr := rfl
@[simp] theorem State.setChan_mg (s : State) (c : Nat) (x : Channel) : (s.setChan c x).mg = s.mg := rfl
@[simp] theorem State.setChan_flt (s : State) (c : Nat) (x : Channel) : (s.setChan c x).flt = s.flt := rfl
@[simp] theorem State.setChan_out (s : State) (c : Nat) (x : Channel) : (s.setChan c x).out = s.out := rfl
@[simp] theorem State.setChan_free (s : State) (c : Nat) (x : Channel) : (s.setChan c x).free = s.free := rfl
@[simp] theorem State.setChan_pending (s : State) (c : Nat) (x : Channel) : (s.setChan c x).pending = s.pending := rfl

-- setCore

@[simp] theorem State.setCore_fuses (s : State) (i : Nat) (c : CoreState) : (s.setCore i c).fuses = s.fuses := rfl
@[simp] theorem State.setCore_clock (s : State) (i : Nat) (c : CoreState) : (s.setCore i c).clock = s.clock := rfl
@[simp] theorem State.setCore_tb (s : State) (i : Nat) (c : CoreState) : (s.setCore i c).tb = s.tb := rfl
@[simp] theorem State.setCore_lock (s : State) (i : Nat) (c : CoreState) : (s.setCore i c).lock = s.lock := rfl
@[simp] theorem State.setCore_present (s : State) (i : Nat) (c : CoreState) : (s.setCore i c).present = s.present := rfl
@[simp] theorem State.setCore_regs (s : State) (i : Nat) (c : CoreState) : (s.setCore i c).regs = s.regs := rfl
@[simp] theorem State.setCore_mem (s : State) (i : Nat) (c : CoreState) : (s.setCore i c).mem = s.mem := rfl
@[simp] theorem State.setCore_marks (s : State) (i : Nat) (c : CoreState) : (s.setCore i c).marks = s.marks := rfl
@[simp] theorem State.setCore_ecc (s : State) (i : Nat) (c : CoreState) : (s.setCore i c).ecc = s.ecc := rfl
@[simp] theorem State.setCore_rsv (s : State) (i : Nat) (c : CoreState) : (s.setCore i c).rsv = s.rsv := rfl
@[simp] theorem State.setCore_banks (s : State) (i : Nat) (c : CoreState) : (s.setCore i c).banks = s.banks := rfl
@[simp] theorem State.setCore_chans (s : State) (i : Nat) (c : CoreState) : (s.setCore i c).chans = s.chans := rfl
@[simp] theorem State.setCore_hg (s : State) (i : Nat) (c : CoreState) : (s.setCore i c).hg = s.hg := rfl
@[simp] theorem State.setCore_fab (s : State) (i : Nat) (c : CoreState) : (s.setCore i c).fab = s.fab := rfl
@[simp] theorem State.setCore_ports (s : State) (i : Nat) (c : CoreState) : (s.setCore i c).ports = s.ports := rfl
@[simp] theorem State.setCore_cls (s : State) (i : Nat) (c : CoreState) : (s.setCore i c).cls = s.cls := rfl
@[simp] theorem State.setCore_col (s : State) (i : Nat) (c : CoreState) : (s.setCore i c).col = s.col := rfl
@[simp] theorem State.setCore_tl (s : State) (i : Nat) (c : CoreState) : (s.setCore i c).tl = s.tl := rfl
@[simp] theorem State.setCore_sw (s : State) (i : Nat) (c : CoreState) : (s.setCore i c).sw = s.sw := rfl
@[simp] theorem State.setCore_boot (s : State) (i : Nat) (c : CoreState) : (s.setCore i c).boot = s.boot := rfl
@[simp] theorem State.setCore_pwr (s : State) (i : Nat) (c : CoreState) : (s.setCore i c).pwr = s.pwr := rfl
@[simp] theorem State.setCore_mg (s : State) (i : Nat) (c : CoreState) : (s.setCore i c).mg = s.mg := rfl
@[simp] theorem State.setCore_flt (s : State) (i : Nat) (c : CoreState) : (s.setCore i c).flt = s.flt := rfl
@[simp] theorem State.setCore_out (s : State) (i : Nat) (c : CoreState) : (s.setCore i c).out = s.out := rfl
@[simp] theorem State.setCore_free (s : State) (i : Nat) (c : CoreState) : (s.setCore i c).free = s.free := rfl
@[simp] theorem State.setCore_pending (s : State) (i : Nat) (c : CoreState) : (s.setCore i c).pending = s.pending := rfl

-- setPort

@[simp] theorem State.setPort_fuses (s : State) (p : Nat) (x : PortState) : (s.setPort p x).fuses = s.fuses := rfl
@[simp] theorem State.setPort_clock (s : State) (p : Nat) (x : PortState) : (s.setPort p x).clock = s.clock := rfl
@[simp] theorem State.setPort_tb (s : State) (p : Nat) (x : PortState) : (s.setPort p x).tb = s.tb := rfl
@[simp] theorem State.setPort_lock (s : State) (p : Nat) (x : PortState) : (s.setPort p x).lock = s.lock := rfl
@[simp] theorem State.setPort_present (s : State) (p : Nat) (x : PortState) : (s.setPort p x).present = s.present := rfl
@[simp] theorem State.setPort_regs (s : State) (p : Nat) (x : PortState) : (s.setPort p x).regs = s.regs := rfl
@[simp] theorem State.setPort_mem (s : State) (p : Nat) (x : PortState) : (s.setPort p x).mem = s.mem := rfl
@[simp] theorem State.setPort_marks (s : State) (p : Nat) (x : PortState) : (s.setPort p x).marks = s.marks := rfl
@[simp] theorem State.setPort_ecc (s : State) (p : Nat) (x : PortState) : (s.setPort p x).ecc = s.ecc := rfl
@[simp] theorem State.setPort_rsv (s : State) (p : Nat) (x : PortState) : (s.setPort p x).rsv = s.rsv := rfl
@[simp] theorem State.setPort_banks (s : State) (p : Nat) (x : PortState) : (s.setPort p x).banks = s.banks := rfl
@[simp] theorem State.setPort_chans (s : State) (p : Nat) (x : PortState) : (s.setPort p x).chans = s.chans := rfl
@[simp] theorem State.setPort_hg (s : State) (p : Nat) (x : PortState) : (s.setPort p x).hg = s.hg := rfl
@[simp] theorem State.setPort_fab (s : State) (p : Nat) (x : PortState) : (s.setPort p x).fab = s.fab := rfl
@[simp] theorem State.setPort_cores (s : State) (p : Nat) (x : PortState) : (s.setPort p x).cores = s.cores := rfl
@[simp] theorem State.setPort_cls (s : State) (p : Nat) (x : PortState) : (s.setPort p x).cls = s.cls := rfl
@[simp] theorem State.setPort_col (s : State) (p : Nat) (x : PortState) : (s.setPort p x).col = s.col := rfl
@[simp] theorem State.setPort_tl (s : State) (p : Nat) (x : PortState) : (s.setPort p x).tl = s.tl := rfl
@[simp] theorem State.setPort_sw (s : State) (p : Nat) (x : PortState) : (s.setPort p x).sw = s.sw := rfl
@[simp] theorem State.setPort_boot (s : State) (p : Nat) (x : PortState) : (s.setPort p x).boot = s.boot := rfl
@[simp] theorem State.setPort_pwr (s : State) (p : Nat) (x : PortState) : (s.setPort p x).pwr = s.pwr := rfl
@[simp] theorem State.setPort_mg (s : State) (p : Nat) (x : PortState) : (s.setPort p x).mg = s.mg := rfl
@[simp] theorem State.setPort_flt (s : State) (p : Nat) (x : PortState) : (s.setPort p x).flt = s.flt := rfl
@[simp] theorem State.setPort_out (s : State) (p : Nat) (x : PortState) : (s.setPort p x).out = s.out := rfl
@[simp] theorem State.setPort_free (s : State) (p : Nat) (x : PortState) : (s.setPort p x).free = s.free := rfl
@[simp] theorem State.setPort_pending (s : State) (p : Nat) (x : PortState) : (s.setPort p x).pending = s.pending := rfl

-- setCluster

@[simp] theorem State.setCluster_fuses (s : State) (n : Nat) (c : Cluster) : (s.setCluster n c).fuses = s.fuses := rfl
@[simp] theorem State.setCluster_clock (s : State) (n : Nat) (c : Cluster) : (s.setCluster n c).clock = s.clock := rfl
@[simp] theorem State.setCluster_tb (s : State) (n : Nat) (c : Cluster) : (s.setCluster n c).tb = s.tb := rfl
@[simp] theorem State.setCluster_lock (s : State) (n : Nat) (c : Cluster) : (s.setCluster n c).lock = s.lock := rfl
@[simp] theorem State.setCluster_present (s : State) (n : Nat) (c : Cluster) : (s.setCluster n c).present = s.present := rfl
@[simp] theorem State.setCluster_regs (s : State) (n : Nat) (c : Cluster) : (s.setCluster n c).regs = s.regs := rfl
@[simp] theorem State.setCluster_mem (s : State) (n : Nat) (c : Cluster) : (s.setCluster n c).mem = s.mem := rfl
@[simp] theorem State.setCluster_marks (s : State) (n : Nat) (c : Cluster) : (s.setCluster n c).marks = s.marks := rfl
@[simp] theorem State.setCluster_ecc (s : State) (n : Nat) (c : Cluster) : (s.setCluster n c).ecc = s.ecc := rfl
@[simp] theorem State.setCluster_rsv (s : State) (n : Nat) (c : Cluster) : (s.setCluster n c).rsv = s.rsv := rfl
@[simp] theorem State.setCluster_banks (s : State) (n : Nat) (c : Cluster) : (s.setCluster n c).banks = s.banks := rfl
@[simp] theorem State.setCluster_chans (s : State) (n : Nat) (c : Cluster) : (s.setCluster n c).chans = s.chans := rfl
@[simp] theorem State.setCluster_hg (s : State) (n : Nat) (c : Cluster) : (s.setCluster n c).hg = s.hg := rfl
@[simp] theorem State.setCluster_fab (s : State) (n : Nat) (c : Cluster) : (s.setCluster n c).fab = s.fab := rfl
@[simp] theorem State.setCluster_ports (s : State) (n : Nat) (c : Cluster) : (s.setCluster n c).ports = s.ports := rfl
@[simp] theorem State.setCluster_cores (s : State) (n : Nat) (c : Cluster) : (s.setCluster n c).cores = s.cores := rfl
@[simp] theorem State.setCluster_col (s : State) (n : Nat) (c : Cluster) : (s.setCluster n c).col = s.col := rfl
@[simp] theorem State.setCluster_tl (s : State) (n : Nat) (c : Cluster) : (s.setCluster n c).tl = s.tl := rfl
@[simp] theorem State.setCluster_sw (s : State) (n : Nat) (c : Cluster) : (s.setCluster n c).sw = s.sw := rfl
@[simp] theorem State.setCluster_boot (s : State) (n : Nat) (c : Cluster) : (s.setCluster n c).boot = s.boot := rfl
@[simp] theorem State.setCluster_pwr (s : State) (n : Nat) (c : Cluster) : (s.setCluster n c).pwr = s.pwr := rfl
@[simp] theorem State.setCluster_mg (s : State) (n : Nat) (c : Cluster) : (s.setCluster n c).mg = s.mg := rfl
@[simp] theorem State.setCluster_flt (s : State) (n : Nat) (c : Cluster) : (s.setCluster n c).flt = s.flt := rfl
@[simp] theorem State.setCluster_out (s : State) (n : Nat) (c : Cluster) : (s.setCluster n c).out = s.out := rfl
@[simp] theorem State.setCluster_free (s : State) (n : Nat) (c : Cluster) : (s.setCluster n c).free = s.free := rfl
@[simp] theorem State.setCluster_pending (s : State) (n : Nat) (c : Cluster) : (s.setCluster n c).pending = s.pending := rfl

-- setBucket

@[simp] theorem State.setBucket_fuses (s : State) (k : Nat) (b : Bucket) : (s.setBucket k b).fuses = s.fuses := rfl
@[simp] theorem State.setBucket_clock (s : State) (k : Nat) (b : Bucket) : (s.setBucket k b).clock = s.clock := rfl
@[simp] theorem State.setBucket_tb (s : State) (k : Nat) (b : Bucket) : (s.setBucket k b).tb = s.tb := rfl
@[simp] theorem State.setBucket_lock (s : State) (k : Nat) (b : Bucket) : (s.setBucket k b).lock = s.lock := rfl
@[simp] theorem State.setBucket_present (s : State) (k : Nat) (b : Bucket) : (s.setBucket k b).present = s.present := rfl
@[simp] theorem State.setBucket_regs (s : State) (k : Nat) (b : Bucket) : (s.setBucket k b).regs = s.regs := rfl
@[simp] theorem State.setBucket_mem (s : State) (k : Nat) (b : Bucket) : (s.setBucket k b).mem = s.mem := rfl
@[simp] theorem State.setBucket_marks (s : State) (k : Nat) (b : Bucket) : (s.setBucket k b).marks = s.marks := rfl
@[simp] theorem State.setBucket_rsv (s : State) (k : Nat) (b : Bucket) : (s.setBucket k b).rsv = s.rsv := rfl
@[simp] theorem State.setBucket_banks (s : State) (k : Nat) (b : Bucket) : (s.setBucket k b).banks = s.banks := rfl
@[simp] theorem State.setBucket_chans (s : State) (k : Nat) (b : Bucket) : (s.setBucket k b).chans = s.chans := rfl
@[simp] theorem State.setBucket_hg (s : State) (k : Nat) (b : Bucket) : (s.setBucket k b).hg = s.hg := rfl
@[simp] theorem State.setBucket_fab (s : State) (k : Nat) (b : Bucket) : (s.setBucket k b).fab = s.fab := rfl
@[simp] theorem State.setBucket_ports (s : State) (k : Nat) (b : Bucket) : (s.setBucket k b).ports = s.ports := rfl
@[simp] theorem State.setBucket_cores (s : State) (k : Nat) (b : Bucket) : (s.setBucket k b).cores = s.cores := rfl
@[simp] theorem State.setBucket_cls (s : State) (k : Nat) (b : Bucket) : (s.setBucket k b).cls = s.cls := rfl
@[simp] theorem State.setBucket_col (s : State) (k : Nat) (b : Bucket) : (s.setBucket k b).col = s.col := rfl
@[simp] theorem State.setBucket_tl (s : State) (k : Nat) (b : Bucket) : (s.setBucket k b).tl = s.tl := rfl
@[simp] theorem State.setBucket_sw (s : State) (k : Nat) (b : Bucket) : (s.setBucket k b).sw = s.sw := rfl
@[simp] theorem State.setBucket_boot (s : State) (k : Nat) (b : Bucket) : (s.setBucket k b).boot = s.boot := rfl
@[simp] theorem State.setBucket_pwr (s : State) (k : Nat) (b : Bucket) : (s.setBucket k b).pwr = s.pwr := rfl
@[simp] theorem State.setBucket_mg (s : State) (k : Nat) (b : Bucket) : (s.setBucket k b).mg = s.mg := rfl
@[simp] theorem State.setBucket_flt (s : State) (k : Nat) (b : Bucket) : (s.setBucket k b).flt = s.flt := rfl
@[simp] theorem State.setBucket_out (s : State) (k : Nat) (b : Bucket) : (s.setBucket k b).out = s.out := rfl
@[simp] theorem State.setBucket_free (s : State) (k : Nat) (b : Bucket) : (s.setBucket k b).free = s.free := rfl
@[simp] theorem State.setBucket_pending (s : State) (k : Nat) (b : Bucket) : (s.setBucket k b).pending = s.pending := rfl

-- setVarveAcc

@[simp] theorem State.setVarveAcc_fuses (s : State) (r d : Nat) (v : VarveAcc) : (s.setVarveAcc r d v).fuses = s.fuses := rfl
@[simp] theorem State.setVarveAcc_clock (s : State) (r d : Nat) (v : VarveAcc) : (s.setVarveAcc r d v).clock = s.clock := rfl
@[simp] theorem State.setVarveAcc_tb (s : State) (r d : Nat) (v : VarveAcc) : (s.setVarveAcc r d v).tb = s.tb := rfl
@[simp] theorem State.setVarveAcc_lock (s : State) (r d : Nat) (v : VarveAcc) : (s.setVarveAcc r d v).lock = s.lock := rfl
@[simp] theorem State.setVarveAcc_present (s : State) (r d : Nat) (v : VarveAcc) : (s.setVarveAcc r d v).present = s.present := rfl
@[simp] theorem State.setVarveAcc_regs (s : State) (r d : Nat) (v : VarveAcc) : (s.setVarveAcc r d v).regs = s.regs := rfl
@[simp] theorem State.setVarveAcc_mem (s : State) (r d : Nat) (v : VarveAcc) : (s.setVarveAcc r d v).mem = s.mem := rfl
@[simp] theorem State.setVarveAcc_marks (s : State) (r d : Nat) (v : VarveAcc) : (s.setVarveAcc r d v).marks = s.marks := rfl
@[simp] theorem State.setVarveAcc_ecc (s : State) (r d : Nat) (v : VarveAcc) : (s.setVarveAcc r d v).ecc = s.ecc := rfl
@[simp] theorem State.setVarveAcc_banks (s : State) (r d : Nat) (v : VarveAcc) : (s.setVarveAcc r d v).banks = s.banks := rfl
@[simp] theorem State.setVarveAcc_chans (s : State) (r d : Nat) (v : VarveAcc) : (s.setVarveAcc r d v).chans = s.chans := rfl
@[simp] theorem State.setVarveAcc_hg (s : State) (r d : Nat) (v : VarveAcc) : (s.setVarveAcc r d v).hg = s.hg := rfl
@[simp] theorem State.setVarveAcc_fab (s : State) (r d : Nat) (v : VarveAcc) : (s.setVarveAcc r d v).fab = s.fab := rfl
@[simp] theorem State.setVarveAcc_ports (s : State) (r d : Nat) (v : VarveAcc) : (s.setVarveAcc r d v).ports = s.ports := rfl
@[simp] theorem State.setVarveAcc_cores (s : State) (r d : Nat) (v : VarveAcc) : (s.setVarveAcc r d v).cores = s.cores := rfl
@[simp] theorem State.setVarveAcc_cls (s : State) (r d : Nat) (v : VarveAcc) : (s.setVarveAcc r d v).cls = s.cls := rfl
@[simp] theorem State.setVarveAcc_col (s : State) (r d : Nat) (v : VarveAcc) : (s.setVarveAcc r d v).col = s.col := rfl
@[simp] theorem State.setVarveAcc_tl (s : State) (r d : Nat) (v : VarveAcc) : (s.setVarveAcc r d v).tl = s.tl := rfl
@[simp] theorem State.setVarveAcc_sw (s : State) (r d : Nat) (v : VarveAcc) : (s.setVarveAcc r d v).sw = s.sw := rfl
@[simp] theorem State.setVarveAcc_boot (s : State) (r d : Nat) (v : VarveAcc) : (s.setVarveAcc r d v).boot = s.boot := rfl
@[simp] theorem State.setVarveAcc_pwr (s : State) (r d : Nat) (v : VarveAcc) : (s.setVarveAcc r d v).pwr = s.pwr := rfl
@[simp] theorem State.setVarveAcc_mg (s : State) (r d : Nat) (v : VarveAcc) : (s.setVarveAcc r d v).mg = s.mg := rfl
@[simp] theorem State.setVarveAcc_flt (s : State) (r d : Nat) (v : VarveAcc) : (s.setVarveAcc r d v).flt = s.flt := rfl
@[simp] theorem State.setVarveAcc_out (s : State) (r d : Nat) (v : VarveAcc) : (s.setVarveAcc r d v).out = s.out := rfl
@[simp] theorem State.setVarveAcc_free (s : State) (r d : Nat) (v : VarveAcc) : (s.setVarveAcc r d v).free = s.free := rfl
@[simp] theorem State.setVarveAcc_pending (s : State) (r d : Nat) (v : VarveAcc) : (s.setVarveAcc r d v).pending = s.pending := rfl

-- setStep

@[simp] theorem State.setStep_fuses (s : State) (p : HgStep) : (s.setStep p).fuses = s.fuses := rfl
@[simp] theorem State.setStep_clock (s : State) (p : HgStep) : (s.setStep p).clock = s.clock := rfl
@[simp] theorem State.setStep_tb (s : State) (p : HgStep) : (s.setStep p).tb = s.tb := rfl
@[simp] theorem State.setStep_lock (s : State) (p : HgStep) : (s.setStep p).lock = s.lock := rfl
@[simp] theorem State.setStep_present (s : State) (p : HgStep) : (s.setStep p).present = s.present := rfl
@[simp] theorem State.setStep_regs (s : State) (p : HgStep) : (s.setStep p).regs = s.regs := rfl
@[simp] theorem State.setStep_mem (s : State) (p : HgStep) : (s.setStep p).mem = s.mem := rfl
@[simp] theorem State.setStep_marks (s : State) (p : HgStep) : (s.setStep p).marks = s.marks := rfl
@[simp] theorem State.setStep_ecc (s : State) (p : HgStep) : (s.setStep p).ecc = s.ecc := rfl
@[simp] theorem State.setStep_rsv (s : State) (p : HgStep) : (s.setStep p).rsv = s.rsv := rfl
@[simp] theorem State.setStep_banks (s : State) (p : HgStep) : (s.setStep p).banks = s.banks := rfl
@[simp] theorem State.setStep_chans (s : State) (p : HgStep) : (s.setStep p).chans = s.chans := rfl
@[simp] theorem State.setStep_fab (s : State) (p : HgStep) : (s.setStep p).fab = s.fab := rfl
@[simp] theorem State.setStep_ports (s : State) (p : HgStep) : (s.setStep p).ports = s.ports := rfl
@[simp] theorem State.setStep_cores (s : State) (p : HgStep) : (s.setStep p).cores = s.cores := rfl
@[simp] theorem State.setStep_cls (s : State) (p : HgStep) : (s.setStep p).cls = s.cls := rfl
@[simp] theorem State.setStep_col (s : State) (p : HgStep) : (s.setStep p).col = s.col := rfl
@[simp] theorem State.setStep_tl (s : State) (p : HgStep) : (s.setStep p).tl = s.tl := rfl
@[simp] theorem State.setStep_sw (s : State) (p : HgStep) : (s.setStep p).sw = s.sw := rfl
@[simp] theorem State.setStep_boot (s : State) (p : HgStep) : (s.setStep p).boot = s.boot := rfl
@[simp] theorem State.setStep_pwr (s : State) (p : HgStep) : (s.setStep p).pwr = s.pwr := rfl
@[simp] theorem State.setStep_mg (s : State) (p : HgStep) : (s.setStep p).mg = s.mg := rfl
@[simp] theorem State.setStep_flt (s : State) (p : HgStep) : (s.setStep p).flt = s.flt := rfl
@[simp] theorem State.setStep_out (s : State) (p : HgStep) : (s.setStep p).out = s.out := rfl
@[simp] theorem State.setStep_free (s : State) (p : HgStep) : (s.setStep p).free = s.free := rfl
@[simp] theorem State.setStep_pending (s : State) (p : HgStep) : (s.setStep p).pending = s.pending := rfl

-- setLanding

@[simp] theorem State.setLanding_fuses (s : State) (k : Nat) (x : Landing) : (s.setLanding k x).fuses = s.fuses := rfl
@[simp] theorem State.setLanding_clock (s : State) (k : Nat) (x : Landing) : (s.setLanding k x).clock = s.clock := rfl
@[simp] theorem State.setLanding_tb (s : State) (k : Nat) (x : Landing) : (s.setLanding k x).tb = s.tb := rfl
@[simp] theorem State.setLanding_lock (s : State) (k : Nat) (x : Landing) : (s.setLanding k x).lock = s.lock := rfl
@[simp] theorem State.setLanding_present (s : State) (k : Nat) (x : Landing) : (s.setLanding k x).present = s.present := rfl
@[simp] theorem State.setLanding_regs (s : State) (k : Nat) (x : Landing) : (s.setLanding k x).regs = s.regs := rfl
@[simp] theorem State.setLanding_mem (s : State) (k : Nat) (x : Landing) : (s.setLanding k x).mem = s.mem := rfl
@[simp] theorem State.setLanding_marks (s : State) (k : Nat) (x : Landing) : (s.setLanding k x).marks = s.marks := rfl
@[simp] theorem State.setLanding_ecc (s : State) (k : Nat) (x : Landing) : (s.setLanding k x).ecc = s.ecc := rfl
@[simp] theorem State.setLanding_rsv (s : State) (k : Nat) (x : Landing) : (s.setLanding k x).rsv = s.rsv := rfl
@[simp] theorem State.setLanding_banks (s : State) (k : Nat) (x : Landing) : (s.setLanding k x).banks = s.banks := rfl
@[simp] theorem State.setLanding_chans (s : State) (k : Nat) (x : Landing) : (s.setLanding k x).chans = s.chans := rfl
@[simp] theorem State.setLanding_fab (s : State) (k : Nat) (x : Landing) : (s.setLanding k x).fab = s.fab := rfl
@[simp] theorem State.setLanding_ports (s : State) (k : Nat) (x : Landing) : (s.setLanding k x).ports = s.ports := rfl
@[simp] theorem State.setLanding_cores (s : State) (k : Nat) (x : Landing) : (s.setLanding k x).cores = s.cores := rfl
@[simp] theorem State.setLanding_cls (s : State) (k : Nat) (x : Landing) : (s.setLanding k x).cls = s.cls := rfl
@[simp] theorem State.setLanding_col (s : State) (k : Nat) (x : Landing) : (s.setLanding k x).col = s.col := rfl
@[simp] theorem State.setLanding_tl (s : State) (k : Nat) (x : Landing) : (s.setLanding k x).tl = s.tl := rfl
@[simp] theorem State.setLanding_sw (s : State) (k : Nat) (x : Landing) : (s.setLanding k x).sw = s.sw := rfl
@[simp] theorem State.setLanding_boot (s : State) (k : Nat) (x : Landing) : (s.setLanding k x).boot = s.boot := rfl
@[simp] theorem State.setLanding_pwr (s : State) (k : Nat) (x : Landing) : (s.setLanding k x).pwr = s.pwr := rfl
@[simp] theorem State.setLanding_mg (s : State) (k : Nat) (x : Landing) : (s.setLanding k x).mg = s.mg := rfl
@[simp] theorem State.setLanding_flt (s : State) (k : Nat) (x : Landing) : (s.setLanding k x).flt = s.flt := rfl
@[simp] theorem State.setLanding_out (s : State) (k : Nat) (x : Landing) : (s.setLanding k x).out = s.out := rfl
@[simp] theorem State.setLanding_free (s : State) (k : Nat) (x : Landing) : (s.setLanding k x).free = s.free := rfl
@[simp] theorem State.setLanding_pending (s : State) (k : Nat) (x : Landing) : (s.setLanding k x).pending = s.pending := rfl

end Sys2Proof.Machine
end

