-- ==== Sys2Proof/Laws/Regs.lean ====
section
/-! SUPPORT. Laws of bit fields and of the register file: what a register and a field read after a write. -/

namespace Sys2Proof.Machine

-- Bit fields ---------------------------------------------------------------------------------------------------------

theorem testBit_putBits (v lo w x i : Nat) :
    (putBits v lo w x).testBit i = if lo ≤ i ∧ i < lo + w then x.testBit (i - lo) else v.testBit i := by
  have h1 : v % 2 ^ lo < 2 ^ lo := Nat.mod_lt _ (Nat.two_pow_pos _)
  have h2 : x % 2 ^ w < 2 ^ w := Nat.mod_lt _ (Nat.two_pow_pos _)
  have e : putBits v lo w x = 2 ^ lo * (2 ^ w * (v >>> (lo + w)) + x % 2 ^ w) + v % 2 ^ lo := by
    unfold putBits
    rw [Nat.mul_add, ← Nat.mul_assoc, ← Nat.pow_add, Nat.mul_comm (x % 2 ^ w), Nat.mul_comm (v >>> (lo + w))]
    omega
  rw [e, Nat.testBit_two_pow_mul_add _ h1, Nat.testBit_two_pow_mul_add _ h2]
  by_cases hi : i < lo
  · simp [hi, show ¬(lo ≤ i ∧ i < lo + w) by omega]
  · by_cases hw : i < lo + w
    · simp [hi, hw, show lo ≤ i by omega, show i - lo < w by omega]
    · simp [hi, hw, show ¬ i - lo < w by omega, show lo + w + (i - lo - w) = i by omega]

theorem testBit_bitsOf (v lo w i : Nat) : (bitsOf v lo w).testBit i = (decide (i < w) && v.testBit (lo + i)) := by
  simp [bitsOf]

/-- A field that has been put reads as it was put. -/
@[simp] theorem bitsOf_putBits_self (v lo w x : Nat) : bitsOf (putBits v lo w x) lo w = x % 2 ^ w := by
  apply Nat.eq_of_testBit_eq
  intro i
  rw [testBit_bitsOf, testBit_putBits, Nat.testBit_mod_two_pow]
  by_cases h : i < w <;> simp [h]

/-- A field outside the one that has been put reads as before. -/
theorem bitsOf_putBits_ne {lo w lo' w' : Nat} (h : lo' + w' ≤ lo ∨ lo + w ≤ lo') (v x : Nat) :
    bitsOf (putBits v lo w x) lo' w' = bitsOf v lo' w' := by
  apply Nat.eq_of_testBit_eq
  intro i
  rw [testBit_bitsOf, testBit_bitsOf, testBit_putBits]
  by_cases hi : i < w'
  · rw [if_neg (by omega)]
  · simp [hi]

theorem bitsOf_mod (v lo w n : Nat) (h : lo + w ≤ n) : bitsOf (v % 2 ^ n) lo w = bitsOf v lo w := by
  apply Nat.eq_of_testBit_eq
  intro i
  rw [testBit_bitsOf, testBit_bitsOf, Nat.testBit_mod_two_pow]
  by_cases hi : i < w
  · simp [hi, show lo + i < n by omega]
  · simp [hi]

theorem bitsOf_lt (v lo w : Nat) : bitsOf v lo w < 2 ^ w := Nat.mod_lt _ (Nat.two_pow_pos _)

-- Registers ----------------------------------------------------------------------------------------------------------

theorem regResetNat_lt (a : Nat) : regResetNat a < 2 ^ 64 := by
  unfold regResetNat
  split
  · exact Nat.mod_lt _ (by decide)
  · decide

theorem State.reg_lt (s : State) (a : Nat) : s.reg a < 2 ^ 64 := by
  unfold State.reg
  split
  · exact BitVec.isLt _
  · exact regResetNat_lt a

/-- A register read as a look-up with a default. -/
theorem State.reg_eq (s : State) (a : Nat) :
    s.reg a = (tblGetD a (BitVec.ofNat 64 (regResetNat a)) s.regs).toNat := by
  unfold State.reg tblGetD
  cases tblFind a s.regs with
  | none =>
    show regResetNat a = (BitVec.ofNat 64 (regResetNat a)).toNat
    rw [BitVec.toNat_ofNat, Nat.mod_eq_of_lt (regResetNat_lt a)]
  | some w => rfl

theorem State.reg_none {s : State} {a : Nat} (h : tblFind a s.regs = none) : s.reg a = regResetNat a := by
  rw [State.reg, h]

theorem State.reg_some {s : State} {a : Nat} {w : Word} (h : tblFind a s.regs = some w) : s.reg a = w.toNat := by
  rw [State.reg, h]

/-- A register reads as it was stored. -/
@[simp] theorem State.reg_setReg_self (s : State) (a v : Nat) : (s.setReg a v).reg a = v % 2 ^ 64 := by
  simp [State.reg_eq, State.setReg]

/-- Every other register reads as before. -/
theorem State.reg_setReg_ne {a b : Nat} (h : b ≠ a) (s : State) (v : Nat) : (s.setReg a v).reg b = s.reg b := by
  simp only [State.reg_eq, State.setReg]
  rw [tblGetD_tblPut_ne h]

theorem State.fld_setReg_ne {a b : Nat} (h : b ≠ a) (s : State) (v : Nat) (f : BitField) :
    (s.setReg a v).fld b f = s.fld b f := by
  simp [State.fld, State.reg_setReg_ne h]

theorem State.reg_setFld_ne {a b : Nat} (h : b ≠ a) (s : State) (f : BitField) (v : Nat) :
    (s.setFld a f v).reg b = s.reg b := State.reg_setReg_ne h _ _

theorem State.fld_setFld_ne {a b : Nat} (h : b ≠ a) (s : State) (f g : BitField) (v : Nat) :
    (s.setFld a f v).fld b g = s.fld b g := State.fld_setReg_ne h _ _ _

/-- A field reads as it was stored. -/
theorem State.fld_setFld_self (s : State) (a : Nat) (f : BitField) (v : Nat) (h : f.lo + f.w ≤ 64) :
    (s.setFld a f v).fld a f = v % 2 ^ f.w := by
  rw [State.fld, State.setFld, State.reg_setReg_self, bitsOf_mod _ _ _ _ h, bitsOf_putBits_self]

/-- Another field of the same register reads as before. -/
theorem State.fld_setFld_other (s : State) (a : Nat) (f g : BitField) (v : Nat) (hg : g.lo + g.w ≤ 64)
    (h : g.lo + g.w ≤ f.lo ∨ f.lo + f.w ≤ g.lo) : (s.setFld a f v).fld a g = s.fld a g := by
  rw [State.fld, State.setFld, State.reg_setReg_self, bitsOf_mod _ _ _ _ hg, bitsOf_putBits_ne h]
  rfl

/-- A register reads the same in two states with the same register file. -/
theorem State.reg_congr {s t : State} (h : s.regs = t.regs) (a : Nat) : s.reg a = t.reg a := by
  simp [State.reg, h]

theorem State.fld_congr {s t : State} (h : s.regs = t.regs) (a : Nat) (f : BitField) : s.fld a f = t.fld a f := by
  simp [State.fld, State.reg_congr h]

end Sys2Proof.Machine
end

