-- ==== Sys2Proof/Laws/Setup.lean ====
section
/-! SUPPORT. Laws of answering a command and of set-up writes: the path from a row or an address to the register it reaches. -/

namespace Sys2Proof.Machine

-- Answering ----------------------------------------------------------------------------------------------------------

theorem State.act_live {s : State} (h : s.live = true) (w : List Part) (f : State → State) :
    State.act w f s = .next (s.keep w (f s)) := by
  simp [State.act, h]

theorem State.act_dead {s : State} (h : s.live = false) (w : List Part) (f : State → State) : State.act w f s = .next s := by
  simp [State.act, h]

/-- A part that a scope names is the new one; any other part is unchanged, so a scope that covers an update lets it through. -/
theorem State.keep_same {s t : State} {w : List Part} (h : ∀ p, p ∉ w → s.same t p) (hp : t.pending = s.pending) :
    s.keep w t = t := by
  have pick : ∀ {α : Type} {p : Part} {x y : α}, (p ∉ w → x = y) → (if p ∈ w then x else y) = x := by
    intro α p x y hxy
    split
    · rfl
    · exact (hxy ‹_›).symm
  show State.mk _ _ _ _ _ _ _ _ _ _ _ _ _ _ _ _ _ _ _ _ _ _ _ _ _ _ _ = t
  rw [pick (h .fuses), pick (h .clock), pick (h .tb), pick (h .lock), pick (h .present), pick (h .regs), pick (h .mem), pick (h .marks),
    pick (h .ecc), pick (h .rsv), pick (h .banks), pick (h .chans), pick (h .hg), pick (h .fab), pick (h .ports), pick (h .cores), pick (h .cls), pick (h .col),
    pick (h .tl), pick (h .sw), pick (h .boot), pick (h .pwr), pick (h .mg), pick (h .flt), pick (h .out), pick (h .free), ← hp]

theorem State.reg_keep {w : List Part} (h : Part.regs ∈ w) (s t : State) (a : Nat) : (s.keep w t).reg a = t.reg a :=
  State.reg_congr (by simp [h]) a

theorem State.fld_keep {w : List Part} (h : Part.regs ∈ w) (s t : State) (a : Nat) (f : BitField) :
    (s.keep w t).fld a f = t.fld a f := State.fld_congr (by simp [h]) a f

/-- A command that does nothing. -/
@[simp] theorem State.keep_self (w : List Part) (s : State) : s.keep w s = s :=
  State.keep_same (fun p _ => by cases p <;> rfl) rfl

-- Records -------------------------------------------------------------------------------------------------------------

/-- A detected fault is reported. -/
theorem State.fault_reports (s : State) (u c : Nat) (a : Option Nat) (d : Nat) : Reports s (s.fault u c a d) u c a d :=
  ⟨_, rfl, rfl, rfl, rfl, rfl, rfl, rfl, rfl, rfl, rfl⟩

theorem State.setupLocked_reports (s : State) (a : Nat) :
    Reports s (s.setupLocked a) 0x4014 Code.setupLocked (some (setupBase + a)) 0 := s.fault_reports _ _ _ _

/-- A report depends on the job, the time and the records of its states only. -/
theorem Reports.congr {s s' t t' : State} {u c : Nat} {a : Option Nat} {d : Nat} (h : Reports s' t' u c a d)
    (hf : s'.flt = s.flt) (hj : s'.job = s.job) (ht : s'.tb = s.tb) (hc : s'.clock = s.clock) (he : t.flt = t'.flt) :
    Reports s t u c a d := by
  obtain ⟨r, h1, h2⟩ := h
  refine ⟨r, by rw [he, h1, hf], ⟨h2.code, h2.unit, h2.addrValid, h2.address, h2.detail, by rw [h2.jobValid, hj],
    by rw [h2.job, hj], ?_, ?_⟩⟩
  · rw [h2.timeValid]; unfold State.timeValid; rw [ht]
  · rw [h2.time]; unfold State.timeValid State.now; rw [ht, hc]

-- Set-up writes ------------------------------------------------------------------------------------------------------

theorem inSetup_base (a : Nat) (h : a < 0x10000000) : inSetup (setupBase + a) = true := by
  simp [inSetup, h]

/-- A write from a source that is heard reaches its offset. -/
theorem State.setupWriteAt_heard {s : State} {src : Source} (hs : s.hears src = true) {a : Nat} (ha : a < 0x10000000) (v : Nat)
    (i p : List Byte) : s.setupWriteAt src (setupBase + a) v i p = s.writeOffset src a v i p := by
  unfold State.setupWriteAt
  simp only [inSetup_base a ha, Bool.not_true, Bool.false_eq_true, if_false, Nat.add_sub_cancel_left]
  cases src with
  | travo =>
    have : s.safeState = false := by simpa [State.hears] using hs
    simp [this]
  | core n k => simp [State.hears] at hs
  | wm k => rfl
  | mgmt => rfl

/-- A write from a control core lands in its own cluster's instances or is unmapped (R214). -/
theorem State.setupWriteAt_core (s : State) (n k : Nat) {a : Nat} (ha : a < 0x10000000) (v : Nat) (i p : List Byte) :
    s.setupWriteAt (.core n k) (setupBase + a) v i p = match coreSetup n a with
      | some b => s.writeOffset (.core n k) b v i p
      | none => s.unmapped (.core n k) (setupBase + a) .write := by
  unfold State.setupWriteAt
  have h : setupBase + a - setupBase = a := by omega
  rw [inSetup_base a ha, h]
  simp only [Bool.not_true, Bool.false_eq_true, if_false, Source.requester] <;> rfl

/-- A register outside the cluster blocks is never absent. -/
theorem State.absentInstance_false {s : State} {a : Nat} (h : a / 0x1000000 ≠ 4 ∧ a / 0x1000000 ≠ 5 ∧ a / 0x1000000 ≠ 9) :
    s.absentInstance a = false := by
  simp [State.absentInstance, h.1, h.2.1, h.2.2]

/-- A write at an assigned offset whose source the register accepts. -/
theorem State.writeOffset_found {s : State} {src : Source} {a : Nat} {d : RegDesc} (hn : s.absentInstance a = false)
    (hd : regDescAt a = some d) (hs : d.src.accepts src = true) (v : Nat) (i p : List Byte) :
    s.writeOffset src a v i p = (s.writeBlock src a (v % 2 ^ 64) i p).touchFingerprint a := by
  simp [State.writeOffset, hn, hd, hs]

/-- The local map's number of a set-up offset. -/
theorem setupBase_toNat {a : Nat} (h : a < 0x10000000) : (BitVec.ofNat 64 (setupBase + a)).toNat = setupBase + a := by
  rw [BitVec.toNat_ofNat, Nat.mod_eq_of_lt]
  simp only [setupBase]
  omega

/-- A register without a rule of its own takes a plain write. -/
theorem State.writeBlock_plain {s : State} {a : Nat} (h : plainRegister a = true) (src : Source) (v : Nat) (i p : List Byte) :
    s.writeBlock src a v i p = s.writePlain a v := by
  unfold plainRegister at h
  unfold State.writeBlock
  dsimp only at h ⊢
  split
  all_goals (try (rename_i hb; simp only [hb, Bool.and_eq_true, bne_iff_ne, ne_eq, Bool.not_eq_true', Bool.and_eq_false_iff,
    decide_eq_false_iff_not, Nat.not_le, Nat.not_lt, beq_eq_false_iff_ne] at h))
  all_goals (repeat' split)
  all_goals (try rfl)
  all_goals (try simp only [Bool.and_eq_true, decide_eq_true_eq] at *)
  all_goals (try omega)

-- The fingerprint ----------------------------------------------------------------------------------------------------

theorem fingerprint_block {a : Nat} (h : a ∈ fingerprintWords) : a / 0x1000000 = 7 ∨ a / 0x1000000 = 8 := by
  simp only [fingerprintWords, List.mem_append, List.mem_map, List.mem_range, List.mem_cons, List.mem_flatten, List.not_mem_nil,
    or_false, Reg.FWD_IDENT, Reg.FWD_POS_IF, Reg.FWD_RACK_IF, Reg.FWD_PREFIX0, Reg.FWD_PREFIX1, Reg.JT_RACKWIN, Reg.JT_EXPORT,
    Reg.JT_EXPORT_SIZE, Reg.JT_MGMT_WIN, Reg.JT_MEMBER, Reg.JT_WIN0, Reg.JT_WIN1, Reg.JT_WIN2] at h
  rcases h with ((((((h | ⟨i, hi, h⟩) | ⟨i, hi, h⟩) | ⟨l, ⟨i, hi, rfl⟩, h⟩) | h) | ⟨i, hi, h⟩) | ⟨l, ⟨i, hi, rfl⟩, h⟩)
  all_goals (try simp only [List.mem_cons, List.not_mem_nil, or_false] at h); omega

/-- Outside the fabric blocks a write leaves the fingerprint alone. -/
theorem State.touchFingerprint_outside {s : State} {a : Nat} (h : a / 0x1000000 ≠ 7 ∧ a / 0x1000000 ≠ 8) :
    s.touchFingerprint a = s := by
  unfold State.touchFingerprint
  have : fingerprintWords.contains a = false := by
    rw [Bool.eq_false_iff]
    intro hc
    rcases fingerprint_block (by simpa using hc) with e | e
    · exact h.1 e
    · exact h.2 e
  simp only [this, Bool.false_eq_true, if_false]

/-- A row's write of a register outside the cluster and fabric blocks. -/
theorem State.rowWrite_found {s : State} {src : Source} {a : Nat} {d : RegDesc} (hs : s.hears src = true) (ha : a < 0x10000000)
    (hn : a / 0x1000000 ≠ 4 ∧ a / 0x1000000 ≠ 5 ∧ a / 0x1000000 ≠ 9) (hf : a / 0x1000000 ≠ 7 ∧ a / 0x1000000 ≠ 8)
    (hd : regDescAt a = some d) (hd' : d.src.accepts src = true) (v : Word) :
    s.rowWrite src true a v = s.writeBlock src a v.toNat [] [] := by
  rw [State.rowWrite, if_pos rfl, State.setupWriteAt_heard hs ha, State.writeOffset_found (State.absentInstance_false hn) hd hd',
    State.touchFingerprint_outside hf, Nat.mod_eq_of_lt v.isLt]

end Sys2Proof.Machine
end

