-- ==== Sys2Proof/Tests/Slice0.lean ====
section
/-! SUPPORT. The architect's own tests: the well-formedness smoke, and for the statements' hypotheses states and operands that meet them,
each with what the spec says the command does there. -/

namespace Sys2Proof.Tests

open Sys2Proof Sys2Proof.Machine

-- One theorem at a time: each kernel evaluation keeps a thread, and many at once outgrow the memory of a check.
set_option Elab.async false

-- Helpers ------------------------------------------------------------------------------------------------------------

/-- The next state that a command answers; the state itself if it answers none. -/
def after (c : Instr) (s : State) : State :=
  match exec c s with
  | .next t => t
  | _ => s

/-- The firmware runs, Travo Link is up, and fabric time is LOCKED at 1 s. -/
def up : State :=
  let s := (State.reset.setFld Reg.SEC_BOOT_STATUS Fld.SEC_BOOT_STATUS_PHASE 4).setFlag Reg.TL_STATUS Fld.TL_STATUS_UP true
  { s with tb := { s.tb with mode := .locked, acc := BitVec.ofNat 96 (1000000000 * 2 ^ 32) } }

/-- The records that have been detected since `s`: unit, code, address and detail of each. -/
def newFaults (s t : State) : List (Nat × Nat × Nat × Nat) :=
  (t.flt.fresh.drop s.flt.fresh.length).map fun r => (r.unit.toNat, r.code.toNat, r.address.toNat, r.detail.toNat)

def zeros (n : Nat) : List Byte := List.replicate n 0

/-- Word 0 of a channel descriptor (R112): ENABLE, region 7, the smallest depth, from the region's start. -/
def chanWord : Word := BitVec.ofNat 64 (1 + 7 * 2 ^ 8 + 4 * 2 ^ 16)

/-- Core 3 of cluster 31 runs, from the code area. -/
def coreUp : State := after (.clCoreRunWrite .mgmt 31 8) up

def withCore (f : CoreState → CoreState) (s : State) : State := s.setCore 127 (f (s.core 127))

/-- `up`, with every port die in service. -/
def portsUp : State := up.setFld Reg.TOP_DIE_STATUS Fld.TOP_DIE_STATUS_PORT_UP 15

/-- Port 15 with a role, MODE 0 and four lanes, in a stage of which 1 ms has passed; port 14's pair mode is not used. -/
def portAt (role stage : Nat) : State :=
  let s := (portsUp.setReg (Reg.FP_CFG 15) (1 + role * 2 ^ 5)).setReg (Reg.FP_STATUS 15) (stage + 4 * 2 ^ 29)
  { s with clock := { s.clock with elapsedNs := 1000000 } }.onPort 15 fun x => { x with phase := stage }

/-- Outer headers of a packet from nowhere. -/
def outer : SwOuter := ⟨0, 0, 0, 0, 0, 0, 0⟩

-- Well-formedness ----------------------------------------------------------------------------------------------------

/-- One well-formed command of each shape of operands. -/
def wellFormed : List Instr :=
  [.topSetupLockWrite (.core 31 3) 1, .reservoirAccess [⟨0, .engine 3 3, rsvBase, true, 8, 255, zeros 8, false⟩] [⟨rsvBase, [79]⟩],
   .flitReceive ⟨3, 3, 3, true, false⟩ false [], .flitReceive ⟨3, 2, 3, true, true⟩ false [], .regionSeal (.wm 3) 255 4095 3, .push (.dma 31 1) 4095 true false (zeros 64) ⟨0, 0, 0, 0⟩ [],
   .scrubRead (.hbmSector 7 0) [], .tileCmdPush 31 3 8 [2 ^ 64 - 1], .cellFrameReceive 15 ⟨0, 0, 0, zeros 288, .good⟩ 0 [7],
   .prefill (zeros 64) false, .line 4095 false (zeros 128), .ucWr 0 0 4 255 (zeros 16) [] [], .senseCheck (List.replicate 11 (0, 0)),
   .hello 65535, .launchNotice (2 ^ 32 - 1)]

/-- Ill-formed commands: one for each check of `Source.wf`, `Requester.wf`, `Upset.wf`, `RsvRequest.wf` and the other operand checks, and one for
each bound that a command puts on an operand of its own. -/
def illFormed : List Instr :=
  [.setupWrite (.wm 4) 0 0, .topSetupLockWrite (.core 32 0) 0, .topSetupLockWrite (.core 0 4) 0,
   .fence (.core 32 0), .fence (.core 0 4), .fence (.dma 32 0), .fence (.dma 0 2), .fence (.array 32), .fence (.flume 32), .fence (.vector 32),
   .fence (.engine 4 0), .fence (.engine 0 4), .fence (.wm 4), .fence (.port 4),
   .reservoirAccess [⟨0, .wm 4, rsvBase, false, 8, 255, [], false⟩] [], .reservoirAccess [⟨0, .link, rsvBase + 1, false, 8, 255, [], false⟩] [],
   .reservoirAccess [⟨0, .link, rsvBase, false, 4, 255, [], false⟩] [], .reservoirAccess [⟨0, .link, rsvBase, false, 0, 255, [], false⟩] [],
   .reservoirAccess [⟨0, .link, rsvBase + 8, false, 256, 255, [], false⟩] [],
   .reservoirAccess [⟨0, .link, rsvBase, true, 16, 255, zeros 8, false⟩] [], .reservoirAccess [] [⟨rsvBase, [80]⟩],
   .flitReceive ⟨0, 0, 4, true, false⟩ true [], .flitReceive ⟨0, 8, 0, true, false⟩ true [], .flitReceive ⟨2, 2, 0, true, false⟩ true [],
   .flitReceive ⟨3, 4, 0, true, false⟩ true [], .flitReceive ⟨4, 1, 0, true, false⟩ true [], .flitReceive ⟨5, 1, 0, true, false⟩ true [],
   .flitReceive ⟨1, 0, 0, true, false⟩ true [], .flitReceive ⟨3, 3, 3, true, true⟩ true [], .flitReceive ⟨2, 0, 1, true, true⟩ true [],
   .flitReceive ⟨0, 0, 0, true, false⟩ true [(.wm 4, 0)],
   .regionSeal .link 256 0 0, .regionSeal .link 0 4096 0, .regionSeal .link 0 0 4, .sealSignal 256, .regionRelease 256,
   .varveMark .link 0 0 4, .rsvRegionWrite .mgmt 256 0, .slcChanWrite .mgmt 4096 0, .resetChannel .mgmt 4096 0,
   .push .link 4096 true false (zeros 64) ⟨0, 0, 0, 0⟩ [], .push .link 0 true false (zeros 63) ⟨0, 0, 0, 0⟩ [],
   .pop .link 4096 ⟨0, 0, 0, 0⟩ [], .peek .link 4096 ⟨0, 0, 0, 0⟩ [], .dropPacket .link 4096 ⟨0, 0, 0, 0⟩ [],
   .count .link 4096 ⟨0, 0, 0, 0⟩ [], .sluiceStorageDone 4096, .fenceMarkersAcked .link 4096,
   .ftSrcWrite (.wm 4) 0, .ftTurnOriginWrite (.wm 4) 0, .ftTurnLenWrite (.wm 4) 0, .ftEpochTaiWrite (.wm 4) 0,
   .turnBoundary [⟨0, 3, 0⟩] false, .scrubRead (.rsvLine 4 0) [], .scrubRead (.spLine 32 0) [], .scrubRead (.hbmSector 8 0) [],
   .scrubRead (.headgate 2 0) [], .scrubRead (.portBuf 4 0) [], .layerDescriptorWrite .mgmt 4096 0 0, .layerDescriptorWrite .mgmt 0 8 0,
   .hgZoneWrite .mgmt 1024 0 0, .hgZoneWrite .mgmt 0 4 0, .placeLoad (.wm 4) 0, .clCoreRunWrite .mgmt 32 0,
   .amo .link .add true 32 0 0, .amo .link .add true 0 32 0, .amo .link .add true 0 0 32, .lrSc .link 32, .clAtomCtrlWrite 32 0 0,
   .clAtomCtrlWrite 0 4 0, .tileCmdPush 32 0 0 [], .tileCmdPush 0 4 0 [], .tileCmdPush 0 0 4 [], .tileCmdPush 0 0 0 [2 ^ 64],
   .matmul 32 false, .tileRetire 32, .tileBoundary 32, .fillBegin 32 0, .fillBegin 0 255, .fillEnd 0 255, .free 0 255, .clBufWrite .mgmt 0 255 0,
   .dmaPush 0 2 0 0 [], .dmaStart 0 2, .dmaComplete 0 2, .vecPush 32 0 0 [], .add 32, .mul 32, .axpy 32, .scaleBias 32, .exp 32, .siluMul 32,
   .rmsnorm 32, .softmax 32, .rope 32, .convert 32, .quantRow 32, .rowSum 32, .rowMax 32, .sample 32, .vecRetire 32,
   .flumeCmdPush 32 0 0 [], .gather 32, .compact 32, .mask 32, .check 32, .merge 32, .flumeComplete 32,
   .portEnableWrite .mgmt 16 0, .cmTestDone 16 [], .cmTestDone 0 (List.replicate 9 .pass), .trainDone 16 [], .trainDone 0 [8],
   .laneIdDone 16 0 0 0 0, .laneIdDone 0 65536 0 0 0, .laneIdDone 0 0 256 0 0, .laneIdDone 0 0 0 256 0, .alignDone 16, .lldpSend 16,
   .lldpReceive 16 ⟨0, 0, [], 0⟩, .identityExpire 16, .cdrLoss 16 0, .cdrLoss 0 8, .retrainTimeout 16, .linkMcuReload 4 0,
   .cellFrameReceive 16 ⟨0, 0, 0, zeros 288, .good⟩ 0 [], .cellFrameReceive 0 ⟨0, 0, 0, zeros 287, .good⟩ 0 [],
   .cellFrameReceive 0 ⟨0, 0, 0, zeros 288, .good⟩ 0 [8], .pauseReceive 16, .swPacketReceive 16 ⟨outer, ⟨0, 0, 0, 0, 0, 0, 0, []⟩⟩,
   .swPacketReceive 0 ⟨outer, ⟨0, 0, 0, 2 ^ 32, 0, 0, 0, []⟩⟩, .swPacketReceive 0 ⟨outer, ⟨0, 0, 0, 0, 2 ^ 32, 0, 0, []⟩⟩,
   .swAckReceive 16 ⟨outer, ⟨0, 0, 0, 0, 0, 0, 0, []⟩⟩, .swPacketSend 16, .swAckSend 65536, .rtoExpire 65536 0, .rtoExpire 0 (2 ^ 32),
   .neighborSolicitation 16 0, .ptpEventMessage 16 ⟨0, false, .announce⟩, .loadIssue .link false 0 0 .none, .storeIssue .link false 0 255 [] false 4,
   .storeIssue .link false 0 256 [0] false 4, .storeIssue .link false 0 255 [0] false 5,
   .atomicIssue .link false 0 16 false false 0 0 .none, .load 4, .store 4, .atomicAdd 4, .atomicMin 4, .atomicMax 4, .atomicAnd 4, .atomicOr 4,
   .atomicXor 4, .atomicSwap 4, .atomicCas 4, .atomicFadd 4, .atomicBadd2 4, .loadRsp 4, .atomicRsp 4, .ack 4, .ackDelayExpire 4 0,
   .tDeadExpire 65536, .allReduce .link 4 [], .reduceScatter .link 4 [], .allGather .link 4 [], .broadcast .link 4 [], .barrier .link 4 [],
   .barrier .link 0 [2 ^ 64], .colFinish 32 0, .travoFlitReceive 32 0 0 false true, .travoFlitReceive 0 4096 0 false true,
   .travoFlitReceive 0 0 4096 false true, .snpShared 4096 0, .snpInv 4096 0, .line 4096 false (zeros 128), .line 0 false (zeros 64), .grant 4096,
   .ucRd 4096 0 3 false, .ucRd 0 0 2 false, .ucWr 4096 0 3 255 (zeros 8) [] [], .ucWr 0 0 2 255 (zeros 4) [] [],
   .ucWr 0 0 3 65536 (zeros 8) [] [], .ucWr 0 0 3 255 (zeros 16) [] [], .tlRingWrite .mgmt 16384 0 0, .tlRingWrite .mgmt 0 3 0,
   .dbTail 16384 0, .dbTail 0 65536, .dbHead 16384 0, .dbHead 0 65536, .poll 4096 0, .poll 0 16384, .prefill (zeros 63) false,
   .generate (zeros 63) false, .sessionSet (zeros 63) false [] false, .sessionClose (zeros 63) false, .abort (zeros 63) false,
   .call (zeros 63) false, .stepBoundary [⟨0, 0, 2 ^ 32⟩], .switchReady [⟨0, [80]⟩], .canonWrite 32 0, .wmReproWrite .mgmt 256 0,
   .wmRecover (.wm 4) 0 [], .retireCluster (.wm 4) 0, .eccRsvRetireWrite .mgmt 4 0 0, .eccRsvRetireWrite .mgmt 0 1024 0,
   .recoveryGo (.wm 4) 0 [] [], .secSvnBurnWrite (.wm 4) 0, .hello 65536, .accept 65536, .set 65536, .get 65536, .attest 65536, .quiesce 65536,
   .timeAnnounce 65536, .start 65536, .launch 65536, .launchNotice (2 ^ 32), .launchAckTimeout 65536 0, .launchAckTimeout 0 (2 ^ 32),
   .launchChild 65536, .reparent 65536, .launchAbort 65536, .senseCheck (List.replicate 10 (0, 0)),
   .tempRefresh [(256, 0)], .bmcCapWWrite 65536 true, .avsbusError 2 0, .avsbusError 0 4, .teardownDrainEnd [(2 ^ 40, 1)],
   .hbmAccess ⟨0, .wm 4, 0, false, 32, 0, [], false⟩ [] 0, .hbmAccess ⟨0, .link, 0, false, 32, 0, [], false⟩ [⟨0, [80]⟩] 0]

theorem test_wellFormed_accepts : (wellFormed.all Instr.wf) = true := by decide +kernel

theorem test_wellFormed_refuses_each_check : (illFormed.all fun i => !i.wf) = true := by decide +kernel

-- The machine and set-up space ---------------------------------------------------------------------------------------

/-- Two commands wait. -/
def queued : State := { up with pending := [.smbPartRead, .commit] }

theorem witness_StepRunsTheFrontCommand : queued.pending = .smbPartRead :: [.commit] := by decide +kernel

theorem witness_IdleStepRunsTheCollectiveProgram : up.pending = [] ∧ up.colBusy = false ∧ step up = .next up := ⟨rfl, by decide +kernel, rfl⟩

/-- A tripped device (R545). -/
def tripped : State := { up with pwr := { up.pwr with trip := true } }

theorem witness_DeadDeviceIgnoresCommands :
    tripped.live = false ∧ onSideband .commit = false ∧ tripped.pwr.trip = true ∧ after .commit tripped = tripped ∧
      (after (.powerReset false) tripped).pwr.trip = true ∧ (after (.powerReset true) tripped).pwr.trip = false := by decide +kernel

/-- The lock is set (R47). -/
def locked : State := { up with lock := true }

/-- FWD_SW has an RWL field at bit 0, reset to 51,380, beside an RW field at bit 16, reset to 64 (R333). -/
def writeSw (s : State) : State := after (.setupWrite .mgmt (BitVec.ofNat 64 (setupBase + Reg.FWD_SW)) (7 * 2 ^ 16 + 1)) s

theorem witness_SetupWriteFollowsTheAccessCodes :
    locked.live = true ∧ locked.hears .mgmt = true ∧ ((regDescAt Reg.FWD_SW).map fun d => d.src.accepts .mgmt) = some true ∧
      plainRegister Reg.FWD_SW = true ∧ locked.absentInstance Reg.FWD_SW = false ∧ (writeSw up).reg Reg.FWD_SW = 7 * 2 ^ 16 + 1 ∧
      (writeSw locked).reg Reg.FWD_SW = 7 * 2 ^ 16 + 51380 ∧
      newFaults locked (writeSw locked) = [(0x4014, 0x80, setupBase + Reg.FWD_SW, 0)] ∧ newFaults up (writeSw up) = [] := by
  decide +kernel

theorem witness_UnassignedAddressesReadZeroAndIgnoreWrites :
    regDescAt (mirrored 0xFFFFFF8) = none ∧ regDescAt 0xFFFFFF8 = none ∧ inWindow 0xFFFFFF8 = false ∧ up.live = true ∧ up.travoUp = true ∧
      up.hears .mgmt = true ∧ up.setupReadAt (setupBase + 0xFFFFFF8) = 0 ∧
      after (.setupWrite .mgmt (BitVec.ofNat 64 (setupBase + 0xFFFFFF8)) 1) up = up ∧
      (after (.ucRd 5 (BitVec.ofNat 64 (setupBase + 0xFFFFFF8)) 3 false) up).out =
        [.travo ⟨0x1A, false, 5, 0, 3, setupBase + 0xFFFFFF8, 0, zeros 8⟩ 0] := by decide +kernel

/-- Travo Link may not write PWR_CTRL (R551); a core of cluster 3 does not reach TOP_ (R214). -/
theorem witness_RefusedSourcesChangeNothing :
    up.live = true ∧ up.hears .travo = true ∧ ((regDescAt Reg.PWR_CTRL).map fun d => d.src.accepts .travo) = some false ∧
      up.absentInstance Reg.PWR_CTRL = false ∧ coreSetup 3 Reg.TOP_SETUP_LOCK = none ∧
      newFaults up (after (.setupWrite .travo (BitVec.ofNat 64 (setupBase + Reg.PWR_CTRL)) 1) up) =
        [(0x4014, 0x80, setupBase + Reg.PWR_CTRL, 0)] ∧
      newFaults up (after (.setupWrite (.core 3 1) (BitVec.ofNat 64 (setupBase + Reg.TOP_SETUP_LOCK)) 1) up) =
        [(0x35, 0x33, setupBase + Reg.TOP_SETUP_LOCK, 0x10000)] := by decide +kernel

theorem witness_LockIsSetByWritingOne :
    up.live = true ∧ up.hears .mgmt = true ∧ (after (.topSetupLockWrite .mgmt 1) up).lock = true ∧
      (after (.topSetupLockWrite .mgmt 0) locked).lock = true := by decide +kernel

-- The Reservoir ------------------------------------------------------------------------------------------------------

/-- An entry of the region table (R103): type, pinned, die, VARVE, SEAL_COUNT, BASE, SIZE − 1. -/
def regionEntry (type pinned die varve seals base size : Nat) : Nat :=
  type + pinned * 2 ^ 3 + die * 2 ^ 4 + varve * 2 ^ 6 + seals * 2 ^ 8 + base * 2 ^ 16 + size * 2 ^ 32

/-- Region 7 is an ACT region of four granules, interleaved, with VARVE and one seal a die; region 8 is pinned to die 2. -/
def regions : State :=
  (up.setReg (Reg.RSV_REGION 7) (regionEntry 2 0 0 1 1 16 3)).setReg (Reg.RSV_REGION 8) (regionEntry 2 1 2 0 0 32 7)

/-- An ACT region free of the two, and one over region 7. -/
def freeEntry : Word := BitVec.ofNat 64 (regionEntry 2 0 0 0 1 64 3)
def overEntry : Word := BitVec.ofNat 64 (regionEntry 2 0 0 0 1 16 3)

theorem witness_RegionWriteIsTaken :
    regions.live = true ∧ regions.hears .mgmt = true ∧ regions.col.seals = [] ∧ regions.regionRefusal 255 (regionWord freeEntry) = none ∧
      (after (.rsvRegionWrite .mgmt 255 freeEntry) regions).reg (Reg.RSV_REGION 255) = freeEntry.toNat ∧
      regions.regionRefusal 7 (regionWord 0) = none ∧ (Region.ofWord (regionWord 0)).type = 0 := by decide +kernel

theorem witness_RefusedRegionWriteChangesNothing :
    regions.regionRefusal 255 (regionWord overEntry) = some (0, 7) ∧ (regions.region 7).type ≠ 0 ∧ (Region.ofWord (regionWord overEntry)).type ≠ 0 ∧
      (Region.ofWord (regionWord overEntry)).occupies 3 16 = true ∧ (regions.region 7).occupies 3 16 = true ∧
      newFaults regions (after (.rsvRegionWrite .mgmt 255 overEntry) regions) =
        [(0x1050, 0x81, setupBase + Reg.RSV_REGION 255, 255 + 7 * 2 ^ 16)] ∧
      regions.regionRefusal 7 (regionWord overEntry) ≠ none := by decide +kernel

/-- Granule 1 of region 7 lies on die 0, and the last byte of pinned region 8 in its last granule (R104). -/
theorem witness_RegionsPlaceAndRecoverTheirOffsets :
    (regions.region 7).type ≠ 0 ∧ 4095 < (regions.region 7).size * 4096 ∧ (regions.region 7).size % 4 = 0 ∧
      regions.decode (regionAddr 7 4096) = .rsv 0 (16 * 4096) (some (7, 4096)) ∧ (regions.region 8).pinned = true ∧
      32767 < (regions.region 8).size * 4096 ∧ regions.decode (regionAddr 8 32767) = .rsv 2 (39 * 4096 + 4095) (some (8, 32767)) := by
  decide +kernel

/-- Cluster 31 has sealed region 7 on dies 0 to 2, for layer 9. -/
def sealing : State :=
  after (.regionSeal (.array 31) 7 9 2) (after (.regionSeal (.array 31) 7 9 1) (after (.regionSeal (.array 31) 7 9 0) regions))

theorem witness_SealIsCounted :
    sealing.live = true ∧ sealSource (.array 31) = some 31 ∧ sealing.sealCounts 31 7 9 3 = true ∧ sealing.sealedLayer 7 = none ∧
      (after (.regionSeal (.array 31) 7 9 3) sealing).sealedLayer 7 = some 9 := by decide +kernel

theorem witness_LateSealIsDiscarded :
    sealing.sealCounts 31 7 9 0 = false ∧ sealing.sealCounts 30 7 8 0 = false ∧
      (newFaults sealing (after (.regionSeal (.array 31) 7 9 0) sealing)).map (fun e => (e.1, e.2.1, bitsOf e.2.2.2 20 4)) =
        [(0x1050, 0x12, 1)] ∧
      (newFaults sealing (after (.regionSeal (.array 30) 7 8 0) sealing)).map (fun e => (bitsOf e.2.2.2 20 4, bitsOf e.2.2.2 8 12, bitsOf e.2.2.2 46 12)) =
        [(4, 9, 8)] := by decide +kernel

/-- Region 7 is sealed for layer 9. -/
def sealed7 : State := after (.regionSeal (.array 31) 7 9 3) sealing

theorem witness_ReleaseUnsealsTheRegion :
    (sealed7.sealedLayer 7).isSome = true ∧ (after (.regionRelease 7) sealed7).sealedLayer 7 = none ∧ regions.sealedLayer 7 = none ∧
      after (.regionRelease 7) regions = regions := by decide +kernel

theorem witness_SealSignalReachesTheEngines :
    sealed7.sealedLayer 7 = some 9 ∧ 7 ≠ sealed7.gateRegion 0 ∧ 7 ≠ sealed7.gateRegion 1 ∧ regions.sealedLayer 7 = none ∧
      (after (.sealSignal 7) sealed7).out = [.sealSignal 7 9] := by decide +kernel

/-- Region 7 is the gate region of parity 0; nothing holds the Headgate, or a preemption does, or a failure. -/
def gated : State := sealed7.setReg Reg.HG_XCH_REGIONS (7 * 2 ^ 16)
def gatedHeld : State := { gated with sw := { gated.sw with stopped := true } }
def gatedFaulted : State := { gated with hg := { gated.hg with faulted := true } }

theorem witness_SealSignalReachesTheEngines_gate :
    gated.sealedLayer 7 = some 9 ∧ gated.gateRegion 0 = 7 ∧ gated.hgHeld = false ∧ gated.hg.steps = [] ∧ gated.hg.nextStep = 0 ∧
      (after (.sealSignal 7) gated).hg.nextStep = 1 ∧ (after (.sealSignal 7) gated).col.seals = [] ∧ gatedHeld.hgHeld = true ∧
      (after (.sealSignal 7) gatedHeld).col.seals = [(7, (0, 1000000000))] ∧ gatedFaulted.hgHeld = false ∧ gatedFaulted.col.seals = [] ∧
      (after (.sealSignal 7) gatedFaulted).col.seals = [(7, (0, 1000000000))] := by decide +kernel

/-- Three dies of region 7 have taken an explicit mark of Watermaster core 0, and the varve ring is on in RSV_VARVE_CTRL. -/
def marking : State :=
  let s := regions.setFlag Reg.RSV_VARVE_CTRL Fld.RSV_VARVE_CTRL_RING_ENABLE true
  after (.varveMark (.wm 0) 7 1 2) (after (.varveMark (.wm 0) 7 1 1) (after (.varveMark (.wm 0) 7 1 0) s))

theorem witness_VarveMarkTakesTheSnapshot :
    regions.live = true ∧ (regions.region 8).varve = false ∧ (regions.region 7).varve = true ∧ regions.rsv.marks = [] ∧
      (marking.rsv.marks.map fun m => m.dies.length) = [3] ∧ marking.flag Reg.RSV_VARVE_CTRL Fld.RSV_VARVE_CTRL_RING_ENABLE = true ∧
      (after (.varveMark (.wm 0) 7 1 3) marking).rsv.ready.length = 1 ∧ (after (.varveMark (.wm 0) 7 1 3) marking).rsv.marks = [] := by
  decide +kernel

/-- A mark is complete, and the varve ring, ring 5, has one entry of room or none. -/
def varveReady (log : Nat) : State :=
  let s := after (.varveMark (.wm 0) 7 1 3) marking
  let s := s.setReg (Reg.TL_RING0 5) (1 + 5 * 2 + log * 2 ^ 4)
  s.setFld Reg.TL_EVENT Fld.TL_EVENT_VARVE_RING 5

theorem witness_VarveRecordEntersTheRing :
    (varveReady 4).live = true ∧ (varveReady 4).rsv.ready.length = 1 ∧ (varveReady 4).rsv.buffer = [] ∧
      (varveReady 4).ringRoom (varveReady 4).varveRing 5 = true ∧
      ((after .varveRecordWrite (varveReady 4)).ring 5).tail = 1 ∧ (after .varveRecordWrite (varveReady 4)).rsv.ready = [] := by
  decide +kernel

/-- The varve ring is off, and the buffer holds `n` records. -/
def varveHeld (n : Nat) : State :=
  let s := varveReady 4
  let r : VarveRecord := ⟨0, 7, 1, true, false, false, false, 0, 0, 0, true, 0, 0⟩
  { s.setReg (Reg.TL_RING0 5) 0 with rsv := { s.rsv with buffer := List.replicate n r } }

theorem witness_VarveRecordWaitsOrIsLost :
    (varveHeld 255).rsv.ready.length = 1 ∧ (varveHeld 255).ringRoom (varveHeld 255).varveRing 5 = false ∧
      (varveHeld 255).rsv.buffer.length = 255 ∧ (after .varveRecordWrite (varveHeld 255)).rsv.buffer.length = 256 ∧
      (varveHeld 256).rsv.buffer.length = 256 ∧ (after .varveRecordWrite (varveHeld 256)).rsv.lost = true ∧
      (after .varveRecordWrite (varveHeld 256)).rsv.buffer.length = 256 := by decide +kernel

/-- Seven flits in a row have failed on the link from compute die 7 to Reservoir die 3. -/
def linkFailing : State := { up with ecc := { up.ecc with linkFails := [(linkKey ⟨0, 7, 3, true, false⟩, 7)] } }

theorem witness_BadFlitIsReplayedAndCounted :
    linkFailing.live = true ∧ tblGetD (linkKey ⟨0, 7, 3, true, false⟩) 0 linkFailing.ecc.linkFails = 7 ∧
      min ((linkFailing.bucket (bucketKey 6 (linkUnit ⟨0, 7, 3, true, false⟩) 0)).level + linkFailing.eccW 6) (2 ^ 24 - 1) <
        linkFailing.eccN 6 * linkFailing.eccW 6 ∧
      (after (.flitReceive ⟨0, 7, 3, true, false⟩ false []) linkFailing).out = [.replay (linkKey ⟨0, 7, 3, true, false⟩)] ∧
      (after (.flitReceive ⟨0, 7, 3, true, false⟩ true []) linkFailing).ecc.linkFails = [] := by decide +kernel

/-- The ninth failure in a row is that of a forwarding link; a link from port die 3 to itself there is none (R28, R31). -/
theorem witness_BadFlitIsReplayedAndCounted_ninth :
    (after (.flitReceive ⟨3, 2, 3, true, true⟩ false [(.core 31 3, 64)])
        { up with ecc := { up.ecc with linkFails := [(linkKey ⟨3, 2, 3, true, true⟩, 8)] } }).out =
      [.bus (.core 31 3) 64 Code.uncorrectable []] ∧
      DieLink.wf ⟨3, 3, 3, true, true⟩ = false ∧ after (.flitReceive ⟨3, 3, 3, true, true⟩ false []) up = up := by decide +kernel

/-- Eight bytes lie at die-view offset 2^28 − 8 of Reservoir die 3, where no region lies. -/
def stored : State := { up with mem := memPutBytes [] (rsvBase + 3 * 2 ^ 32 + 2 ^ 28 - 8) (leBytes 8 0x1122334455667788) }

def lastWord : Nat := rsvBase + 3 * 2 ^ 32 + 2 ^ 28 - 8

theorem witness_ReservoirReadReturnsTheBytes :
    stored.live = true ∧ stored.decode lastWord = .rsv 3 (2 ^ 28 - 8) none ∧ lastWord % 256 + 8 ≤ 256 ∧ stored.marks = [] ∧
      (after (.reservoirAccess [⟨0, .wm 0, lastWord, false, 8, 255, [], false⟩] []) stored).out =
        [.bus (.wm 0) lastWord 0 (leBytes 8 0x1122334455667788)] := by decide +kernel

theorem witness_ReservoirWriteStoresTheEnabledBytes :
    stored.decode lastWord = .rsv 3 (2 ^ 28 - 8) none ∧ (2 ^ 28 - 8) % 8 = 0 ∧ lastWord % 8 = 0 ∧
      tblFind (rsvBase + 3 * 2 ^ 32 + (2 ^ 28 - 8)) stored.marks = none ∧
      memNat (after (.reservoirAccess [⟨0, .wm 0, lastWord, true, 8, 0x81, leBytes 8 0xAABBCCDDEEFF0011, false⟩] []) stored).mem lastWord 8 =
        0xAA22334455667711 := by decide +kernel

-- Sluice channels ----------------------------------------------------------------------------------------------------

/-- Region 7 of a SLUICE type with 20 granules, wholly inside which channel 4095 of depth 2^4 lies; channel 5's storage is not mapped. -/
def sluice : State := up.setReg (Reg.RSV_REGION 7) (3 + 16 * 2 ^ 16 + 19 * 2 ^ 32)

/-- The channel is enabled. -/
def chanUp : State := after (.slcChanWrite .mgmt 4095 chanWord) sluice

theorem witness_ChannelWriteStartsEmptyOrIsRefused :
    sluice.live = true ∧ sluice.hears .mgmt = true ∧ sluice.chanOn 4095 = false ∧ chanWord.getLsbD 0 = true ∧
      sluice.storageMapped 7 0 (2 ^ 4) = true ∧ up.storageMapped 7 0 (2 ^ 4) = false ∧ chanUp.chanOn 4095 = true ∧
      channelWord chanWord + 1 ≠ chanUp.reg (Reg.SLC_CHAN0 4095) ∧
      channelWord (chanWord - 1) + 1 = chanUp.reg (Reg.SLC_CHAN0 4095) ∧
      newFaults up (after (.slcChanWrite .mgmt 4095 chanWord) up) =
        [(0x1351, 0x81, setupBase + Reg.SLC_CHAN0 4095, 4095 + 5 * 2 ^ 12)] ∧
      newFaults chanUp (after (.slcChanWrite .mgmt 4095 chanWord) chanUp) =
        [(0x1351, 0x81, setupBase + Reg.SLC_CHAN0 4095, 4095 + 4 * 2 ^ 12)] ∧
      (after (.slcChanWrite .mgmt 4095 (chanWord - 1)) chanUp).chanOn 4095 = false := by decide +kernel

/-- The channel holds one item, with its end mark. -/
def chanOne : State := after (.push (.wm 0) 4095 true false (List.replicate 64 7) ⟨0, 0, 0, 0⟩ []) chanUp

theorem witness_ResetChannelEmptiesAnEnabledChannel :
    chanOne.live = true ∧ chanOne.hears .mgmt = true ∧ chanOne.chanOn 4095 = true ∧ sluice.chanOn 4095 = false ∧
      (chanOne.chan 4095).count = 1 ∧ ((after (.resetChannel .mgmt 4095 1) chanOne).chan 4095).count = 0 ∧
      ((after (.resetChannel .mgmt 4095 1) chanOne).chan 4095).resetCons = true ∧
      (after (.resetChannel .mgmt 4095 1) sluice).chans = [] := by decide +kernel

/-- The channel is full. -/
def chanFull : State :=
  (List.range 16).foldl (fun s _ => after (.push (.wm 0) 4095 false false (List.replicate 64 7) ⟨0, 0, 0, 0⟩ []) s) chanUp

theorem witness_PushStoresRefusesOrDiscards :
    chanUp.slcPortQueue (.wm 0) = [] ∧
    chanUp.channelReady 4095 = true ∧ chanUp.sealedLayer (chanUp.chanRegion 4095) = none ∧
      tblFind (chanUp.markKey 4095 (chanUp.chan 4095).tail) chanUp.marks = none ∧ (chanUp.chan 4095).waiting = none ∧
      (chanUp.chan 4095).fenced = [] ∧ (chanOne.chan 4095).tail = 1 ∧ chanOne.endMark 4095 0 = true ∧
      chanFull.channelReady 4095 = true ∧ (chanFull.chan 4095).count = 16 ∧
      ((after (.push (.wm 0) 4095 false false (zeros 64) ⟨0, 0, 0, 0⟩ []) chanFull).chan 4095).fullRefs = 1 ∧
      ((after (.push (.wm 0) 4095 false true (zeros 64) ⟨0, 0, 0, 0⟩ []) chanUp).chan 4095).fenced =
        [⟨.wm 0, .push, 4095, false, true, zeros 64⟩] ∧
      ((after (.fenceMarkersAcked (.wm 0) 4095) (after (.push (.wm 0) 4095 false true (zeros 64) ⟨0, 0, 0, 0⟩ []) chanUp)).chan 4095).count = 1 :=
  by decide +kernel

theorem witness_PopPeekAndCountAnswer :
    chanUp.channelReady 4095 = true ∧ (chanUp.chan 4095).waiting = none ∧ (chanUp.chan 4095).fenced.any (fun e => e.who == .wm 0) = false ∧
      (chanUp.chan 4095).count = 0 ∧ chanOne.channelReady 4095 = true ∧ (chanOne.chan 4095).count = 1 ∧ chanOne.marks = [] ∧
      ((after (.pop (.wm 0) 4095 ⟨0, 0, 0, 0⟩ []) chanOne).chan 4095).head = 1 ∧
      ((after (.pop (.wm 0) 4095 ⟨0, 0, 0, 0⟩ []) chanOne).chan 4095).waiting.map (fun a => a.data) = some (List.replicate 64 7) ∧
      ((after (.peek (.wm 0) 4095 ⟨0, 0, 0, 0⟩ []) chanUp).chan 4095).emptyReads = 1 := by decide +kernel

/-- A packet of two items waits, and an item of the next. -/
def chanPacket : State :=
  [false, true, false].foldl (fun s e => after (.push (.wm 0) 4095 e false (List.replicate 64 7) ⟨0, 0, 0, 0⟩ []) s) chanUp

theorem witness_DropPacketRemovesOnePacket :
    chanPacket.channelReady 4095 = true ∧ (chanPacket.chan 4095).waiting = none ∧
      (chanPacket.chan 4095).fenced.any (fun e => e.who == .wm 0) = false ∧ (chanPacket.chan 4095).count = 3 ∧ chanPacket.marks = [] ∧
      ((after (.dropPacket (.wm 0) 4095 ⟨0, 0, 0, 0⟩ []) chanPacket).chan 4095).count = 1 := by decide +kernel

/-- A POP waits for its storage read. -/
def popping : State := after (.pop (.wm 0) 4095 ⟨0, 0, 0, 0⟩ []) chanOne

theorem witness_StorageDoneAnswersAndResumes :
    popping.live = true ∧ (popping.chan 4095).waiting.isSome = true ∧ (popping.chan 4095).head < 2 ^ 17 ∧ (popping.chan 4095).tail < 2 ^ 17 ∧
      (popping.chan 4095).held = [] ∧
      ((after (.count (.wm 1) 4095 ⟨0, 0, 0, 0⟩ []) popping).chan 4095).held = [⟨.wm 1, .count, 4095, false, false, []⟩] ∧
      ((after (.sluiceStorageDone 4095) popping).chan 4095).waiting = none := by decide +kernel

/-- Core 3 of cluster 31 runs; its Sluice port writes POP, and then COUNT, of channel 4095, which holds one item. -/
def slcPort : Nat := setupBase + 0x4000200 + 31 * 0x10000 + 3 * 0x100
def portIdle : State := chanOne.setReg (Reg.CL_CORE_RUN 31) 8
def portPop : State := after (.setupWrite (.core 31 3) (BitVec.ofNat 64 slcPort) (BitVec.ofNat 64 (2 + 4095 * 2 ^ 8))) portIdle
def portCount : State := after (.setupWrite (.core 31 3) (BitVec.ofNat 64 slcPort) (BitVec.ofNat 64 (5 + 4095 * 2 ^ 8))) portPop
def loadTag : Instr := .loadIssue (.core 31 3) false (BitVec.ofNat 64 (slcPort + 8)) 8 (.reg 31 4)

theorem witness_SluicePortCarriesCommands :
    portIdle.live = true ∧ portIdle.clusterPresent 31 = true ∧ portIdle.coreSteps 127 = true ∧
      (portPop.core 127).slcBusy = true ∧ (portPop.core 127).slcTag = none ∧ (portPop.chan 4095).held = [] ∧
      portPop.mayIssue (.core 31 3) = true ∧ ((after loadTag portPop).core 127).loads = [(slcPort + 8 - setupBase, (8, .reg 31 4))] ∧
      (portPop.chan 4095).waiting.map (fun a => a.data) = some (List.replicate 64 7) ∧ (portCount.core 127).slcWait.length = 1 := by
  decide +kernel

/-- The TAG load made before the answer waits, and gets the tag with it (R255). -/
theorem test_tag_load_waits :
    (after loadTag portPop).coreSteps 127 = false ∧ ((after (.sluiceStorageDone 4095) (after loadTag portPop)).core 127).loads = [] ∧
      ((after (.sluiceStorageDone 4095) (after loadTag portPop)).core 127).readX 31 = 1 + 2 + 4095 * 2 ^ 8 := by decide +kernel

theorem test_sluice_port_answers :
    ((after (.sluiceStorageDone 4095) portPop).core 127).slcTag = some (1 + 2 + 4095 * 2 ^ 8) ∧
      ((after (.sluiceStorageDone 4095) portPop).core 127).slcData = List.replicate 64 7 ∧
      ((after (.sluiceStorageDone 4095) portCount).core 127).slcTag = some (4095 * 2 ^ 8) ∧
      ((after (.sluiceStorageDone 4095) portCount).core 127).slcWait = [] ∧
      ((after loadTag (after (.sluiceStorageDone 4095) portPop)).core 127).readX 31 = 1 + 2 + 4095 * 2 ^ 8 := by decide +kernel

/-- The second copy of HEAD has lost a bit. -/
def badPointer : State := chanOne.setChan 4095 { chanOne.chan 4095 with headInv := (chanOne.chan 4095).headInv ^^^ 1 }

theorem witness_DisabledOrFailedChannelAppliesNothing :
    (sluice.chan 4095).waiting = none ∧ sluice.chanOn 4095 = false ∧ (sluice.chan 4095).head < 2 ^ 17 ∧
      (sluice.chan 4095).headInv < 2 ^ 17 ∧ (sluice.chan 4095).tailInv < 2 ^ 17 ∧
      after (.count (.wm 0) 4095 ⟨0, 0, 0, 0⟩ []) sluice ≠ sluice ∧
      (badPointer.chan 4095).waiting = none ∧ badPointer.chanOn 4095 = true ∧ badPointer.storageMapped 7 0 16 = true ∧
      (badPointer.chan 4095).fails (badPointer.chanDepth 4095) = some 0 ∧
      (newFaults badPointer (after (.count (.wm 0) 4095 ⟨0, 0, 0, 0⟩ []) badPointer)).map (fun e => (e.1, e.2.1)) = [(0x1351, 0x50)] := by
  decide +kernel

-- Fabric time and turns ----------------------------------------------------------------------------------------------

theorem witness_TickAdvancesTime :
    up.live = true ∧ up.pwr.clockAt = none ∧ (after (.ftTick 5) up).now = 1000000004 ∧ (after (.ftTick 5) up).clock.ticks = 5 := by
  decide +kernel

/-- Two faults of one cycle, detected against the order of their units. -/
def twoFaults : State := (up.fault 0x3000 Code.portState none 0).fault 0x1050 Code.sealLate none 0

theorem witness_RecordsOfACycleAreWrittenInOrder :
    twoFaults.live = true ∧ 1250 ≤ twoFaults.clock.frac + 2 * stepMhz twoFaults.clockStep ∧
      twoFaults.ringRoom twoFaults.eventRing 4 = false ∧ twoFaults.flt.buffer.length + twoFaults.flt.fresh.length ≤ 64 ∧
      ((after (.ftTick 2) twoFaults).flt.buffer.map fun r => (r.seq.toNat, r.unit.toNat)) = [(0, 0x1050), (1, 0x3000)] := by decide +kernel

/-- PTP with the timebase ACQUIRING after three samples that agree; PPS with an announced edge. -/
def acquiring : State := { up with tb := { up.tb with mode := .acquiring, acqOffsets := [5, 5, 5] } }
def pps (e : Nat) : State :=
  { up.setFld Reg.FT_CTRL Fld.FT_CTRL_SRC 1 with tb := { up.tb with announced := some e } }

theorem witness_SamplesMoveTheTimebase :
    acquiring.live = true ∧ acquiring.ftSrc = 0 ∧ acquiring.reg Reg.FT_EPOCH_TAI ≤ 1000000005 ∧
      (after (.ptpSample 1000000005) acquiring).tb.mode = .locked ∧ (after (.ptpSample 1000000005) acquiring).now = 1000000005 ∧
      (up.setReg Reg.FT_EPOCH_TAI 7).reg Reg.FT_EPOCH_TAI = 7 ∧
      (after (.ptpSample 6) (up.setReg Reg.FT_EPOCH_TAI 7)).tb = up.tb ∧
      (pps 1000000000).ftSrc = 1 ∧ absDiff (pps 1000000000).now 1000000000 ≤ (pps 1000000000).fld Reg.FT_PPS_CFG Fld.FT_PPS_CFG_PPS_WINDOW ∧
      (after .ppsEdge (pps 1000000000)).tb.lastEdge = some 1000000000 ∧
      ¬ absDiff (pps 2000000000).now 2000000000 ≤ (pps 2000000000).fld Reg.FT_PPS_CFG Fld.FT_PPS_CFG_PPS_WINDOW ∧
      (after .ppsEdge (pps 2000000000)).fld Reg.FT_COUNT Fld.FT_COUNT_PPS_REJECTED = 1 ∧
      (up.setFld Reg.FT_CTRL Fld.FT_CTRL_SRC 1).tb.lastEdge = none := by decide +kernel

/-- PTP with PPS_CHECK, half a second away from the edge's phase; and a PPS edge 7 ns after time 0. -/
def ppsChecked : State :=
  (up.setFlag Reg.FT_CTRL Fld.FT_CTRL_PPS_CHECK true).setFld Reg.FT_PPS_CFG Fld.FT_PPS_CFG_PPS_PHASE 500000000
def ppsBefore : State := { up.setFld Reg.FT_CTRL Fld.FT_CTRL_SRC 1 with tb := { up.tb with lastEdge := some 7 } }

theorem witness_SamplesMoveTheTimebase_edges :
    ppsChecked.ftSrc = 0 ∧ ppsChecked.timeValid = true ∧ ppsChecked.fld Reg.FT_PPS_CFG Fld.FT_PPS_CFG_PPS_WINDOW < 500000000 ∧
      (after .ppsEdge ppsChecked).fld Reg.FT_COUNT Fld.FT_COUNT_PPS_REJECTED = 1 ∧ after .ppsEdge up = up ∧
      after (.ptpSample 5) ppsBefore = ppsBefore ∧ ppsBefore.timeValid = true ∧ ppsBefore.edgeTime = some 1000000007 ∧
      (after .ppsEdge (up.setFld Reg.FT_CTRL Fld.FT_CTRL_SRC 2)) = up.setFld Reg.FT_CTRL Fld.FT_CTRL_SRC 2 := by decide +kernel

/-- No sample for 1.5 s; and HOLDOVER for so long that the bound exceeds the limit. -/
def silence : State := { up with clock := { up.clock with elapsedNs := 1500000000 } }
def drifted : State := { up with clock := { up.clock with elapsedNs := 10 ^ 18 }, tb := { up.tb with mode := .holdover } }

theorem witness_SilenceMeansHoldoverThenLost :
    silence.tb.mode = .locked ∧ silence.ftSrc < 2 ∧ silence.tb.lastSample + 1500000000 ≤ silence.clock.elapsedNs ∧
      (after .sampleTimeout silence).tb.mode = .holdover ∧ drifted.tb.mode = .holdover ∧
      drifted.fld Reg.FT_CTRL Fld.FT_CTRL_HOLD_LIMIT * 1000000000 < drifted.fld Reg.FT_CTRL Fld.FT_CTRL_LOCK_NS * 1000000000 +
        drifted.fld Reg.FT_CTRL Fld.FT_CTRL_HOLD_DRIFT * (drifted.clock.elapsedNs - drifted.tb.holdStart) ∧
      (after .holdoverLimit drifted).tb.mode = .lost ∧ after .holdoverLimit up = up ∧ after .sampleTimeout up = up := by decide +kernel

theorem witness_SourceChangeNeverStepsTime :
    up.live = true ∧ up.hears .mgmt = true ∧ up.tb.mode = .locked ∧ (after (.ftSrcWrite .mgmt 1) up).ftSrc = 1 ∧
      (after (.ftSrcWrite .mgmt 1) up).tb.mode = .holdover ∧ (after (.ftSrcWrite .mgmt 2) drifted).tb.mode = .locked ∧
      (after (.ftSrcWrite .mgmt 1) State.reset).tb.mode = .unset ∧ (after (.ftSrcWrite .mgmt 1) up).now = up.now := by decide +kernel

/-- A partition tag is held. -/
def tagged : State := up.setFld Reg.FWD_IDENT Fld.FWD_IDENT_PTAG 9

theorem witness_TurnWritesKeepTheTurn :
    up.live = true ∧ up.hears .travo = true ∧ up.hears (.wm 0) = true ∧ up.timeValid = true ∧
      turnAt (signedOf 64 (-4 : Word).toNat) up.turnLen up.now = up.turnNow ∧
      (after (.ftTurnOriginWrite (.wm 0) (-4)) up).reg Reg.FT_TURN_ORIGIN = 2 ^ 64 - 4 ∧
      ¬ turnAt (signedOf 64 (20000000 : Word).toNat) up.turnLen up.now = up.turnNow ∧
      (after (.ftTurnOriginWrite (.wm 0) 20000000) up).reg Reg.FT_TURN_ORIGIN = 0 ∧
      tagged.fld Reg.FWD_IDENT Fld.FWD_IDENT_PTAG = 9 ∧ (after (.ftEpochTaiWrite (.wm 0) 4) tagged).reg Reg.FT_EPOCH_TAI = 0 ∧
      (after (.ftEpochTaiWrite (.wm 0) 4) up).reg Reg.FT_EPOCH_TAI = 4 ∧
      newFaults up (after (.ftTurnLenWrite .travo 4) up) = [(0x4014, 0x80, setupBase + Reg.FT_TURN_LEN, 0)] ∧
      (after (.ftTurnLenWrite .mgmt (BitVec.ofNat 64 (7 * 2 ^ 20 + 999))) up).fld Reg.FT_TURN_LEN Fld.FT_TURN_LEN_NEXT_LEN = 1000 := by
  decide +kernel

/-- Turn boundary 50 comes at 1 s; a change to turns of 1 ms is armed from it on, and was written long before. -/
def turning : State :=
  let s := (up.setFld Reg.FT_TURN_LEN Fld.FT_TURN_LEN_NEXT_LEN 1000).setReg Reg.FT_TURN_CHANGE 50
  { s with tb := { s.tb with lastTurn := some 49 } }

theorem witness_TurnBoundaryChangesTheLengthWhenArmed :
    turning.live = true ∧ turning.nextBoundary = 50 ∧ turning.boundary 50 ≤ (turning.now : Int) ∧
      turning.armedFor turning.tb.lenArmed (turning.reg Reg.FT_TURN_CHANGE) 50 = true ∧
      (after (.turnBoundary [] false) turning).turnLen = 1000 ∧
      (after (.turnBoundary [] false) turning).reg Reg.FT_TURN_ORIGIN = 950000000 ∧ State.reset.timeValid = false ∧
      after (.turnBoundary [] false) State.reset = State.reset := by decide +kernel

theorem witness_WindowCloseDrainsTheBuckets :
    up.tb.lastWindow < up.window ∧ up.flag Reg.FWD_DRIFT Fld.FWD_DRIFT_ENABLE = false ∧
      (after .counterWindowClose up).tb.lastWindow = 1 ∧ State.reset.window = State.reset.tb.lastWindow ∧
      after .counterWindowClose State.reset = State.reset ∧ ({ up with tb := { up.tb with lastWindow := 2 ^ 30 } } : State).window < 2 ^ 30 ∧
      (after .counterWindowClose { up with tb := { up.tb with lastWindow := 2 ^ 30 } }).tb.lastWindow = up.window := by decide +kernel

-- The Headgate -------------------------------------------------------------------------------------------------------

/-- Word 0 of a layer of one expert with k = 1 and capacities from the table (R137). -/
def layerWord0 : Nat := 1 + 2 ^ 10 + 2 ^ 21

/-- A layer whose hidden rows are one block long. -/
def layered : State := up.setReg (layerAddr 5 1) (2 ^ 32)

theorem witness_LayerDescriptorIsCheckedOnWrite :
    layered.live = true ∧ layered.hears .mgmt = true ∧ (BitVec.ofNat 64 layerWord0).getLsbD 0 = true ∧
      (after (.layerDescriptorWrite .mgmt 5 0 (BitVec.ofNat 64 layerWord0)) layered).flag (layerAddr 5 0) Fld.HG_LAYER0_VALID = true ∧
      (after (.layerDescriptorWrite .mgmt 5 7 3) (after (.layerDescriptorWrite .mgmt 5 0 (BitVec.ofNat 64 layerWord0)) layered)).flag
        (layerAddr 5 0) Fld.HG_LAYER0_VALID = false ∧
      newFaults up (after (.layerDescriptorWrite .mgmt 4095 0 (BitVec.ofNat 64 (layerWord0 - 2 ^ 10))) up) = [(0x2020, 0x82, 0, 4095 + 2 ^ 12)] := by
  decide +kernel

/-- Zones 1023 and 3 with peers 9 and 4; 3 is a relay zone. Each takes 16 tokens in and out. -/
def zoned : State :=
  (up.setReg (Reg.HG_ZONE0 1023) (9 + 16 * 2 ^ 16 + 16 * 2 ^ 32 + 2 ^ 48)).setReg (Reg.HG_ZONE0 3) (4 + 16 * 2 ^ 16 + 16 * 2 ^ 32 + 2 ^ 48 + 2 ^ 50)

theorem witness_ZoneWriteKeepsNodesDistinct :
    zoned.live = true ∧ zoned.hears .travo = true ∧ (zoned.zones.map fun z => (z.z, z.node)) = [(3, 4), (1023, 9)] ∧
      (after (.hgZoneWrite .travo 0 0 (BitVec.ofNat 64 (7 + 2 ^ 48))) zoned).reg (Reg.HG_ZONE0 0) = 7 + 2 ^ 48 ∧
      (after (.hgZoneWrite .travo 0 0 (BitVec.ofNat 64 (9 + 2 ^ 48))) zoned).regs = zoned.regs ∧
      newFaults zoned (after (.hgZoneWrite .travo 0 0 (BitVec.ofNat 64 (9 + 2 ^ 48))) zoned) =
        [(0x2020, 0x85, 0, 1023 * 2 ^ 10 + 9 * 2 ^ 20)] := by decide +kernel

/-- A step of three tokens in selection: one expert, whose replica stands in slot 2 of node 9, with a capacity of `cap`. -/
def selectStep (cap : Nat) (bad : Bool) (prio : Option PrioState) : HgStep :=
  { number := 6, parity := 0, layer := 0, desc := [layerWord0, 2 ^ 32, 0, 0, 0, 0, 0x3F800000, 0], tokens := List.replicate 3 ⟨0, 0, 0, bad⟩,
    hidOffset := 0, hidStride := 128, scores := List.replicate 3 [0x3F800000], preds := [], vec := [(0, cap * 2 ^ 32)], base := 0,
    place := [(0, 9 + 2 * 2 ^ 16 + 2 ^ 28)], board := [], engines := [0], sealCycle := 0, sealTime := 0, deadline := 2 ^ 64, decided := 0,
    used := [], spillUsed := [], refused := [], nextIn := [], qNext := [], prio := prio, records := [], dropped := 0, spilled := 0,
    nextTaken := 0, nanTokens := 0, tiesHash := 0, tiesExpert := 0, stage := .selecting, lists := [], unsent := [], relayN := [] }

def withStep (p : HgStep) (s : State) : State := { s with hg := { s.hg with steps := [p] } }

/-- The same step, when the replica is a gateway's and no gateway table names one. -/
def farStep : HgStep := { selectStep 8 false none with place := [(0, 5 * 2 ^ 8 + 0xFFF * 2 ^ 16 + 2 ^ 28)] }

/-- The one step of a state. -/
def theStep (s : State) : HgStep := s.hg.steps.headD farStep

/-- The step with its first token still to decide: 3 claims for 2 places, a hidden row that reads bad, and a gateway that is missing. -/
def deciding : State := withStep (selectStep 2 false none) up
def decidingBad : State := withStep (selectStep 2 true none) up
def decidingFar : State := withStep farStep up

theorem witness_RouteDecisionDecidesOneToken :
    up.live = true ∧ up.selecting = none ∧ after .routeDecision up = up ∧ deciding.selecting = some (selectStep 2 false none) ∧
      ((theStep (after .routeDecision deciding)).records.map fun r => (r.pos, r.expert, r.expertSlot, r.dest)) = [(0, 0, 2, 9)] ∧
      (theStep (after .routeDecision deciding)).decided = 1 ∧ decidingBad.selecting = some (selectStep 2 true none) ∧
      (theStep (after .routeDecision decidingBad)).records = [] ∧ (theStep (after .routeDecision decidingBad)).decided = 1 ∧
      decidingFar.selecting = some farStep ∧ (theStep (after .routeDecision decidingFar)).stage = .failed ∧
      ((theStep ([(), (), ()].foldl (fun s _ => after .routeDecision s) deciding)).records.map fun r => r.pos) = [0, 1] ∧
      (theStep ([(), (), ()].foldl (fun s _ => after .routeDecision s) deciding)).stage = .selected ∧
      (theStep ([(), (), ()].foldl (fun s _ => after .routeDecision s) deciding)).dropped = 1 := by decide +kernel

/-- Score-priority ranking of the three claims. -/
def ranking : State :=
  withStep (selectStep 2 false (some ⟨0, [⟨0, 0, 0, 0⟩, ⟨1, 0, 0, 0⟩, ⟨2, 0, 0, 0⟩], [], [], [], false⟩)) up

theorem witness_RankRoundFillsCapacityBestFirst :
    ranking.live = true ∧ (ranking.selecting.bind fun p => p.prio).isSome = true ∧
      ((theStep (after .rankRound ranking)).prio.map fun q => (q.accepted.map fun c => c.pos, q.done)) = some ([0, 1], true) ∧
      tblGetD 0 0 (theStep (after .rankRound ranking)).used = 2 ∧ after .rankRound up = up := by decide +kernel

/-- The same under NEXT, with one further round and a second expert, which every token ranks next. -/
def rankingNext : State :=
  withStep { selectStep 2 false (some ⟨0, [⟨0, 0, 0, 0⟩, ⟨1, 0, 0, 0⟩, ⟨2, 0, 0, 0⟩], [], [], [], false⟩) with
    desc := [layerWord0 + 2 ^ 8 + 2 ^ 17 + 2 ^ 40, 2 ^ 32, 0, 0, 0, 0, 0x3F800000, 0],
    scores := List.replicate 3 [0x3F800000, 0x3F000000], vec := [(0, 2 * 2 ^ 32), (1, 2 * 2 ^ 32)],
    place := [(0, 9 + 2 * 2 ^ 16 + 2 ^ 28), (8, 9 + 3 * 2 ^ 16 + 2 ^ 28)] } up

theorem witness_RankRoundFillsCapacityBestFirst_next :
    ((theStep (after .rankRound rankingNext)).prio.map fun q => (q.accepted.map fun c => c.pos, q.pending.map fun c => (c.pos, c.expert, c.kind))) =
      some ([0, 1], [(2, 1, 1)]) ∧
      ((theStep (after .rankRound rankingNext)).prio.map fun q => (q.done, q.round)) = some (false, 1) ∧
      ((theStep (after .rankRound (after .rankRound rankingNext))).prio.map fun q => (q.accepted.length, q.done)) = some (3, true) ∧
      after .rankRound (after .rankRound (after .rankRound rankingNext)) = after .rankRound (after .rankRound rankingNext) := by decide +kernel

/-- A step whose selection has ended with one record, for node 9; the landing regions take 2 MiB. -/
def selected (s : State) : State :=
  withStep { theStep (after .routeDecision (withStep { selectStep 2 false none with tokens := [⟨0, 0, 0, false⟩] } up)) with
    stage := .selected } (s.setReg (Reg.RSV_REGION 0) (1 + 2 ^ 2 + 511 * 2 ^ 32))

theorem witness_SortAndDispatchBuildsTheLists :
    (selected zoned).live = true ∧ (selected zoned).hgHeld = false ∧ (selected zoned).dispatchFails (theStep (selected zoned)) = [] ∧
      ((theStep (after .sortAndDispatch (selected zoned))).lists.map fun e => (e.1, e.2.map fun r => (r.pos, r.dest))) =
        [(3, []), (1023, [(0, 9)])] ∧
      (theStep (after .sortAndDispatch (selected zoned))).stage = .dispatched ∧
      (theStep (after .sortAndDispatch (selected zoned))).unsent = [3, 1023] ∧
      (selected up).dispatchFails (theStep (selected up)) = [(0, 3, 9)] ∧
      (theStep (after .sortAndDispatch (selected up))).stage = .failed ∧
      after .sortAndDispatch { selected zoned with sw := { (selected zoned).sw with stopped := true } } =
        { selected zoned with sw := { (selected zoned).sw with stopped := true } } := by decide +kernel

/-- The step's lists wait to leave for the relay zone, which has landed or not. -/
def relaying : State := after .sortAndDispatch (selected zoned)
def land (keys : List Nat) (tokens : Nat) (s : State) : State :=
  { s with hg := { s.hg with landings := keys.map fun k => (k, ⟨tokens, some [6, tokens, tokens, 0, 0], true, false⟩) } }

theorem witness_GatewayRelaySendsWhatWaits :
    relaying.live = true ∧ relaying.sw.stopped = false ∧
      relaying.hg.steps.find? (fun p => p.stage = .dispatched && !p.unsent.isEmpty) = some (theStep relaying) ∧
      (relaying.relayZones.map fun z => z.z) = [3] ∧ (relaying.landing (landKey 3 false 0)).complete = false ∧
      after .gatewayRelay relaying = relaying ∧ ((land [landKey 3 false 0] 0 relaying).landing (landKey 3 false 0)).step = 6 ∧
      (theStep (after .gatewayRelay (land [landKey 3 false 0] 0 relaying))).unsent = [] ∧
      (theStep (after .gatewayRelay (land [landKey 3 false 0] 0 relaying))).stage = .dispatched := by decide +kernel

/-- At the owner: slot 0 serves layer 0, the dispatch zones have landed, of one parity, with one token each, and work space is given. -/
def owning : State :=
  let s := (relaying.setReg (Reg.HG_SLOT0 0) (1 + 4095 * 2 ^ 14)).setReg Reg.HG_XCH_WORK (256 + 2 ^ 8 * 2 ^ 18 + 4095 * 2 ^ 36)
  land [landKey 3 false 0, landKey 1023 false 0] 1 { s with hg := { s.hg with steps := [] } }

/-- Its shape records have left; its done item waits in the done channel, or an item for another slot. -/
def owned : State :=
  let s := after .shapeRecords owning
  { s with hg := { s.hg with owners := s.hg.owners.map fun o => { o with slots := o.slots.map fun w => { w with pushed := true } } } }
def done (slot : Nat) : State :=
  after (.push (.wm 0) 4095 true false (leBytes 4 slot ++ leBytes 4 1 ++ leBytes 8 6 ++ zeros 48) ⟨0, 0, 0, 0⟩ [])
    (after (.slcChanWrite .mgmt 4095 chanWord) (owned.setReg (Reg.RSV_REGION 7) (3 + 600 * 2 ^ 16 + 19 * 2 ^ 32)))

/-- One row of slot 0, from each of the two zones, but for the relay zone's. -/
def theOwner (s : State) : OwnerStep := s.hg.owners.headD ⟨0, 2, 0, [], []⟩

theorem witness_ShapeRecordsTakesTheStepUp :
    owning.live = true ∧ owning.hgHeld = false ∧ owning.hg.owners = [] ∧ owning.zones ≠ [] ∧ owning.allComplete false 0 = true ∧
      owning.allComplete false 1 = false ∧
      ((owning.takeOwner 0).hg.owners.any fun o => o.slots.any fun w => !w.rows.isEmpty && !w.done) = true ∧
      ((theOwner (after .shapeRecords owning)).slots.map fun w => (w.slot, w.rows)) = [(0, [(1023, 0)])] ∧
      (theOwner (after .shapeRecords owning)).number = 6 := by decide +kernel

theorem witness_DoneItemEndsItsSlot :
    (done 0).live = true ∧ (done 0).sw.stopped = false ∧
      ((done 0).popNow (.engine (done 0).firstEngine 2) 4095).1 = some (leBytes 4 0 ++ leBytes 4 1 ++ leBytes 8 6 ++ zeros 48, true, false) ∧
      (done 0).fld Reg.HG_XCH_WORK Fld.HG_XCH_WORK_DONE_CHANNEL = 4095 ∧
      ((theOwner (done 0)).slots.map fun w => (w.slot, w.done)) = [(0, false)] ∧
      (after .doneItem (done 0)).hg.owners = [] ∧ (after .doneItem (done 5)).hg.owners = (done 5).hg.owners ∧
      newFaults (done 5) (after .doneItem (done 5)) = [(0x2002, 0x34, 0, 5 + 2 * 2 ^ 28)] ∧ (owned.popNow (.engine owned.firstEngine 2) 4095).1 = none := by
  decide +kernel

/-- The step is dispatched and all its return zones have landed; or its deadline has passed first. -/
def returned : State := land [landKey 3 true 0, landKey 1023 true 0] 0 relaying
def overdue : State := withStep { theStep relaying with deadline := 5 } relaying

theorem witness_CombineOrDeadlineEndsTheStep :
    returned.live = true ∧ returned.hgHeld = false ∧ returned.hg.steps.find? (fun p => p.stage = .dispatched) = some (theStep returned) ∧
      returned.allComplete true 0 = true ∧ (after .combine returned).hg.steps = [] ∧
      (after .combine returned).landing (landKey 3 true 0) = ⟨0, none, false, false⟩ ∧ relaying.allComplete true 0 = false ∧
      after .combine relaying = relaying ∧ overdue.timeValid = true ∧ (theStep overdue).deadline ≤ overdue.now ∧
      (after .exchangeDeadline overdue).hg.steps = [] ∧ (after .exchangeDeadline overdue).hg.missed = [0] ∧
      (newFaults overdue (after .exchangeDeadline overdue)).getLast? = some (0x2003, 0x10, 0, 4 + 2 * 2 ^ 16) := by decide +kernel

/-- A load of two entries is in progress, one waits; a flip's copy runs beside it, or not. -/
def loading (copying : Bool) : State :=
  { up with hg := { up.hg with load := some ⟨0, 3, 2, 1, 0⟩, waitLoads := [⟨64, 9, 1, 0, 0⟩], copying := copying } }

theorem witness_PlaceLoadStartsOrWaits :
    up.live = true ∧ up.hears (.wm 3) = true ∧ (BitVec.ofNat 64 (2 ^ 36 + 5)).getLsbD 36 = true ∧ up.placeBusy = false ∧ up.hg.waitLoads = [] ∧
      ((after (.placeLoad (.wm 3) (BitVec.ofNat 64 (2 ^ 36 + 5))) up).hg.load.map fun l => (l.first, l.count)) = some (5, 1) ∧
      (loading false).placeBusy = true ∧
      (after (.placeLoad (.wm 3) (BitVec.ofNat 64 (2 ^ 36 + 5))) (loading false)).hg.waitLoads = [⟨64, 9, 1, 0, 0⟩, ⟨0, 5, 1, 0, 0⟩] ∧
      (after (.placeLoad (.wm 3) (BitVec.ofNat 64 (2 ^ 36 - 1))) up).reg Reg.HG_PLACE_CTRL = 2 ^ 36 - 1 := by decide +kernel

theorem witness_PlaceLoadEndsAndTheNextStarts :
    (loading false).live = true ∧ (loading false).hg.copying = false ∧ (loading true).hg.copying = true ∧
      after .placeLoadDone (loading true) = loading true ∧ (after .placeCopyDone (loading true)).hg.copying = false ∧
      after .placeCopyDone (loading false) = loading false ∧ ((after .placeLoadDone (loading false)).hg.load.map fun l => l.first) = some 9 ∧
      (after .placeLoadDone (loading false)).hg.waitLoads = [] ∧ after .placeLoadDone up = up ∧
      (((after .placeCopyDone { up with hg := { up.hg with waitLoads := [⟨64, 9, 1, 0, 0⟩], copying := true } }).hg.load).map fun l => l.first) =
        some 9 := by decide +kernel

-- Clusters -----------------------------------------------------------------------------------------------------------

/-- A buffer of 16 KiB in scratchpad 0 of cluster 31, by its number, in a state. -/
def withBuf (b state : Nat) (s : State) : State := s.setReg (Reg.CL_BUF 31 b) (64 * b + 63 * 2 ^ 16 + 2 ^ 32 + state * 2 ^ 33)

/-- Buffers 0 and 1 are FULL, 2 is FREE and 3 is FILLING. -/
def buffers : State := withBuf 3 1 (withBuf 2 0 (withBuf 1 2 (withBuf 0 2 up)))

theorem witness_CoreRunStartsCores :
    up.live = true ∧ up.hearsIn 31 .mgmt = true ∧ up.clusterPresent 31 = true ∧ (coreUp.core 127).pc = scratchBase + 31 * 2 ^ 24 + 0xFC0000 ∧
      coreUp.coreRuns 127 = true ∧ coreUp.coreRuns 126 = false ∧ up.hearsIn 31 (.core 31 0) = true ∧
      newFaults up (after (.clCoreRunWrite (.core 31 0) 31 8) up) = [(0x4014, 0x80, setupBase + Reg.CL_CORE_RUN 31, 0)] := by decide +kernel

/-- A store of the core has failed; an operation of the core is open; a register of it holds a fabric address. -/
def failedStore : State := withCore (fun c => { c with storeFail := some 77 }) coreUp
def openOp : State := { coreUp with fab := { coreUp.fab with opens := [(0, ⟨.core 31 3, 1, false, 2 ^ 63, 5, 8, .none, false, 0, false⟩)] } }
def fabricReg : State := withCore (fun c => { c with x := [(31, 2 ^ 63 + 8)] }) coreUp

theorem witness_FenceWaitsAndLrScTraps :
    coreUp.live = true ∧ coreKey (.core 31 3) = some 127 ∧ coreUp.coreSteps 127 = true ∧ openOp.opsOpen (.core 31 3) = true ∧
      ((after (.fence (.core 31 3)) openOp).core 127).fencing = true ∧ coreUp.opsOpen (.core 31 3) = false ∧
      (coreUp.core 127).storeFail = none ∧ ((after (.fence (.core 31 3)) coreUp).core 127).pc = (coreUp.core 127).pc + 4 ∧
      (failedStore.core 127).storeFail = some 77 ∧ ((after (.fence (.core 31 3)) failedStore).core 127).mcause = 7 ∧
      ((after (.fence (.core 31 3)) failedStore).core 127).mtval = 77 ∧ up.coreSteps 127 = false ∧ after (.fence (.core 31 3)) up = up ∧
      (newFaults failedStore (after (.fence (.core 31 3)) failedStore)) = [(0x737, 0x33, 0, 0x30000)] ∧ fabricReg.isFabric ((fabricReg.core 127).readX 31) = true ∧
      ((after (.lrSc (.core 31 3) 31) fabricReg).core 127).mtval = 2 ^ 63 + 8 := by decide +kernel

/-- All commands that push words, of four words (eight for a tile command), one after the other. -/
def pushes (ws : List Nat) : List (Nat × Instr) :=
  [(0, .tileCmdPush 31 3 0 (ws ++ ws)), (1, .dmaPush 31 0 3 0 ws), (2, .dmaPush 31 1 3 0 ws), (3, .vecPush 31 3 0 ws), (4, .flumeCmdPush 31 3 0 ws)]
def queuesFull : State :=
  coreUp.setCluster 31 { up.cluster 31 with tiles := List.replicate 64 ⟨[], [], []⟩, vecs := List.replicate 32 [], flmQ := List.replicate 16 [] }

theorem witness_PushesEnterTheirQueues :
    coreUp.clusterPresent 31 = true ∧ (coreUp.cluster 31).latches = [] ∧ (coreUp.cluster 31).held = [] ∧ coreUp.coreSteps 127 = true ∧
      up.coreSteps 127 = false ∧ (pushes [1, 2, 3, 4]).all (fun e => after e.2 up == up) = true ∧
      (pushes [1, 2, 3, 2 ^ 64 - 1]).all (fun e => ((after e.2 coreUp).cluster 31).queue e.1 ==
        [if e.1 = 0 then [1, 2, 3, 2 ^ 64 - 1, 1, 2, 3, 2 ^ 64 - 1] else [1, 2, 3, 2 ^ 64 - 1]]) = true ∧
      (queuesFull.cluster 31).room 0 = false ∧ (queuesFull.cluster 31).room 3 = false ∧ (queuesFull.cluster 31).room 4 = false ∧
      ((after (.tileCmdPush 31 3 0 [1, 2, 3, 4, 5, 6, 7, 8]) queuesFull).cluster 31).held.getLast? = some (3, [1, 2, 3, 4, 5, 6, 7, 8]) ∧
      (after (.tileCmdPush 31 3 0 [1, 2, 3, 4, 5, 6, 7, 8]) queuesFull).coreSteps 127 = false ∧
      ((after (.tileCmdPush 31 3 0 [1, 2, 3, 4, 5, 6, 7]) coreUp).cluster 31).queue 0 = [] := by decide +kernel

theorem witness_BufferCommandsFollowTheStates :
    buffers.live = true ∧ buffers.clusterPresent 31 = true ∧ (buffers.buf 31 0).state = 2 ∧ (buffers.buf 31 2).state = 0 ∧
      (buffers.buf 31 3).state = 1 ∧ ((after (.fillBegin 31 2) buffers).buf 31 2).state = 1 ∧
      newFaults buffers (after (.fillBegin 31 0) buffers) = [(0x73A, 0x23, 0, 2 * 2 ^ 8)] ∧
      ((after (.fillEnd 31 3) buffers).buf 31 3).state = 2 ∧
      newFaults buffers (after (.fillEnd 31 254) buffers) = [(0x73A, 0x23, 0, 254 + 2 * 2 ^ 8)] ∧
      ((after (.free 31 0) buffers).buf 31 0).state = 0 ∧
      newFaults buffers (after (.free 31 2) buffers) = [(0x73A, 0x23, 0, 2 + 2 * 2 ^ 8)] := by decide +kernel

theorem witness_BufferWritesAreRefused :
    buffers.hearsIn 31 (.core 31 0) = true ∧
      newFaults buffers (after (.clBufWrite (.core 31 0) 31 0 (BitVec.ofNat 64 (2 ^ 32))) buffers) = [(0x73A, 0x23, 0, 0)] ∧
      newFaults buffers (after (.clBufWrite (.core 31 0) 31 2 (BitVec.ofNat 64 (2 ^ 33 - 1))) buffers) = [(0x73A, 0x23, 0, 2 + 2 ^ 8)] ∧
      newFaults buffers (after (.clBufWrite (.core 31 0) 31 2 (BitVec.ofNat 64 (255 + 2 ^ 32))) buffers) =
        [(0x73A, 0x23, 0, 2 + 3 * 2 ^ 8 + 3 * 2 ^ 12)] ∧
      ((after (.clBufWrite (.core 31 0) 31 2 (BitVec.ofNat 64 (256 + 2 ^ 32))) buffers).buf 31 2).base = 0x10000 ∧
      ((after (.clBufWrite (.core 31 0) 31 2 (BitVec.ofNat 64 (256 + 2 ^ 32))) buffers).buf 31 2).defined = true := by decide +kernel

/-- A tile command of one row and column, BF16, from buffers 0 and 1 to 2, with tag 6; one that runs beside it; a stopped one. -/
def tileWords : List Nat := [1 + 9 * 2 ^ 8 + 9 * 2 ^ 12 + 6 * 2 ^ 32, 0, 2 ^ 8 + 2 * 2 ^ 16 + (2 ^ 32 - 1) * 2 ^ 24, 64 + 64 * 2 ^ 24, 64]
def tiling : State := buffers.setCluster 31 { buffers.cluster 31 with tiles := [⟨tileWords, [], []⟩] }

theorem witness_MatmulIssuesByItsRule :
    tiling.live = true ∧ tiling.clusterPresent 31 = true ∧ (tiling.cluster 31).stop = false ∧ tiling.colBusy = false ∧
      tiling.tileIssues 31 (TileCmd.ofEntry ⟨tileWords, [], []⟩) = some 0 ∧
      ((after (.matmul 31 false) tiling).cluster 31).tiles = [] ∧
      (((after (.matmul 31 false) tiling).cluster 31).running.map fun r => (r.outs, r.tag, r.fault, decide (tiling.clock.cycles < r.stop))) =
        [([2, 255], 6, false, true)] ∧
      ((after (.matmul 31 false) tiling).buf 31 2).state = 3 ∧ (withBuf 0 0 tiling).tileIssues 31 (TileCmd.ofEntry ⟨tileWords, [], []⟩) = none ∧
      after (.matmul 31 false) (withBuf 0 0 tiling) = withBuf 0 0 tiling := by decide +kernel

/-- A buffer named in two roles is read once, and released when either role releases it (R217, R218). -/
theorem test_merged_inputs : mergeInputs [(1, false), (2, true), (1, true)] = [(1, true), (2, true)] := by decide

/-- Commands that have run their time: from buffer 0 into 2, which is HELD for them, or FILLING for the Flume. -/
def ran : RunCmd := ⟨[(0, true)], [2], 6, 0, false, 0, 0⟩
def runningIn (state : Nat) : State :=
  let s := (withBuf 0 2 (withBuf 2 state up)).setFld (Reg.CL_BUF 31 0) Fld.CL_BUF_READERS 1
  s.setCluster 31 { s.cluster 31 with running := [ran], vecRun := some ran, flmRun := some ran }
def running : State := runningIn 3

theorem witness_RetirementFillsTheOutputs :
    running.live = true ∧ running.clusterPresent 31 = true ∧ (running.cluster 31).running = [ran] ∧ ran.stop ≤ running.clock.cycles ∧
      [(3, Instr.tileRetire 31), (3, .vecRetire 31), (1, .flumeComplete 31)].all (fun e =>
        ((after e.2 (runningIn e.1)).buf 31 2).state == 2 && ((after e.2 (runningIn e.1)).buf 31 0).state == 0) = true ∧
      [(1, Instr.tileRetire 31), (0, .vecRetire 31), (3, .flumeComplete 31)].all (fun e =>
        newFaults (runningIn e.1) (after e.2 (runningIn e.1)) == [(0x73A, 0x23, 0, 2 + 2 * 2 ^ 8)]) = true ∧
      (after (.tileRetire 31) running).fld (Reg.CL_CMD_STATUS 31) Fld.CL_CMD_STATUS_LAST_TAG = 6 ∧
      (after (.vecRetire 31) running).fld (Reg.CL_VEC_STATUS 31) Fld.CL_VEC_STATUS_LAST_TAG = 6 ∧
      (after (.flumeComplete 31) running).fld (Reg.FLM_STATUS 31) Fld.FLM_STATUS_DONE = 1 ∧
      ((after (.vecRetire 31) running).cluster 31).vecRun = none := by decide +kernel

/-- The vector commands of one element, with the row that names each. -/
def vectors : List (Nat × Instr) :=
  [(1, .add 31), (2, .mul 31), (3, .axpy 31), (4, .scaleBias 31), (5, .exp 31), (6, .siluMul 31), (7, .rmsnorm 31), (8, .softmax 31),
    (9, .rope 31), (10, .convert 31), (11, .quantRow 31), (12, .rowSum 31), (13, .rowMax 31), (14, .sample 31)]
def vecWords (op : Nat) : List Nat :=
  [op + 6 * 2 ^ 16 + 2 ^ 40 + 2 * 2 ^ 48 + (if 11 ≤ op && op ≤ 13 then 4 else 1) * 2 ^ 56, 1 + 2 * 2 ^ 32, 1, 0]
def vectoring (op : Nat) : State :=
  let s := withBuf 4 0 buffers
  s.setCluster 31 { s.cluster 31 with vecs := [vecWords op] }

theorem witness_VectorCommandsIssueInOrder :
    (vectoring 1).live = true ∧ (vectoring 1).clusterPresent 31 = true ∧ ((vectoring 1).cluster 31).vecRun = none ∧
      (vectors.map fun e => (((after e.2 (vectoring e.1)).cluster 31).vecRun.map fun r => (r.tag, r.fault, decide (0 < r.stop)))) =
        List.replicate 14 (some (6, false, true)) ∧
      vectors.all (fun e => ((after e.2 (vectoring e.1)).buf 31 (if e.1 = 12 || e.1 = 13 then 4 else 2)).state == 3) = true ∧
      vectors.all (fun e => decide (after e.2 (withBuf 0 0 (vectoring e.1)) = withBuf 0 0 (vectoring e.1))) = true := by decide +kernel

/-- The Flume's commands, each with its row and parameters (R275): one row, or masks of one row in buffers 1 and 6. -/
def flumes : List (Nat × Instr × Nat × Nat × Nat × Nat) :=
  [(1, .gather 31, 255, 1 + 64 * 2 ^ 32, 1 + 64 * 2 ^ 32, scratchAddr 31 0), (2, .compact 31, 4, 1 + 4 * 2 ^ 32, 9 + 2 * 2 ^ 4 + 2 ^ 8, 0),
    (3, .mask 31, 255, 1 + 2 ^ 32, 0, 0), (4, .check 31, 255, 1 + 2 ^ 32, 0, 0),
    (5, .merge 31, 4, 1 + (5 + 6 * 2 ^ 8) * 2 ^ 32, 2, 0)]
def fluming (f : Nat × Instr × Nat × Nat × Nat × Nat) : State :=
  let s := withBuf 6 2 (withBuf 5 2 (withBuf 4 0 buffers))
  { s.setCluster 31 { s.cluster 31 with
      flmQ := [[f.1 + 6 * 2 ^ 16 + 2 ^ 40 + 2 * 2 ^ 48 + f.2.2.1 * 2 ^ 56, f.2.2.2.1, f.2.2.2.2.1, f.2.2.2.2.2]] } with
    mem := [(scratchAddr 31 0x4000, 1), (scratchAddr 31 0x18000, 1)] }

theorem witness_FlumeCommandsIssueInOrder :
    (fluming (flumes.headD (0, .gather 31, 0, 0, 0, 0))).live = true ∧ (fluming (flumes.headD (0, .gather 31, 0, 0, 0, 0))).colBusy = false ∧
      ((fluming (flumes.headD (0, .gather 31, 0, 0, 0, 0))).cluster 31).flmRun = none ∧
      (flumes.map fun f => (((after f.2.1 (fluming f)).cluster 31).flmRun.map fun r => (r.tag, r.fault, decide (0 < r.stop)))) =
        List.replicate 5 (some (6, false, true)) ∧
      flumes.all (fun f => decide (after f.2.1 (withBuf 0 0 (fluming f)) = withBuf 0 0 (fluming f))) = true := by decide +kernel

/-- A descriptor of `len` bytes from buffer 0 to buffer 2, with a CRC, in the queue of engine 1; and one that runs. -/
def dmaWords (len : Nat) : List Nat := [scratchAddr 31 0, scratchAddr 31 0x8000, len + 2 * 2 ^ 40 + 5 * 2 ^ 48, 6]
def dmaQueued (len : Nat) : State := buffers.setCluster 31 { buffers.cluster 31 with dmaQ := [(1, [dmaWords len])] }
def dmaRunning : State := after (.dmaStart 31 1) (dmaQueued 16)

theorem witness_DmaStartsAndCompletes :
    (dmaQueued 16).live = true ∧ (dmaQueued 16).clusterPresent 31 = true ∧ tblFind 1 ((dmaQueued 16).cluster 31).dmaRun = none ∧
      (dmaQueued 16).dmaFault 31 (DmaCmd.ofWords (dmaWords 16)) = none ∧ (dmaQueued 4).dmaFault 31 (DmaCmd.ofWords (dmaWords 4)) = some (2, 255) ∧
      newFaults (dmaQueued 4) (after (.dmaStart 31 1) (dmaQueued 4)) = [(0x739, 0x22, 0, 6 + 2 * 2 ^ 16 + 3 * 2 ^ 20 + 255 * 2 ^ 22)] ∧
      (after (.dmaStart 31 1) (dmaQueued 4)).fld (Reg.CL_DMA_STATUS 31) Fld.CL_DMA_STATUS_DONE1 = 1 ∧
      ((tblFind 1 (dmaRunning.cluster 31).dmaRun).map fun r => r.words) = some (dmaWords 16) ∧ (dmaRunning.buf 31 2).state = 1 ∧
      dmaRunning.opsOpen (.dma 31 1) = false ∧ ((after (.dmaComplete 31 1) dmaRunning).buf 31 2).state = 2 ∧
      (after (.dmaComplete 31 1) dmaRunning).fld (Reg.CL_DMA_CRC 31) Fld.CL_DMA_CRC_CRC1 = crc32c (zeros 16) ∧
      after (.dmaStart 31 1) (withBuf 0 0 (dmaQueued 16)) = withBuf 0 0 (dmaQueued 16) := by decide +kernel

-- Ports --------------------------------------------------------------------------------------------------------------

/-- The even port of a pair and its odd one, which follows it (R293). -/
def paired : State := portsUp.setReg (Reg.FP_CFG 14) (2 * 2 + 2 ^ 5)

/-- The port's FP_CFG is written. -/
def enabled (v : Nat) (s : State) : State := after (.portEnableWrite .mgmt 15 (BitVec.ofNat 64 v)) s

theorem witness_EnableStartsOrEndsAPort :
    (portAt 1 6).live = true ∧ (portAt 1 6).hears .mgmt = true ∧ (portAt 1 6).leadPort 15 = 15 ∧ portsUp.portDieUp 3 = true ∧
      (enabled (2 ^ 5) (portAt 1 6)).portStage 15 = 0 ∧ (enabled (1 + 2 ^ 5) portsUp).portStage 15 = 1 ∧
      (enabled (1 + 2 ^ 5) up).portStage 15 = 0 ∧ up.portDieUp 3 = false ∧ (enabled (1 + 2 ^ 5) (portAt 1 6)).portStage 15 = 6 ∧
      (enabled 1 (portAt 1 6)).portStage 15 = 0 ∧ portsUp.portStage 15 = 0 ∧
      (after (.portEnableWrite .mgmt 14 (BitVec.ofNat 64 (5 + 2 ^ 5))) paired).portStage 14 = 1 ∧
      (enabled (1 + 2 ^ 5) paired).leadPort 15 = 14 ∧ (enabled (1 + 2 ^ 5) paired).portStage 15 = 0 := by decide +kernel

/-- The lane maps of a port whose lanes come in straight, and in reverse order. -/
def straight : Nat := 0 + 1 * 4 + 2 * 16 + 3 * 64
def reversed : Nat := 3 + 2 * 4 + 1 * 16 + 0 * 64
/-- Port 15 in LANE_ID with its physical lane 0 found open, and with DEGRADE or a pause if asked for. -/
def laneOpenAt (degrade : Bool) (pauseTo : Nat) : State :=
  ((portAt 1 3).setFlag (Reg.FP_CFG 15) Fld.FP_CFG_DEGRADE degrade).onPort 15 fun x => { x with openL := 1, pauseTo := pauseTo }
def tested (found : List LaneTest) : State := after (.cmTestDone 15 found) (portAt 1 1)

theorem witness_BringUpAdvancesInOrder :
    (portAt 1 1).inPhase 15 1 = true ∧ ((portAt 1 1).port 15).since + 50000 ≤ (portAt 1 1).clock.elapsedNs ∧
      (portAt 1 1).goodLanes 15 = [0, 1, 2, 3] ∧ (tested [.pass, .open_, .pass, .shorted]).goodLanes 15 = [0, 2] ∧
      (tested [.pass, .open_, .pass, .shorted]).portStage 15 = 2 ∧ (tested (List.replicate 4 .open_)).portStage 15 = 8 ∧
      (portAt 1 2).inPhase 15 2 = true ∧ (after (.trainDone 15 [3]) (portAt 1 2)).goodLanes 15 = [0, 1, 2] ∧
      (after (.trainDone 15 [3]) (portAt 1 2)).portStage 15 = 3 ∧ (portAt 1 4).inPhase 15 4 = true ∧
      (after (.alignDone 15) (portAt 1 4)).portStage 15 = 5 ∧ (portAt 1 5).inPhase 15 4 = false ∧
      after (.alignDone 15) (portAt 1 5) = portAt 1 5 := by decide +kernel

theorem witness_BringUpAgreesTheLanes :
    (portAt 1 3).inPhase 15 3 = true ∧ ((portAt 1 3).port 15).since + 20000 ≤ (portAt 1 3).clock.elapsedNs ∧
      (after (.laneIdDone 15 straight 0 15 false) (portAt 1 3)).portStage 15 = 4 ∧
      (after (.laneIdDone 15 straight 0 3 false) (portAt 1 3)).portStage 15 = 0 ∧
      (after (.laneIdDone 15 straight 0 0 false) (portAt 1 3)).portStage 15 = 8 ∧
      (laneOpenAt true 0).agreedLanes 15 15 (laneOrder 4 reversed false) = [0, 1, 2] ∧
      (after (.laneIdDone 15 reversed 0 15 false) (laneOpenAt true 0)).portStage 15 = 4 ∧
      (after (.laneIdDone 15 reversed 0 15 false) (laneOpenAt true 0)).portLanes 15 = 2 ∧
      (after (.laneIdDone 15 reversed 0 15 false) (laneOpenAt true 0)).laneMask 15 Fld.FP_STATUS_OPEN = 8 ∧
      (after (.laneIdDone 15 reversed 0 15 false) (laneOpenAt false 0)).portStage 15 = 0 ∧
      laneOrder 8 (straight * 257) true = [4, 5, 6, 7, 0, 1, 2, 3] ∧ (laneOpenAt true 2000000).inPhase 15 3 = false ∧
      after (.laneIdDone 15 straight 0 15 false) (laneOpenAt true 2000000) = laneOpenAt true 2000000 := by decide +kernel

theorem witness_McuReloadPausesTraining :
    up.live = true ∧ ((after (.linkMcuReload 3 7) (portAt 1 2)).port 15).since = 7 ∧
      ((after (.linkMcuReload 3 7) (portAt 1 2)).port 15).pauseTo = 1000007 ∧
      ((after (.linkMcuReload 2 7) (portAt 1 2)).port 15).since = 0 := by decide +kernel

/-- The port expects port 2 of node 3; the frame comes from there, to here. -/
def expecting (stage : Nat) : State := (portAt 1 stage).setReg (Reg.FP_EXPECT 15) (3 + 2 * 2 ^ 16 + 2 ^ 20)
def identity (ptag : Nat) : LldpFrame := ⟨0, 1, leBytes 2 3 ++ [2] ++ leBytes 2 0 ++ [31] ++ leBytes 2 ptag, 120⟩

/-- Its partner's identity has run out. -/
def expired : State := (expecting 6).onPort 15 fun x => { x with expire := some 1000000 }

/-- A partner with which the port was in FORWARDING, `gone` nanoseconds ago, and what it held for it. -/
def returning (gone : Nat) : State :=
  (expecting 5).onPort 15 fun x => { x with partner := some (3, 2), retrainAt := some (1000000 - gone), replay := [⟨3, Cell.ofBytes (zeros 288), false⟩] }
def met (ptag stage : Nat) : State := after (.lldpReceive 15 (identity ptag)) (expecting stage)

theorem witness_IdentityDecidesForwarding :
    (expecting 5).reg Reg.FWD_OUI = 0 ∧ (expecting 5).portStage 15 = 5 ∧ (expecting 5).identityState 15 (identity 0).info = 1 ∧
      (met 0 5).portStage 15 = 6 ∧ ((met 0 5).port 15).expire = some (1000000 + 120 * 1000000000) ∧
      ((after (.lldpReceive 15 (identity 0)) (returning 1000000)).port 15).again = [(3, 0)] ∧
      ((met 0 5).port 15).again = [] ∧ (met 7 6).portStage 15 = 5 ∧
      (met 7 6).fld (Reg.FP_STATUS 15) Fld.FP_STATUS_ID_STATE = 4 ∧
      after (.lldpReceive 15 { identity 0 with subtype := 2 }) (expecting 5) = expecting 5 := by decide +kernel

theorem witness_IdentityExpiresAndIsSent :
    (expired.port 15).expire = some 1000000 ∧ (after (.identityExpire 15) expired).portStage 15 = 5 ∧
      (after (.identityExpire 15) expired).fld (Reg.FP_STATUS 15) Fld.FP_STATUS_ID_STATE = 5 ∧
      after (.identityExpire 15) (expecting 6) = expecting 6 ∧
      (after (.lldpSend 15) (expecting 5)).out = [.lldp 15 ((expecting 5).lldpFrame 15)] ∧
      ((after (.lldpSend 15) (expecting 6)).port 15).ctl = [⟨.lldp, 0⟩, ⟨.pdelayReq, 0⟩] ∧
      after (.lldpSend 15) (portAt 1 4) = portAt 1 4 ∧
      after (.lldpSend 15) ((expecting 5).onPort 15 fun x => { x with pauseTo := 1000001 }) =
        (expecting 5).onPort 15 fun x => { x with pauseTo := 1000001 } := by decide +kernel

def retraining : State :=
  { (portAt 1 7).onPort 15 fun x => { x with phase := 2, retrainAt := some 0, replay := [⟨3, Cell.ofBytes (zeros 288), false⟩] } with
    clock := { up.clock with elapsedNs := 10 ^ 9 } }

theorem witness_CdrLossRetrains :
    (portAt 1 6).portStage 15 = 6 ∧ (after (.cdrLoss 15 3) (portAt 1 6)).portStage 15 = 7 ∧
      ((after (.cdrLoss 15 3) (portAt 1 6)).port 15).retrainAt = some 1000000 ∧
      (after (.cdrLoss 15 3) (portAt 1 6)).goodLanes 15 = [0, 1, 2] ∧ retraining.fld Reg.FWD_CTRL Fld.FWD_CTRL_T_RETRAIN * 1000 ≤ 10 ^ 9 ∧
      (after (.retrainTimeout 15) retraining).portStage 15 = 0 ∧ ((after (.retrainTimeout 15) retraining).port 15).replay = [] ∧
      (after (.retrainTimeout 15) retraining).fld (Reg.FWD_CNT_DROP 3) Fld.FWD_CNT_DROP_DROP_HELD = 1 ∧
      after (.cdrLoss 15 4) (portAt 1 6) = portAt 1 6 ∧ after (.retrainTimeout 15) (portAt 1 6) = portAt 1 6 ∧
      after (.cdrLoss 15 3) (portAt 1 5) = portAt 1 5 := by decide +kernel

/-- A frame for the port's address (R309), with its sequence number and a cell for a node, of a tag. -/
def cellFor (dest ptag : Nat) : List Byte := leBytes 2 dest ++ leBytes 2 5 ++ leBytes 2 ptag ++ zeros 282
def frameH (header dest ptag : Nat) (fcs : Fcs) : CellFrame :=
  ⟨(portAt 1 6).portMac 15, (portAt 1 6).fld Reg.FWD_CTRL Fld.FWD_CTRL_ETYPE, BitVec.ofNat 64 header, cellFor dest ptag, fcs⟩
def frame (seq ptag : Nat) (fcs : Fcs) : CellFrame := frameH seq 9 ptag fcs
/-- Port 15 after such a frame with two corrected symbols; it holds frames 5 and 6 for replay. -/
def holdsFrames (role stage : Nat) : State :=
  (portAt role stage).onPort 15 fun x =>
    { x with replay := [⟨5, Cell.ofBytes (zeros 288), false⟩, ⟨6, Cell.ofBytes (zeros 288), false⟩] }
def receivedAt (role stage : Nat) (f : CellFrame) : State := after (.cellFrameReceive 15 f 2 [1]) (holdsFrames role stage)
def received (f : CellFrame) : State := receivedAt 1 6 f
def frameCount (s : State) (g : BitField) : Nat := s.fld (Reg.FP_CNT_FRAME 15) g

theorem witness_FramesHandTheirCellOnce :
    (holdsFrames 1 6).portRole 15 = 1 ∧ (holdsFrames 1 6).ptagOk (Cell.ofBytes (cellFor 9 0)) = true ∧
      (received (frame 0 0 .good)).fab.arrived = [⟨15, Cell.ofBytes (cellFor 9 0), false⟩] ∧
      ((received (frame 0 0 .good)).port 15).rxAck = 0 ∧ (received (frame 0 7 .good)).fab.arrived = [] ∧
      (received (frame 0 7 .good)).fld (Reg.FWD_CNT_DROP 3) Fld.FWD_CNT_DROP_DROP_PTAG = 1 ∧
      ((holdsFrames 1 6).port 15).seen 65535 = true ∧ (received (frame 65535 0 .good)).fab.arrived = [] ∧
      (received (frame 65535 0 .good)).fld (Reg.FP_CNT_REPLAY 15) Fld.FP_CNT_REPLAY_DUP = 1 ∧
      (received (frame 4096 0 .good)).fab.arrived = [] ∧ ((received (frame 4096 0 .good)).port 15).nakDue = true ∧
      (((received (frameH (2 ^ 32 + 5 * 2 ^ 16) 9 0 .good)).port 15).replay.map fun f => f.seq) = [6] ∧
      (received (frameH (2 ^ 34) 9 0 .good)).fab.arrived = [] := by decide +kernel

theorem witness_BadFramesAreCounted :
    (received (frame 0 0 .bad)).fab.arrived = [⟨15, Cell.ofBytes (cellFor 9 0), true⟩] ∧
      ((received (frame 0 0 .bad)).port 15).nakDue = true ∧ frameCount (received (frame 0 0 .bad)) Fld.FP_CNT_FRAME_FCS_BAD = 1 ∧
      (received (frame 0 0 .stomped)).fab.arrived = [] ∧ ((received (frame 0 0 .stomped)).port 15).rxAck = 0 ∧
      frameCount (received { frame 0 0 .good with dmac := 0 }) Fld.FP_CNT_FRAME_DMAC_BAD = 1 ∧
      (received (frame 0 0 .good)).reg (Reg.FP_CNT_FEC 15) = 2 ∧
      frameCount (receivedAt 3 6 (frame 0 0 .bad)) Fld.FP_CNT_FRAME_FCS_BAD = 1 ∧
      (receivedAt 1 5 (frame 0 0 .good)).reg (Reg.FP_CNT_FEC 15) = 2 ∧ (receivedAt 1 5 (frame 0 0 .good)).fab.arrived = [] ∧
      (received { frame 0 0 .good with etype := 0 }).fab.arrived = [] ∧
      receivedAt 1 4 (frame 0 0 .good) = holdsFrames 1 4 := by decide +kernel

/-- A transit cell from port 12 for a node, after some hops; position 9 of the rack is reached over port 15, position 8 over port 0. -/
def transit (dest hops : Nat) : Arrival := ⟨12, { Cell.ofBytes (cellFor dest 0) with hops := hops }, false⟩
def hopped (dest hops : Nat) : Cell := { Cell.ofBytes (cellFor dest 0) with hops := hops }
def switching : State := ((portAt 1 6).setReg (Reg.FWD_POS_IF 9) (2 ^ 15 + 2 ^ 32)).setReg (Reg.FWD_POS_IF 8) (1 + 2 ^ 32)
def slot (arrived : List Arrival) (inject : List (Nat × List Cell)) (s : State) : State :=
  { s with fab := { s.fab with arrived := arrived, inject := inject } }
def slotOf (a : Arrival) (s : State) : State := slot [a] [] s
def moved (a : Arrival) : State := after .forwardingSlot (slotOf a switching)
def dropped (s : State) : Nat := s.fld (Reg.FWD_CNT_DROP 3) Fld.FWD_CNT_DROP_DROP_ROUTE
/-- The frame of a cell on port 15. -/
def framed (c : Cell) : Output := .frame 15 (switching.frameMac 15) 0xFFFF0000 (some c)

theorem witness_SlotMovesATransitCell :
    (slotOf (transit 9 0) switching).fab.arrived = [transit 9 0] ∧ (slotOf (transit 9 0) switching).fab.side = [] ∧
      switching.fld Reg.FWD_CTRL Fld.FWD_CTRL_HOP_MAX ≤ 255 ∧ dropped (moved (transit 9 255)) = 1 ∧ switching.route 7 = .invalid 1 ∧
      dropped (moved (transit 7 0)) = 1 ∧ switching.node = 0 ∧ switching.ejectRoom 3 0 = true ∧
      (moved (transit 0 0)).fab.eject = [(12, [hopped 0 0])] ∧ (moved (transit 9 0)).out = [framed (hopped 9 1)] ∧
      switching.pickOutput ⟨[], []⟩ 3 (2 ^ 15) 0 true = some 15 ∧ switching.pickOutput ⟨[], []⟩ 3 1 0 true = some 15 ∧
      (moved (transit 8 0)).fld (Reg.FWD_CNT_DEFL 3) Fld.FWD_CNT_DEFL_DEFLECTIONS = 1 ∧
      ((moved (transit 9 0)).port 15).replay = [⟨0, hopped 9 1, false⟩] := by decide +kernel

/-- Port 15 is not in FORWARDING; port die 3 is fenced; port 15 is a switched one, behind which rack 3 lies; port 12's die has no room for
another cell of this device. -/
def unready : State := switching.setReg (Reg.FP_STATUS 15) 5
def fenced : State := switching.setFld Reg.TOP_DIE_STATUS Fld.TOP_DIE_STATUS_PORT_UP 7
def gateway : State :=
  (((portAt 3 6).setReg (Reg.FWD_PREFIX1 3) (7 + 2 ^ 16)).setFld (Reg.FWD_RACK_IF 3) Fld.FWD_RACK_MODE 3).setFld (Reg.FWD_RACK_IF 3)
    Fld.FWD_RACK_PREF_MASK (2 ^ 15)
def crowded : State :=
  { switching with fab := { switching.fab with eject := [(12, List.replicate 512 (hopped 0 0))] } }

theorem witness_SlotHoldsACellWithoutAnOutput :
    (slotOf (transit 9 0) unready).route 9 = .masks (2 ^ 15) 0 ∧
      (slotOf (transit 9 0) unready).pickOutput ⟨[], []⟩ 3 (2 ^ 15) 0 true = none ∧
      (after .forwardingSlot (slotOf (transit 9 0) unready)).fab.side = [(3, [hopped 9 0])] ∧ fenced.portDieUp 3 = false ∧
      (after .forwardingSlot (slotOf (transit 9 0) fenced)).fab.arrived = [transit 9 0] ∧
      gateway.route 768 = .egress (2 ^ 15) ∧ gateway.egressPort (2 ^ 15) = some 15 ∧
      tblGetD 15 [] (after .forwardingSlot (slotOf (transit 768 0) gateway)).fab.egress = [(hopped 768 0, 1000000)] ∧
      crowded.ejectRoom 3 0 = false ∧
      (after .forwardingSlot (slotOf (transit 0 0) crowded)).fld (Reg.FWD_CNT_EJ 3) Fld.FWD_CNT_EJ_EJ_REFUSE = 1 := by decide +kernel

/-- A cell that waits for injection. -/
def injecting (dest : Nat) (s : State) : State := slot [] [(12, [hopped dest 0])] s
def injected (dest : Nat) (s : State) : State := after .forwardingSlot (injecting dest s)
def injWait (s : State) : Nat := s.fld (Reg.FWD_CNT_EJ 3) Fld.FWD_CNT_EJ_INJ_WAIT

theorem witness_SlotInjectsAndFillsIdleOutputs :
    (injecting 9 switching).fab.arrived = [] ∧ (injecting 9 switching).fab.ingress = [] ∧
      (injecting 9 switching).pickOutput ⟨[], []⟩ 3 (2 ^ 15) 0 false = some 15 ∧ (injected 9 switching).out = [framed (hopped 9 1)] ∧
      tblGetD 12 [] (injected 9 switching).fab.inject = [] ∧ (injecting 8 switching).pickOutput ⟨[], []⟩ 3 1 0 false = none ∧
      (injected 8 switching).fab.inject = (injecting 8 switching).fab.inject ∧ injWait (injected 8 switching) = 1 ∧
      (injected 0 switching).fab.eject = [(12, [hopped 0 0])] ∧ injWait (injected 0 crowded) = 1 ∧ dropped (injected 7 switching) = 1 ∧
      tblGetD 15 [] (injected 768 gateway).fab.egress = [(hopped 768 0, 1000000)] ∧
      (injected 9 fenced).fab.inject = (injecting 9 fenced).fab.inject := by decide +kernel

/-- Control frames that wait at port 15, a frame to be replayed, and an acknowledgement that is due. -/
def waitsToSend (b : CtlBody) (waited : Nat) : State := switching.onPort 15 fun x => { x with ctl := [⟨b, waited⟩] }
def replaying (waited : Nat) : State :=
  (waitsToSend .lldp 4).onPort 15 fun x => { x with again := [(3, waited)], replay := [⟨3, hopped 9 0, false⟩], txSeq := 4 }
def acking : State := switching.onPort 15 fun x => { x with ackDue := true, rxAny := true, rxAck := 5 }
def slotOut (s : State) : List Output := (after .forwardingSlot s).out
/-- The frames sent: port, sequence number, acknowledged number and cell of each. -/
def framesOf (l : List Output) : List (Nat × Nat × Nat × Option Cell) :=
  l.filterMap fun o => match o with | .frame q _ h c => some (q, bitsOf h 0 16, bitsOf h 16 16, c) | _ => none

theorem witness_SlotSendsControlAndReplays :
    0 < (waitsToSend .lldp 4).slotFrames 15 ∧ (waitsToSend .lldp 4).fab.inject = [] ∧ slotOut (waitsToSend .lldp 4) = [.lldp 15 (switching.lldpFrame 15)] ∧
      slotOut (waitsToSend .pdelayReq 4) = [.ptp 15 false 0 (.pdelayReq 0)] ∧
      slotOut (waitsToSend (.relay 7 2 (10 ^ 9 * 65536 - 3)) 4) = [.ptp 15 false 0 (.sync 7 5 false)] ∧
      slotOut (waitsToSend (.pdelayResp 8 6) 4) = [.ptpAnswer 15 false 0 8 6 (10 ^ 9 * 65536)] ∧
      (switching.fld Reg.FWD_CTRL Fld.FWD_CTRL_PTP_DOMAIN, switching.node, switching.stamp16) = (0, 0, 10 ^ 9 * 65536) ∧
      slotOut (replaying 255) = [.lldp 15 (switching.lldpFrame 15)] ∧
      framesOf (slotOut (replaying 256)) = [(15, 3, 65535, some (hopped 9 0))] ∧
      ((after .forwardingSlot (replaying 256)).port 15).again = [] ∧ framesOf (slotOut acking) = [(15, 0, 5, none)] ∧
      slotOut switching = [] := by decide +kernel

/-- A switched port with a connection from gateway 9 and one to gateway 7, of rack 3; and a DATA packet of the first, with its outer headers. -/
def switched : State :=
  { gateway with fab := { gateway.fab with
    rx := [(9, ⟨2, 4, [], 0, 0, 15⟩)]
    tx := [(7, ⟨15, 6, 10, []⟩), (9, ⟨15, 2, 10, [⟨4, [], 0, 0, none⟩, ⟨6, [], 0, 0, none⟩]⟩)] } }
def packet (psn : Nat) : SwPacket := ⟨9, 0, 0, psn, 5, 0, 2, [hopped 0 0]⟩
def outerOf (q : SwPacket) (type : Nat) : SwOuter :=
  let body := packetHeader q type ++ (q.cells.map Cell.bytes).flatten
  let dport := switched.fld Reg.FWD_SW Fld.FWD_SW_UDP_PORT
  ⟨1, switched.ownAddress, 17, 0xC000, dport, 8 + body.length,
   udpChecksum (beBytes 16 1) (beBytes 16 switched.ownAddress)
     (beBytes 2 0xC000 ++ beBytes 2 dport ++ beBytes 2 (8 + body.length) ++ beBytes 2 0 ++ body)⟩
def dataIn (q : SwPacket) : State := after (.swPacketReceive 15 ⟨outerOf q 0, q⟩) switched
def ackIn (q : SwPacket) : State := after (.swAckReceive 15 ⟨outerOf q 1, q⟩) switched
def rxOf (s : State) : Option (Nat × Nat) := (tblFind 9 s.fab.rx).map fun c => (c.cum, c.unacked)
def discards (s : State) : Nat := s.fld (Reg.FWD_CNT_SW 3) Fld.FWD_CNT_SW_SW_DISCARD

theorem witness_DataPacketsAreTakenOnce :
    switched.portRole 15 = 3 ∧ switched.portStage 15 = 6 ∧ switched.swAccepts (outerOf (packet 4) 0) (packet 4) 0 = true ∧
      switched.packetPtagOk (packet 4) = true ∧ (dataIn (packet 4)).fab.ingress = [(15, hopped 0 0)] ∧
      rxOf (dataIn (packet 4)) = some (5, 1) ∧ (dataIn (packet 3)).fld Reg.JT_CNT_SW Fld.JT_CNT_SW_SW_DUP = 1 ∧
      rxOf (dataIn (packet 3)) = some (4, 1) ∧ (dataIn (packet 1028)).fab.ingress = [] ∧ discards (dataIn (packet 1028)) = 1 ∧
      discards (dataIn { packet 4 with epoch := 3 }) = 1 ∧ rxOf (dataIn { packet 0 with epoch := 3 }) = some (1, 1) := by decide +kernel

theorem witness_OtherPacketsAreDiscarded :
    switched.swAccepts { outerOf (packet 4) 1 with sum := 0 } (packet 4) 1 = false ∧
      discards (after (.swAckReceive 15 ⟨{ outerOf (packet 4) 1 with sum := 0 }, packet 4⟩) switched) = 1 ∧
      discards (after (.swPacketReceive 15 ⟨{ outerOf (packet 4) 0 with next := 6 }, packet 4⟩) switched) = 1 ∧
      switched.packetPtagOk { packet 4 with ptag := 7 } = false ∧
      (dataIn { packet 4 with ptag := 7 }).fld (Reg.FWD_CNT_DROP 3) Fld.FWD_CNT_DROP_DROP_PTAG = 1 ∧
      (ackIn { packet 4 with ptag := 7 }).fld (Reg.FWD_CNT_DROP 3) Fld.FWD_CNT_DROP_DROP_PTAG = 1 ∧
      after (.swAckReceive 15 ⟨(outerOf (packet 4) 1), packet 4⟩) (portAt 1 6) = portAt 1 6 := by decide +kernel

/-- A cell for rack 3, or for rack 4, which has no prefix, has waited in the egress queue; an acknowledgement is owed; a packet has waited for
RTO, or for it RETRIES times. -/
def egress (rack since : Nat) : State :=
  { switched with fab := { switched.fab with egress := [(15, [(hopped (rack * 256) 0, since)])] } }
def owed (n since : Nat) : State := { switched with fab := { switched.fab with rx := [(9, ⟨2, 4, [], n, since, 15⟩)] } }
def unanswered (tries sent : Nat) : State :=
  { switched with fab := { switched.fab with tx := [(7, ⟨15, 6, 10, [⟨9, [hopped 768 0], sent, tries, none⟩]⟩)] } }
def sends (s : State) : State := after (.swPacketSend 15) s
def psns (gw : Nat) (s : State) : Option (Nat × List Nat) := (tblFind gw s.fab.tx).map fun c => (c.psn, c.held.map fun h => h.psn)

theorem witness_PacketsAreSentAcknowledgedAndResent :
    (egress 3 0).storeCells 15 < 8192 ∧ (egress 3 0).gatewayOf (hopped 768 0) = 7 ∧ (sends (egress 3 0)).out.length = 1 ∧
      psns 7 (sends (egress 3 0)) = some (11, [10]) ∧ sends (egress 3 999501) = egress 3 999501 ∧
      dropped (sends (egress 4 0)) = 1 ∧ tblGetD 15 [] (sends (egress 4 0)).fab.egress = [] ∧
      (after (.swAckSend 9) (owed 8 1000000)).out.length = 1 ∧ (after (.swAckSend 9) (owed 1 999000)).out.length = 1 ∧
      rxOf (after (.swAckSend 9) (owed 8 1000000)) = some (4, 0) ∧ after (.swAckSend 9) (owed 7 999500) = owed 7 999500 ∧
      after (.swAckSend 8) (owed 8 0) = owed 8 0 := by decide +kernel

/-- The connection to gateway 9 holds packet 5, which an acknowledgement with a later bit of SACK shows missing. -/
def missing (sackAt : Option Nat) : State :=
  { switched with fab := { switched.fab with tx := [(9, ⟨15, 2, 10, [⟨5, [hopped 768 0], 0, 0, sackAt⟩]⟩)] } }
def sacked (sackAt : Option Nat) : State :=
  after (.swAckReceive 15 ⟨outerOf { packet 0 with sack := 2 } 1, { packet 0 with sack := 2 }⟩) (missing sackAt)

theorem witness_PacketsAreResent :
    psns 9 (ackIn (packet 0)) = some (10, [6]) ∧ ackIn { packet 0 with epoch := 3 } = switched ∧
      (sacked none).out.length = 1 ∧ (sacked (some 999999)).out = [] ∧ psns 9 (sacked (some 999999)) = some (10, [5]) ∧
      (unanswered 0 0).rtoNs ≤ 1000000 ∧ (after (.rtoExpire 7 9) (unanswered 0 0)).out.length = 1 ∧
      after (.rtoExpire 7 9) (unanswered 0 1000000) = unanswered 0 1000000 ∧ after (.rtoExpire 7 8) (unanswered 0 0) = unanswered 0 0 ∧
      (unanswered 0 0).fld Reg.JT_SW Fld.JT_SW_RETRIES ≤ 255 ∧
      newFaults (unanswered 255 0) (after (.rtoExpire 7 9) (unanswered 255 0)) = [(0x3313, 0x39, 0, 7 + 15 * 2 ^ 16)] ∧
      psns 7 (after (.rtoExpire 7 9) (unanswered 255 0)) = some (0, []) := by decide +kernel

theorem witness_PauseIsCountedAndSolicitationAnswered :
    (after (.pauseReceive 15) up).fld (Reg.FP_CNT_FRAME 15) Fld.FP_CNT_FRAME_PAUSE_RX = 1 ∧
      (after (.neighborSolicitation 15 switched.ownAddress) switched).out = [.advert 15] ∧
      (after (.neighborSolicitation 15 (switched.ownAddress + 1)) switched).out = [] := by decide +kernel

/-- A torus port that is the time input, with a peer delay of 5 ns, and port 14 an output of time. -/
def timed : State :=
  let s := (((portAt 1 6).setFld (Reg.FP_CFG 15) Fld.FP_CFG_TIME_ROLE 1).setReg (Reg.FP_CFG 14) (1 + 2 ^ 5 + 2 * 2 ^ 11)).setReg (Reg.FP_STATUS 14) (6 + 4 * 2 ^ 29)
  s.setFld (Reg.FP_PTP 15) Fld.FP_PTP_PDELAY 80
/-- The same with a Pdelay_Req that left 100 ns ago and a two-step Sync that came 7 ns ago. -/
def askedPeer : State :=
  timed.onPort 15 fun x => { x with ptp := { x.ptp with pdelayAt := some ((10 ^ 9 - 100) * 65536), await := some ((10 ^ 9 - 7) * 65536) } }
def nowTai : Nat := 1000000000 + timed.reg Reg.FT_EPOCH_TAI
def ptp (b : PtpMessage) (s : State) : State := after (.ptpEventMessage 15 ⟨0, false, b⟩) s
def waitsAt (p : Nat) (s : State) : List CtlFrame := (s.port p).ctl

theorem witness_PtpMessagesSampleAndRelay :
    timed.portStage 15 = 6 ∧ timed.portRole 15 = 1 ∧ timed.timeInput = some 15 ∧ timed.timeOutputs = [14] ∧
      waitsAt 15 (ptp (.pdelayReq 8) timed) = [⟨.pdelayResp 8 (10 ^ 9 * 65536), 0⟩] ∧
      (ptp (.pdelayReq 8) (portAt 1 5)).out = [.ptpAnswer 15 false 0 8 (10 ^ 9 * 65536) (10 ^ 9 * 65536)] ∧
      (ptp (.pdelayResp (90 * 65536)) askedPeer).fld (Reg.FP_PTP 15) Fld.FP_PTP_PDELAY = 80 ∧ ptp (.pdelayResp 0) timed = timed ∧
      (ptp (.sync nowTai (3 * 65536) false) timed).tb.offset = 8 ∧
      waitsAt 14 (ptp (.sync nowTai (3 * 65536) false) timed) = [⟨.relay nowTai (8 * 65536) (10 ^ 9 * 65536), 0⟩] ∧
      ((ptp (.sync nowTai 0 true) timed).port 15).ptp.await = some (10 ^ 9 * 65536) ∧
      (ptp (.followUp nowTai 0) askedPeer).tb.offset = 12 ∧ ptp (.followUp nowTai 0) timed = timed ∧ ptp .announce timed = timed := by decide +kernel

/-- A switched time input, which has kept a Sync 40 ns from the master and asked for the delay, with port 14 a torus output of time; a
switched output of time. -/
def timedSwitched : State :=
  let s := (((portAt 3 6).setFld (Reg.FP_CFG 15) Fld.FP_CFG_TIME_ROLE 1).setReg (Reg.FP_CFG 14) (1 + 2 ^ 5 + 2 * 2 ^ 11)).setReg (Reg.FP_STATUS 14) (6 + 4 * 2 ^ 29)
  s.onPort 15 fun x => { x with ptp := { x.ptp with syncAt := some ((nowTai - 140) * 65536, (10 ^ 9 - 100) * 65536), delayAt := some ((10 ^ 9 - 90) * 65536) } }
def master : State := (portAt 3 6).setFld (Reg.FP_CFG 15) Fld.FP_CFG_TIME_ROLE 2
def ptpUdp (b : PtpMessage) (s : State) : State := after (.ptpEventMessage 15 ⟨0, true, b⟩) s

theorem witness_SwitchedPortsKeepTime :
    timedSwitched.timeInput = some 15 ∧ timedSwitched.ftSrc = 0 ∧ timedSwitched.portRole 15 = 3 ∧ timedSwitched.timeValid = true ∧
      waitsAt 15 (ptpUdp (.sync nowTai 0 false) timedSwitched) = [⟨.delayReq, 0⟩] ∧
      ((ptpUdp (.sync nowTai 0 false) timedSwitched).port 15).ptp.syncAt = some ((nowTai : Int) * 65536, 10 ^ 9 * 65536) ∧
      (ptpUdp (.delayResp (nowTai - 50) 0) timedSwitched).tb.offset = 0 ∧
      waitsAt 14 (ptpUdp (.delayResp (nowTai - 50) 0) timedSwitched) = [⟨.sync, 0⟩] ∧
      ptp (.sync nowTai 0 false) timedSwitched = timedSwitched ∧ ptpUdp (.delayReq 8) timedSwitched = timedSwitched ∧
      waitsAt 15 (ptpUdp (.delayReq 8) master) = [⟨.delayResp 8 (10 ^ 9 * 65536), 0⟩] ∧
      (after (.ptpEventMessage 15 ⟨1, false, .sync nowTai 0 false⟩) timed) = timed ∧
      (ptp (.sync 0 (-1) false) timed).fld Reg.FT_COUNT Fld.FT_COUNT_SAMPLES_REJECTED = 1 := by decide +kernel

-- Loads, stores and atomics ------------------------------------------------------------------------------------------

/-- The core whose operations follow, and an address of node 9 (R42). -/
def me : Requester := .core 31 3
def farAddr : Word := BitVec.ofNat 64 (2 ^ 63 + 9 * 2 ^ 40 + 64)

/-- The core's exceptions go to its code area (R213). -/
def withHandler : State := withCore (fun c => { c with mtvec := (coreUp.core 127).pc }) coreUp

/-- Window 255 of the job's table takes all operations to nodes up to 9; node 9 lies behind port 15. -/
def windowed : State :=
  (((coreUp.setReg (Reg.JT_WIN1 255) (2 ^ 40 - 1)).setReg (Reg.JT_WIN2 255) (9 * 2 ^ 16 + 7 * 2 ^ 32 + 2 ^ 36))).setReg (Reg.FWD_POS_IF 9) (2 ^ 15 + 2 ^ 32)

/-- Each kind of operation, to an address. -/
def ops (a : Word) : List Instr :=
  [.loadIssue me false a 8 (.reg 31 4), .storeIssue me false a 255 (zeros 8) false 4, .atomicIssue me false a 0 true false 5 0 (.reg 31 4)]

theorem witness_RefusedOperationsFailAtTheSource :
    coreKey me = some 127 ∧ withHandler.mayIssue me = true ∧ withHandler.isFabric farAddr.toNat = true ∧ withHandler.settled = true ∧
      withHandler.target (2 ^ 63 + 2 ^ 60) 8 = none ∧
      ((ops (BitVec.ofNat 64 (2 ^ 63 + 2 ^ 60))).map fun i => newFaults withHandler (after i withHandler)) =
        [0, 1, 2].map (fun k => [(0x737, 0x33, 2 ^ 63 + 2 ^ 60, k * 0x10000)]) ∧
      withHandler.windowOk (loadOp me farAddr.toNat 8 (.reg 31 4)) ⟨9, 64, 64, false⟩ = false ∧ withHandler.target farAddr.toNat 8 = some ⟨9, 64, 64, false⟩ ∧
      ((ops farAddr).map fun i => newFaults withHandler (after i withHandler)) =
        [0, 1, 2].map (fun k => [(0x737, 0x31, farAddr.toNat, 9 + k * 0x10000)]) ∧
      ((ops farAddr).map fun i => ((after i withHandler).core 127).storeFail) = [none, some farAddr.toNat, none] ∧
      ((ops farAddr).map fun i => ((after i withHandler).core 127).mcause) = [5, 0, 7] ∧
      newFaults coreUp (after (.loadIssue me false farAddr 8 (.reg 31 4)) coreUp) =
        [(0x737, 0x31, farAddr.toNat, 9), (0x737, 0x33, 0, 0x30000)] := by decide +kernel

theorem witness_AcceptedOperationsBecomeCells :
    windowed.coreSteps 127 = true ∧ windowed.settled = true ∧ windowed.fab.stopJob = none ∧ windowed.node = 0 ∧
      windowed.windowOk (loadOp me farAddr.toNat 8 (.reg 31 4)) ⟨9, 64, 64, false⟩ = true ∧ windowed.freeEntry (windowed.sourceDie 9) = some 0 ∧
      ((ops farAddr).map fun i => ((after i windowed).fab.inject.map fun e => (e.1, e.2.map fun c => (c.dest, c.tag, c.offset)))) =
        [[(13, [(9, 0xC000, 64)])], [(15, [(9, 0xC000, 64)])], [(13, [(9, 0xC000, 64)])]] ∧
      ((ops farAddr).map fun i => ((after i windowed).core 127).pc - (windowed.core 127).pc) = [0, 4, 0] := by decide +kernel

/-- Every entry of port die 3 is taken; a switch has reached the drain point of the running job. -/
def noEntry : State :=
  { windowed with fab := { windowed.fab with opens := List.replicate 16384 (0xC000, ⟨me, Op.load, false, 0, 9, 8, .none, false, 0, true⟩) } }
def stopping : State := { windowed with fab := { windowed.fab with stopJob := some 0 } }

theorem witness_OperationsWaitOrAreLost :
    noEntry.mayIssue me = true ∧ noEntry.freeEntry 3 = none ∧
      (after (.loadIssue me false farAddr 8 (.reg 31 4)) noEntry).fab.waiting.map (fun w => w.die) = [3] ∧
      stopping.freeEntry 3 = some 0 ∧
      ((ops farAddr).map fun i => (after i stopping).fld Reg.JT_CNT_LOST Fld.JT_CNT_LOST_LOST) = [1, 1, 1] ∧
      ((ops farAddr).map fun i => (after i stopping).fab.inject) = [[], [], []] ∧
      ((ops farAddr).map fun i => ((after i stopping).core 127).mcause) = [5, 0, 7] := by decide +kernel

/-- HBM with the bytes 1 to 8 in its last word. -/
def hbmWord : Word := BitVec.ofNat 64 (hbmSize - 8)
def hbm : State := { coreUp with mem := (List.range 8).map fun i => (hbmSize - 8 + i, BitVec.ofNat 8 (i + 1)) }

theorem witness_LocalOperationsAreDoneAtOnce :
    hbm.coreSteps 127 = true ∧ hbm.settled = true ∧ hbmWord.toNat < hbmSize ∧ hbm.marks = [] ∧
      ((after (.loadIssue me false hbmWord 8 (.reg 31 4)) hbm).core 127).readX 31 = 0x0807060504030201 ∧
      memBytes (after (.storeIssue me false hbmWord 255 (List.replicate 8 9) false 4) hbm).mem hbmWord.toNat 8 = List.replicate 8 9 ∧
      memNat (after (.atomicIssue me false hbmWord 0 true false 5 0 (.reg 31 4)) hbm).mem hbmWord.toNat 8 = 0x0807060504030206 ∧
      ((after (.atomicIssue me false hbmWord 0 false false 5 0 (.reg 31 4)) hbm).core 127).readX 31 = 0x04030201 ∧
      memNat (after (.amo me .add true 30 31 29)
        (withCore (fun c => { c with x := [(29, 5), (31, hbmWord.toNat)] }) hbm)).mem hbmWord.toNat 8 = 0x0807060504030206 := by decide +kernel

/-- The atomic port of the core names the last word; an atomic of it is outstanding. -/
def atomicPort : State := (hbm.setReg (Reg.CL_ATOM_ADDR 31 3) hbmWord.toNat).setReg (Reg.CL_ATOM_OPND 31 3) 7
def atomicBusy : State :=
  { atomicPort with fab := { atomicPort.fab with opens := [(0xC000, ⟨me, Op.atomic, false, 2 ^ 63, 9, 8, .atomPort, true, 0, true⟩)] } }

/-- A push with FENCE of the core has not taken effect; the port's address is another. -/
def afterFence : State := { atomicPort with chans := [(5, { Channel.empty with fenced := [⟨me, .push, 5, true, true, zeros 64⟩] })] }
def atomTo (a : Word) (s : State) : State := s.setReg (Reg.CL_ATOM_ADDR 31 3) a.toNat
def ctrl (v : Nat) (s : State) : State := after (.clAtomCtrlWrite 31 3 (BitVec.ofNat 64 v)) s

theorem witness_AtomicPortAnswersItsCases :
    (atomTo (hbmWord + 4) atomicPort).mayIssue me = true ∧ aopOk 15 8 = false ∧
      afterFence.mayIssue me = false ∧ ctrl 16 afterFence = afterFence ∧
      (ctrl 31 atomicPort).reg (Reg.CL_ATOM_RESULT 31 3) = 2 ^ 64 - 1 ∧ (ctrl 31 atomicPort).reg (Reg.CL_ATOM_STATUS 31 3) = 0x33 ∧
      (ctrl 16 (atomTo (hbmWord + 4) atomicPort)).reg (Reg.CL_ATOM_STATUS 31 3) = 0x33 ∧
      (ctrl 16 (atomTo (hbmWord + 4) atomicPort)).mem = atomicPort.mem ∧
      (atomTo farAddr windowed).windowOk ⟨me, Op.atomic, false, farAddr.toNat, 8, 255, 0, false, false, false, leBytes 8 0 ++ leBytes 8 0, .atomPort⟩
        ⟨9, 64, 64, false⟩ = true ∧
      (ctrl 16 (atomTo farAddr windowed)).atomBusy 127 = true ∧
      ((ctrl 16 (atomTo farAddr windowed)).fab.opens.map fun e => (e.1, e.2.sink)) = [(0xC000, .atomPort)] := by decide +kernel

theorem witness_AtomicPortIssuesOneAtATime :
    atomicPort.clusterPresent 31 = true ∧ atomicPort.atomBusy 127 = false ∧ aopOk 0 8 = true ∧
      (after (.clAtomCtrlWrite 31 3 16) atomicPort).reg (Reg.CL_ATOM_RESULT 31 3) = 0x0807060504030201 ∧
      memNat (after (.clAtomCtrlWrite 31 3 16) atomicPort).mem hbmWord.toNat 8 = 0x0807060504030208 ∧ atomicBusy.atomBusy 127 = true ∧
      ((after (.clAtomCtrlWrite 31 3 16) atomicBusy).core 127).atomWait = [16] := by decide +kernel

/-- A request from node 9 at the head of port die 3's queue, to the last word of HBM; for an atomic the operand is 7. (FADD and BADD2 take
four bytes, R354, and CAS a second payload word, R340.) -/
def request (op aop life : Nat) : Cell :=
  { Cell.ofBytes (zeros 288) with src := 9, op := op, aop := aop, aw := decide (aop < 8), lenW := if aop = 7 then 1 else 0, be := 255, life := life, tag := 11, offset := hbmSize - 8,
                                  payload := 7 :: zeros 255 }
def ejected (c : Cell) : State := { hbm with fab := { hbm.fab with eject := [(12, [c])] } }

theorem witness_RequestsAreServedInTheirTurn :
    hbm.drainCell 3 = none ∧ after (.load 3) hbm = hbm ∧ ((ejected (request Op.load 0 0)).drainCell 3).map (fun e => e.1) = some (request Op.load 0 0) ∧
      cellFormOk (request Op.load 0 0) = true ∧ after (.store 3) (ejected (request Op.load 0 0)) = ejected (request Op.load 0 0) ∧
      after (.atomicMin 3) (ejected (request Op.atomic 0 0)) = ejected (request Op.atomic 0 0) ∧
      after (.load 3) (ejected (request Op.load 0 0)) ≠ ejected (request Op.load 0 0) := by decide +kernel

/-- What a request's row leaves in memory, and the answer it queues for injection: destination, operation, tag and first eight bytes. -/
def servedAs (i : Instr) (s : State) : Nat × List (Nat × Nat × Nat × Nat) :=
  (memNat (after i s).mem hbmWord.toNat 8,
    ((after i s).fab.inject.map fun e => e.2.map fun c => (c.dest, c.op, c.tag, leNat (c.payload.take 8))).flatten)

theorem witness_RequestsAreServedAtTheirTarget :
    (ejected (request Op.load 0 0)).expired (request Op.load 0 0) = false ∧ (ejected (request Op.load 0 0)).hg.swapDue = [] ∧
      servedAs (.load 3) (ejected (request Op.load 0 0)) = (0x0807060504030201, [(9, Op.loadRsp, 11, 0x0807060504030201)]) ∧
      servedAs (.store 3) (ejected (request Op.store 0 0)) = (7, []) ∧
      ((after (.store 3) (ejected (request Op.store 0 0))).fab.acks.map fun e => e.2.entries) = [[(11, 0)]] := by decide +kernel

theorem witness_AtomicsAreServedAtTheirTarget :
    (atomicRows 3).all (fun e => cellFormOk (request Op.atomic e.1 0)) = true ∧
      ((atomicRows 3).map fun e => (servedAs e.2 (ejected (request Op.atomic e.1 0))).1) =
        [0x0807060504030208, 7, 0x0807060504030201, 1, 0x0807060504030207, 0x0807060504030206, 7, 0x0807060504030201,
          0x0807060504030201, 0x0807060504030202] ∧
      ((atomicRows 3).map fun e => (servedAs e.2 (ejected (request Op.atomic e.1 0))).2) =
        List.replicate 8 [(9, Op.atomicRsp, 11, 0x0807060504030201)] ++ List.replicate 2 [(9, Op.atomicRsp, 11, 0x04030201)] := by decide +kernel

/-- A request whose offset nothing maps; 63 tags are gathered for node 9. -/
def unmappedAt (op aop : Nat) : Cell := { request op aop 0 with offset := hbmSize }
def nearlyFull : State :=
  { ejected (request Op.store 0 0) with fab := { (ejected (request Op.store 0 0)).fab with acks := [(ackKey 3 ((request Op.store 0 0).cls == Cls.mgmt) 9, ⟨List.replicate 63 (1, 0), 0⟩)] } }

theorem witness_RefusedRequestsAreAnswered :
    offsetOk hbmSize = false ∧ (request Op.load 0 0).cls = 0 ∧
      (servedAs (.load 3) (ejected (unmappedAt Op.load 0))).2 = [(9, Op.loadRsp, 11, 2 ^ 64 - 1)] ∧
      (after (.load 3) (ejected (unmappedAt Op.load 0))).fld Reg.JT_CNT_TARGET Fld.JT_CNT_TARGET_REFUSED = 1 ∧
      ((after (.store 3) (ejected (unmappedAt Op.store 0))).fab.acks.map fun e => e.2.entries) = [[(11, 0x33)]] ∧
      (servedAs (.atomicAdd 3) (ejected (unmappedAt Op.atomic 0))).2 = [(9, Op.atomicRsp, 11, 2 ^ 64 - 1)] ∧
      ((after (.store 3) nearlyFull).fab.inject.map fun e => e.2.map fun c => (c.dest, c.op, c.offset)) = [[(9, Op.ack, 64)]] ∧
      (after (.store 3) nearlyFull).fab.acks = [] := by decide +kernel

theorem witness_ExpiredRequestsAreOnlyCounted :
    (ejected (request Op.load 0 1)).live = true ∧
      (ejected (request Op.load 0 1)).expired (request Op.load 0 1) = true ∧
      (after (.load 3) (ejected (request Op.load 0 1))).fld Reg.JT_CNT_TARGET Fld.JT_CNT_TARGET_EXPIRED = 1 ∧
      (after (.load 3) (ejected (request Op.load 0 1))).fab.inject = [] := by decide +kernel

/-- An operation of the core to node 9 is open under tag 0xC000, and its answer, with a status, stands at the head of a queue. -/
def openAs (op : Nat) (sink : Sink) : OpenOp := ⟨me, op, false, farAddr.toNat, 9, 8, sink, true, 0, false⟩
def answered (op : Nat) (sink : Sink) (rsp status : Nat) : State :=
  let c := { request rsp 0 0 with tag := 0xC000, status := status, offset := if rsp = Op.ack then 1 else 0,
                                  payload := if rsp = Op.ack then leBytes 4 (0xC000 + status * 2 ^ 16) ++ zeros 252 else 7 :: zeros 255 }
  { coreUp with fab := { coreUp.fab with opens := [(0xC000, openAs op sink)], eject := [(12, [c])] } }
def unasked : State := { answered Op.load .none Op.loadRsp 0 with fab := { (answered Op.load .none Op.loadRsp 0).fab with opens := [] } }

theorem witness_AnswersCloseTheirEntry :
    (answered Op.load (.reg 31 4) Op.loadRsp 0).settled = true ∧ ((answered Op.load (.reg 31 4) Op.loadRsp 0).core 127).fencing = false ∧
      ((answered Op.load (.reg 31 4) Op.loadRsp 0).drainCell 3).all (fun e => cellFormOk e.1) = true ∧
      (after (.loadRsp 3) (answered Op.load (.reg 31 4) Op.loadRsp 0)).fab.opens = [] ∧
      ((after (.loadRsp 3) (answered Op.load (.reg 31 4) Op.loadRsp 0)).core 127).readX 31 = 7 ∧
      ((after (.loadRsp 3) (answered Op.load (.reg 31 4) Op.loadRsp 0x11)).core 127).mcause = 5 ∧
      ((after (.atomicRsp 3) (answered Op.atomic (.reg 31 4) Op.atomicRsp 0)).core 127).readX 31 = 7 ∧
      ((after (.atomicRsp 3) (answered Op.atomic (.reg 31 4) Op.atomicRsp 0x11)).core 127).mcause = 7 ∧
      (after (.loadRsp 3) unasked).fld Reg.JT_CNT_LOST Fld.JT_CNT_LOST_LATE_RSP = 1 ∧
      (after (.ack 3) (answered Op.store .none Op.ack 0)).fab.opens = [] ∧
      ((after (.ack 3) (answered Op.store .none Op.ack 0)).core 127).storeFail = none ∧
      ((after (.ack 3) (answered Op.store .none Op.ack 0x11)).core 127).storeFail = some farAddr.toNat := by decide +kernel

/-- An ACK is gathered for node 65535. -/
def gathering (ns : Nat) : State :=
  { coreUp with fab := { coreUp.fab with acks := [(ackKey 3 false 65535, ⟨[(11, 0), (12, 0x31)], 0⟩)] },
                clock := { coreUp.clock with elapsedNs := ns } }

theorem witness_AckLeavesAfterItsDelay :
    tblFind (ackKey 3 true 65535) (gathering 0).fab.acks = none ∧ (gathering 0).fld Reg.JT_CTRL Fld.JT_CTRL_ACK_DELAY ≤ 10 ^ 6 ∧
      0 < (gathering 0).fld Reg.JT_CTRL Fld.JT_CTRL_ACK_DELAY ∧ after (.ackDelayExpire 3 65535) (gathering 0) = gathering 0 ∧
      ((after (.ackDelayExpire 3 65535) (gathering (10 ^ 6))).fab.inject.map fun e => (e.1, e.2.map fun c => (c.dest, c.op, c.offset))) =
        [(14, [(65535, Op.ack, 2)])] ∧
      ((after (.ackDelayExpire 3 65535) (gathering (10 ^ 6))).fab.inject.map fun e => e.2.map fun c => c.payload) =
        [[leBytes 4 11 ++ leBytes 4 (12 + 0x31 * 2 ^ 16)]] := by decide +kernel

/-- A load to node 9 has been open since the start of time, for a T_dead in nanoseconds or, sent before fabric time was valid, in cycles. -/
def waitingLoad (timed : Bool) (ns cycles : Nat) : State :=
  { coreUp with fab := { coreUp.fab with opens := [(0xFFFF, ⟨me, Op.load, false, farAddr.toNat, 9, 8, .reg 31 4, false, 0, timed⟩)] },
                clock := { coreUp.clock with elapsedNs := ns, cycles := cycles } }
def givenUp (timed : Bool) (ns cycles : Nat) : State := after (.tDeadExpire 0xFFFF) (waitingLoad timed ns cycles)

theorem witness_TargetIsLostAtTDead :
    (waitingLoad true 16000 0).settled = true ∧ (waitingLoad true 16000 0).fld Reg.JT_CTRL Fld.JT_CTRL_T_DEAD = 16 ∧
      (givenUp true 16000 0).fab.opens = [] ∧ ((tblFind 0xFFFF (givenUp true 16000 0).fab.lost).map fun o => o.node) = some 9 ∧
      ((givenUp true 16000 0).core 127).mcause = 5 ∧ (givenUp true 16000 0).fld Reg.JT_CNT_LOST Fld.JT_CNT_LOST_LOST = 1 ∧
      (newFaults (waitingLoad true 16000 0) (givenUp true 16000 0)).take 1 = [(0x737, 0x30, 0, 9 + 0xFFFF * 2 ^ 16 + 2 ^ 32)] ∧
      (givenUp false 16000 43200).fab.opens = [] ∧ givenUp true 15999 43200 = waitingLoad true 15999 43200 ∧
      givenUp false 16000 43199 = waitingLoad false 16000 43199 ∧
      after (.tDeadExpire 0) (waitingLoad true 16000 0) = waitingLoad true 16000 0 := by decide +kernel

-- Collectives --------------------------------------------------------------------------------------------------------

/-- A group of this node and node 9; region 9 is the staging region, of 1 MiB. -/
def grouped : State :=
  ((up.setReg (Reg.COL_GROUP 0) (2 ^ 16)).setReg (Reg.COL_GROUP 1) (9 + 2 ^ 16)).setReg (Reg.RSV_REGION 9) (6 + 255 * 2 ^ 32)

/-- The collectives of 16 elements, by operation (R378), with tag 6 and epoch 4. -/
def colWords (op : Nat) : List Nat := [op + 8 * 2 ^ 24 + 9 * 2 ^ 32 + 6 * 2 ^ 48, 4, 0, 2 ^ 20, 16, 0]
def colRow (op : Nat) (ws : List Nat) : Instr :=
  match op with
  | 1 => .allReduce (.wm 3) 0 ws
  | 2 => .reduceScatter (.wm 3) 0 ws
  | 3 => .allGather (.wm 3) 0 ws
  | 4 => .broadcast (.wm 3) 0 ws
  | _ => .barrier (.wm 3) 0 ws
def launched (op : Nat) (s : State) : State := after (colRow op (colWords op ++ [0, 0])) s

theorem witness_LaunchIsCheckedAndStarts :
    grouped.live = true ∧ grouped.launchKey (.wm 3) = some 131 ∧ grouped.col.latches = [] ∧
      [1, 2, 3, 4, 5].all (fun op => grouped.launchRefusal (.wm 3) { ColDesc.ofWords (colWords op) with
        chunk := grouped.fld Reg.COL_CTRL Fld.COL_CTRL_CHUNK_LOG2 } == none) = true ∧
      [1, 2, 3, 4, 5].all (fun op => (launched op grouped).colBusy && (launched op grouped).col.list.length == 32 &&
        (launched op grouped).fld Reg.COL_CNT Fld.COL_CNT_LAUNCHED == 1) = true ∧
      ([1, 2, 3, 4, 5].map fun op => newFaults up (launched op up)) = List.replicate 5 [(0x4003, 0x61, 0, 6 + 2 ^ 16)] ∧
      (after (colRow 1 (colWords 1)) grouped).colBusy = false := by decide +kernel

/-- An ALL_REDUCE runs; all clusters have finished but the last; it has failed before; its deadline has passed. -/
def reducing : State := launched 1 grouped
def lastLeft : State :=
  { reducing with col := { reducing.col with finished := List.range 31, lead := 0x500 }, cores := [(0, { CoreState.reset with mip := 2 ^ 24 })] }
def failedBefore : State := { reducing with sw := { reducing.sw with colFail := some 0 } }
/-- Core 3 of cluster 31 runs and does not mask the interrupt. -/
def listening : State :=
  { after (.clCoreRunWrite .mgmt 31 8) reducing with cores := [(127, { CoreState.reset with mie := 2 ^ 24, mtvec := 4097, pc := 64, machine := false })] }
def taken : State := after .collectiveInterrupt listening
def lateCollective : State := { reducing with tb := { reducing.tb with acc := BitVec.ofNat 96 (10 ^ 15 * 2 ^ 32) } }

theorem witness_CollectiveInterruptWaitsForQuiet :
    reducing.colBusy = true ∧ reducing.col.raised = none ∧ reducing.sw.colFail = none ∧
      (List.range 32).all (fun n => (reducing.cluster n).quiet) = true ∧ (after .collectiveInterrupt reducing).col.raised = some 0 ∧
      ((after .collectiveInterrupt reducing).core 127).mip = 2 ^ 24 ∧
      after .collectiveInterrupt failedBefore = failedBefore ∧ after .collectiveInterrupt up = up := by decide +kernel

theorem witness_CoresTakeTheInterruptAndReturn :
    reducing.col.list.Nodup ∧ listening.colBusy = true ∧ listening.coreRuns 127 = true ∧ taken.col.run.cores = [127] ∧
      (taken.core 127).pc = 4192 ∧ (taken.core 127).mcause = 2 ^ 63 + 24 ∧ (taken.core 127).mepc = 64 ∧ (taken.core 127).machine = true ∧
      ((after (.colFinish 31 0) { taken with col := { taken.col with finished := List.range 31 } }).core 127).pc = 64 ∧
      ((after (.colFinish 31 0) { taken with col := { taken.col with finished := List.range 31 } }).core 127).machine = false := by
  decide +kernel

theorem witness_LastFinishCompletesTheCollective :
    lastLeft.colBusy = true ∧ 31 ∈ lastLeft.col.list ∧ 31 ∉ lastLeft.col.finished ∧ lastLeft.col.seals = [] ∧
      lastLeft.flag Reg.COL_CTRL Fld.COL_CTRL_DONE_EN = false ∧ (after (.colFinish 31 0) lastLeft).colBusy = false ∧
      (after (.colFinish 31 0) lastLeft).fld Reg.COL_STATUS Fld.COL_STATUS_LAGGARD = 5 ∧ (after (.colFinish 31 0) lastLeft).reg Reg.COL_EPOCH = 4 ∧
      ((after (.colFinish 31 0) lastLeft).core 0).mip = 0 ∧ (after (.colFinish 31 0) reducing).col.finished = [31] ∧
      (after (.colFinish 0 7) reducing).col.lead = 7 ∧ after (.colFinish 0 7) lastLeft = lastLeft := by decide +kernel

/-- The lead has found poisoned data. -/
def poisonedLeft : State := { lastLeft with col := { lastLeft.col with lead := Code.collectivePoisoned } }

theorem witness_FailedCollectiveIsReported :
    (after (.colFinish 31 0) poisonedLeft).fld Reg.COL_STATUS Fld.COL_STATUS_STATUS = Code.collectivePoisoned ∧
      (after (.colFinish 31 0) poisonedLeft).fld Reg.COL_CNT Fld.COL_CNT_FAILED = 1 ∧
      ((newFaults poisonedLeft (after (.colFinish 31 0) poisonedLeft)).map fun e => (e.1, e.2.1)) =
        [(poisonedLeft.clusterUnit 0 4, Code.collectivePoisoned)] := by decide +kernel

theorem witness_CollectiveDeadlineEndsIt :
    lateCollective.colBusy = true ∧ lateCollective.timeValid = true ∧ lateCollective.col.deadline ≤ lateCollective.now ∧
      lateCollective.col.members = 2 ∧ lateCollective.closingHeld 0 = false ∧ (after .collectiveDeadline lateCollective).colBusy = false ∧
      (after .collectiveDeadline lateCollective).fld Reg.COL_STATUS Fld.COL_STATUS_STATUS = Code.deadlineMissed ∧
      after .collectiveDeadline reducing = reducing := by decide +kernel

/-- The member's one cluster has taken the interrupt and has sent the first chunk of the pair with node 9, on the second of its attempts;
nothing more is awaited. An ack word stands in the ack line, or none. -/
def sentChunk (attempt : Nat) : ColSend :=
  { peer := 1, t := 0, k := 0, phase := 0, attempt := attempt, data := zeros 32, poison := false, src := none, stage := .header, lost := false,
    again := true, moved := false }
def movingWith (attempt : Nat) : State :=
  { taken with col := { taken.col with list := [31], run := { taken.col.run with
      phase := .moving, sends := [sentChunk attempt], took := [(1, (1000, none))] } } }
def ackLine (attempt w : Nat) : State := ((movingWith attempt).writeLocal .link (regionAddr 9 0x4040) (leBytes 8 w) false).2
/-- The program after an idle step: chunks on their way with their attempts, cause and phase. -/
def afterAck (attempt result by_ : Nat) : List Nat × Nat × ColPhase :=
  match step (ackLine attempt (ackWord 0 result by_ (movingWith attempt).colSeq)) with
  | .next t => (t.col.run.sends.map fun x => x.attempt, t.col.run.cause, t.col.run.phase)
  | _ => ([], 99, .waiting)

theorem witness_ChunkStaysUntilAcknowledged :
    (movingWith 1).live = true ∧ (movingWith 1).pending = [] ∧ (movingWith 1).settled = true ∧ (movingWith 1).colReady = true ∧
      (movingWith 1).colCores.all (fun i => !(movingWith 1).takesCol i) = true ∧ (movingWith 1).colOpen (.colChunk 1 0) = false ∧
      (List.range 2).all (fun i => decide ((movingWith 1).colExpects i ≤ (tblGetD i (0, none) (movingWith 1).col.run.took).1) &&
        !(movingWith 1).closingPoisoned i) = true ∧
      (movingWith 1).fld Reg.COL_CTRL Fld.COL_CTRL_RESEND_MAX = 3 ∧ (movingWith 1).slotNode 1 = 9 ∧ (movingWith 1).node = 0 ∧
      afterAck 1 0 0 = ([1], 0, .moving) ∧ afterAck 1 0 1 = ([], 0, .closing) ∧ afterAck 1 1 1 = ([2], 0, .moving) ∧
      afterAck 2 1 2 = ([], 1, .closing) := by decide +kernel

theorem witness_ChunkHeadersAndAcksAreLaidOut :
    bitsOf (ackWord (2 ^ 32 - 1) 255 255 65535) 0 32 = 2 ^ 32 - 1 ∧ bitsOf (ackWord (2 ^ 32 - 1) 255 255 65535) 32 8 = 255 ∧
      bitsOf (ackWord (2 ^ 32 - 1) 255 255 65535) 40 8 = 255 ∧ bitsOf (ackWord (2 ^ 32 - 1) 255 255 65535) 48 16 = 65535 ∧
      leNat (sliceOf ((movingWith 1).chunkHeader (sentChunk 1)) 20 4) = 32 ∧ leNat (sliceOf ((movingWith 1).chunkHeader (sentChunk 1)) 0 8) = 4 ∧
      leNat (sliceOf ((movingWith 1).chunkHeader (sentChunk 1)) 29 1) = 16 := by decide +kernel

/-- FP32 values 1 and 2 to the -24. -/
def fp1 : List Byte := leBytes 4 0x3F800000
def fpTiny : List Byte := leBytes 4 0x33800000

theorem witness_CanonicalSumIsTheFixedTree :
    colSum 0 [fpTiny] = fpTiny ∧ colSum 0 [fp1, fpTiny, fpTiny] = fp1 ∧ colSum 0 [fpTiny, fpTiny, fp1] = leBytes 4 0x3F800001 ∧
      2 ^ 1 < [fpTiny, fpTiny, fp1].length ∧ [fpTiny, fpTiny, fp1].length ≤ 2 * 2 ^ 1 := by decide +kernel

-- Travo Link, rings and requests -------------------------------------------------------------------------------------

/-- Three flits are held for replay; the last is 2. -/
def flit (txn : Nat) : TravoFlit := ⟨0x0A, false, txn, 0, 0, 0, 0, []⟩
def holding : State := { up with tl := { up.tl with sent := [(0, flit 5), (1, flit 6), (2, flit 7)], txSeq := 2, rxSeq := 4095 } }

theorem witness_FlitsAreAcknowledgedAndReplayed :
    holding.travoUp = true ∧ State.reset.travoUp = false ∧ after (.travoFlitReceive 0x18 0 0 false true) State.reset = State.reset ∧
      (after (.travoFlitReceive 0x18 0 1 false false) holding).out = [.travoNak 4095] ∧
      ((after (.travoFlitReceive 0x18 0 0 true true) holding).out.map fun o => match o with | .travo f n => (f.txn, n) | _ => (0, 0)) =
        [(6, 1), (7, 2)] ∧
      ((after (.travoFlitReceive 0x18 0 1 false true) holding).tl.sent.map fun e => e.1) = [2] ∧
      (after (.travoFlitReceive 0x18 0 1 false true) holding).tl.rxSeq = 0 ∧
      (after (.travoFlitReceive 0x18 7 1 false true) holding).tl.rxSeq = 4095 ∧
      (after (.travoFlitReceive 0x0A 0 1 false true) holding).fld Reg.TL_CNT_LINK Fld.TL_CNT_LINK_MALFORMED = 1 := by decide +kernel

/-- Line 3 is held, dirty, with a 7 as its first byte. -/
def lined : State := { up with tl := { up.tl with lines := [(3, ⟨true, true⟩)], cmem := [(384, 7)] } }

theorem witness_SnoopsAreAnswered :
    lined.travoUp = true ∧ lined.tl.writes = [] ∧ tblFind 3 lined.tl.lines = some ⟨true, true⟩ ∧
      (after (.snpShared 9 3) lined).out = [.travo ⟨0x0A, false, 9, 0, 0, 384, 0, 7 :: zeros 127⟩ 0] ∧
      tblFind 3 (after (.snpShared 9 3) lined).tl.lines = some ⟨false, false⟩ ∧ tblFind 3 (after (.snpInv 9 3) lined).tl.lines = none ∧
      (after (.snpInv 9 4) lined).out = [.travo ⟨0x0A, false, 9, 0, 0, 512, 0, []⟩ 0] ∧ after (.snpInv 9 4) State.reset = State.reset := by
  decide +kernel

/-- A core waits for the line of an 8-byte load; a store waits for another line. -/
def lineWanted : State :=
  { coreUp with tl := { coreUp.tl with reads := [⟨.core 31 3, 392, 8, .reg 31 4⟩], lineReqs := [⟨4095, 3, false⟩] } }
def lineWritten : State :=
  { coreUp with tl := { coreUp.tl with writes := [⟨.core 31 3, 504, List.replicate 8 9⟩], lineReqs := [⟨4095, 3, true⟩] } }

theorem witness_LineAnswersCompleteWhatWaits :
    lineWanted.travoUp = true ∧ lineWanted.tl.lines.length < lineCapacity ∧
      ((after (.line 4095 false (List.replicate 128 7)) lineWanted).core 127).readX 31 = 0x0707070707070707 ∧
      (after (.line 4095 false (List.replicate 128 7)) lineWanted).tl.reads = [] ∧
      ((after (.line 4095 true (List.replicate 128 7)) lineWanted).core 127).mcause = 5 ∧
      (after (.grant 4095) lineWritten).tl.writes = [] ∧ memBytes (after (.grant 4095) lineWritten).tl.cmem 504 8 = List.replicate 8 9 ∧
      tblFind 3 (after (.grant 4095) lineWritten).tl.lines = some ⟨true, true⟩ ∧
      after (.line 7 false (List.replicate 128 7)) lineWanted = lineWanted := by decide +kernel

def setupAddr : Word := BitVec.ofNat 64 (setupBase + Reg.TOP_DEVICE_ID)

theorem witness_UncachedReadsAreAnswered :
    up.travoUp = true ∧ inSetup setupAddr.toNat = true ∧
      (after (.ucRd 9 setupAddr 3 false) up).out = [.travo ⟨0x1A, false, 9, 0, 3, setupAddr.toNat, 0, leBytes 8 (up.reg Reg.TOP_DEVICE_ID)⟩ 0] ∧
      (after (.ucRd 9 setupAddr 3 true) up).out = [.travo ⟨0x1A, true, 9, Code.uncorrectable, 3, setupAddr.toNat, 0, zeros 8⟩ 0] ∧
      inSetup (0 : Word).toNat = false ∧ inDoorbell (0 : Word).toNat = false ∧
      newFaults up (after (.ucRd 9 0 3 false) up) = [(0x5001, 0x33, 0, 0)] := by decide +kernel

def chanAddr : Word := BitVec.ofNat 64 (setupBase + Reg.TL_CTRL)

theorem witness_UncachedWritesAreAcknowledged :
    inSetup chanAddr.toNat = true ∧ (regDescAt (chanAddr.toNat - setupBase)).map RegDesc.width4 = some false ∧
      (after (.ucWr 9 chanAddr 3 255 [5, 0, 0, 0, 0, 0, 0, 0] [] []) up).fld Reg.TL_CTRL Fld.TL_CTRL_WIN_GIB =
        (after (.setupWrite .travo chanAddr 5) up).fld Reg.TL_CTRL Fld.TL_CTRL_WIN_GIB ∧
      (after (.ucWr 9 chanAddr 3 255 [5, 0, 0, 0, 0, 0, 0, 0] [] []) up).out = [.travo ⟨0x1B, false, 9, 0, 3, chanAddr.toNat, 0, []⟩ 0] ∧
      (after (.ucWr 9 chanAddr 3 1 [5, 0, 0, 0, 0, 0, 0, 0] [] []) up).regs = up.regs ∧
      newFaults up (after (.ucWr 9 0 3 255 (zeros 8) [] []) up) = [(0x5001, 0x33, 0, 0x10000)] := by decide +kernel

/-- Ring 16383 is on, of a kind, of 16 entries, for job 1, with completion ring 2 and CALL channel 4095, and holds one entry; job 1 runs. -/
def ringWord (kind : Nat) : Nat := 1 + kind * 2 + 4 * 2 ^ 4 + 2 ^ 16 + 2 * 2 ^ 32 + 4095 * 2 ^ 46
def ringed (kind : Nat) : State :=
  let s := ((up.setReg (Reg.TL_RING0 16383) (ringWord kind)).setReg (Reg.TL_RING0 2) (1 + 2 * 2 + 4 * 2 ^ 4)).setFld Reg.TL_CTRL Fld.TL_CTRL_WIN_GIB 1
  let s := (s.setFlag Reg.WM_SCHED Fld.WM_SCHED_RUN_VALID true).setFld Reg.WM_SCHED Fld.WM_SCHED_RUNNING 1
  { s with tl := { s.tl with rings := [(16383, ⟨4, 5, 5, [(4, List.replicate 64 3)]⟩)] } }

theorem witness_RingStartsEmptyOrIsRefused :
    up.hears .travo = true ∧ up.ringOn 16383 = false ∧
      (regDescAt (Reg.TL_RING0 16383)).any (fun d => d.src.accepts .travo) = true ∧
      (after (.tlRingWrite .travo 16383 0 (BitVec.ofNat 64 (ringWord 1))) up).reg (Reg.TL_RING0 16383) = ringWord 1 ∧
      (ringed 1).ringOn 16383 = true ∧ ((ringed 1).setReg (Reg.TL_RING0 16383) 0).ring 16383 = ⟨4, 5, 5, [(4, List.replicate 64 3)]⟩ ∧
      (after (.tlRingWrite .travo 16383 0 1) ((ringed 1).setReg (Reg.TL_RING0 16383) 0)).ring 16383 = ⟨0, 0, 0, []⟩ ∧
      newFaults (ringed 1) (after (.tlRingWrite .travo 16383 2 7) (ringed 1)) = [(0x5001, 0x83, 0, 16383 + 7 * 2 ^ 18)] ∧
      (after (.tlRingWrite .travo 16383 0 (BitVec.ofNat 64 (ringWord 1 - 1))) (ringed 1)).ringOn 16383 = false := by decide +kernel

theorem witness_DoorbellsMoveTheirPointer :
    up.safeState = false ∧ (ringed 1).ringKind 16383 = 1 ∧ ((after (.dbTail 16383 20) (ringed 1)).ring 16383).tail = 20 ∧
      newFaults (ringed 1) (after (.dbTail 16383 21) (ringed 1)) = [(0x5001, 0x83, 0, 16383 + 2 ^ 14 + 21 * 2 ^ 18)] ∧
      newFaults (ringed 1) (after (.dbHead 16383 5) (ringed 1)) = [(0x5001, 0x83, 0, 16383 + 2 * 2 ^ 14 + 5 * 2 ^ 18)] ∧
      newFaults (ringed 3) (after (.dbTail 16383 5) (ringed 3)) = [(0x5001, 0x83, 0, 16383 + 2 * 2 ^ 14 + 5 * 2 ^ 18)] ∧
      newFaults up (after (.dbTail 16383 5) up) = [(0x5001, 0x83, 0, 16383 + 3 * 2 ^ 14 + 5 * 2 ^ 18)] ∧
      ((after (.dbHead 16383 5) (ringed 3)).ring 16383).head = 5 ∧
      newFaults (ringed 3) (after (.dbHead 16383 6) (ringed 3)) = [(0x5001, 0x83, 0, 16383 + 2 ^ 14 + 6 * 2 ^ 18)] := by decide +kernel

def tokens : State := { ringed 3 with tl := { (ringed 3).tl with rings := [(16383, ⟨4, 5, 5, [(4, List.replicate 16 3)]⟩)] } }
def noTokens : State := { ringed 3 with tl := { (ringed 3).tl with rings := [(16383, ⟨5, 5, 5, [(4, List.replicate 16 3)]⟩)] } }

theorem witness_PollReturnsTheOldestEntry :
    tokens.ringOn 16383 = true ∧ tokens.ringKind 16383 = 3 ∧ (tokens.ring 16383).head ≠ (tokens.ring 16383).tail ∧
      (after (.poll 9 16383) tokens).out = [.travo ⟨0x1A, false, 9, 0, 4, doorbellBase + 16383 * 4096 + 0x100, 0,
        [3, 3, 3, 3, 3, 3, 131, 0] ++ List.replicate 8 3⟩ 0] ∧
      (after (.poll 9 16383) noTokens).fld Reg.TL_CNT_POLL Fld.TL_CNT_POLL_POLL_EMPTY = 1 ∧
      (after (.poll 9 16383) noTokens).out = [.travo ⟨0x1A, false, 9, 0, 4, doorbellBase + 16383 * 4096 + 0x100, 0, zeros 16⟩ 0] := by
  decide +kernel

/-- A descriptor (R417) of session 0 with tag 9 and one token, whose data lie at the start of companion memory. -/
def descriptor (op : Nat) : List Byte :=
  [BitVec.ofNat 8 op, 0, 0, 0] ++ leBytes 4 9 ++ leBytes 4 0 ++ leBytes 4 1 ++ zeros 8 ++ leBytes 8 companionBase ++ zeros 12 ++ leBytes 4 3 ++
    leBytes 2 16383 ++ zeros 14

/-- Session 0 is valid and of job 1. Its image for SESSION_SET holds a position of 7. -/
def hosted : State := { ringed 1 with mem := [(0, 1), (1, 1)] }
def image : List Byte := zeros 8 ++ [7] ++ zeros 55
def requests (bad : Bool) : List (Nat × Instr) :=
  [1, 2, 3, 4, 5, 6].map fun op => (op, match op with
    | 1 => .prefill (descriptor 1) bad
    | 2 => .generate (descriptor 2) bad
    | 3 => .sessionSet (descriptor 3) bad image false
    | 4 => .sessionClose (descriptor 4) bad
    | 5 => .abort (descriptor 5) bad
    | _ => .call (descriptor 6) bad)

/-- The tags and statuses that completion ring 2 has taken. -/
def completions (s : State) : List (Nat × Nat) := (s.ring 2).recent.map fun e => (bytesAt e.2 0 4, bytesAt e.2 4 1)
def markedHead : State := { hosted with tl := { hosted.tl with marked := [(16383 * 2 ^ 32 + 4, 0)] } }

theorem witness_RequestsAreConsumedAndChecked :
    hosted.job = some 1 ∧ hosted.timeValid = true ∧ hosted.ecc.halted = false ∧ hosted.windowFull 1 = false ∧ hosted.nextRing 1 = some 16383 ∧
      hosted.tl.requests = [] ∧ hosted.callHeld 16383 = false ∧
      (requests false).all (fun e => decide (((after e.2 hosted).ring 16383).head = 5) &&
        (after e.2 hosted).fld Reg.TL_CNT_REQ Fld.TL_CNT_REQ_CONSUMED == 1) = true ∧
      ((requests false).map fun e => completions (after e.2 markedHead)) = List.replicate 6 [(9, Code.aborted)] ∧
      ((requests true).map fun e => completions (after e.2 hosted)) = List.replicate 6 [(0, Code.uncorrectable)] ∧
      ((requests false).map fun e => decide (after e.2 up = up)) = List.replicate 6 true ∧ hosted.marks = [] := by decide +kernel

/-- The session is of another job. -/
def strangers : State := { ringed 1 with mem := [(0, 1), (1, 2)] }

theorem witness_RefusedRequestsComplete :
    strangers.requestFault 1 (descriptor 1) (strangers.sessionEntry 0) = some 2 ∧
      ((requests false).map fun e => completions (after e.2 strangers)) =
        List.replicate 4 [(9, Code.requestInvalid)] ++ [[(9, Code.alreadyDone)], []] := by decide +kernel

/-- A request of each kind as it stands in the table; two entries of the ring have been consumed, the first waits. -/
def req (op : Nat) (stage : ReqStage) : Request :=
  ⟨16383, 3, 1, op, 0, 9, 0, 1, 0, 0, 0, 0, stage, 0, 0, 0, 1, [], false, none, false⟩
def withReq (q : Request) (s : State) : State := { s with tl := { s.tl with requests := [q] } }

theorem witness_RequestsActByTheirOp :
    hosted.requestFault 1 (descriptor 1) (hosted.sessionEntry 0) = none ∧ (requests false).all (fun e =>
        hosted.requestFault 1 (descriptor e.1) (hosted.sessionEntry 0) == none) = true ∧ hosted.kvOf 0 = ([], []) ∧
      ((requests false).map fun e => (after e.2 hosted).tl.requests.map fun q => (q.op, q.left)) = [[(1, 1)], [(2, 1)], [], [], [], [(6, 1)]] ∧
      ((requests false).map fun e => sessActive ((after e.2 hosted).sessionEntry 0)) = [true, true, false, false, false, false] ∧
      ((requests false).map fun e => completions (after e.2 hosted)) = [[], [], [(9, 0)], [(9, 0)], [(9, Code.alreadyDone)], []] ∧
      sessPosition ((after (.sessionSet (descriptor 3) false image false) hosted).sessionEntry 0) = 7 ∧
      sessValid ((after (.sessionClose (descriptor 4) false) hosted).sessionEntry 0) = false ∧
      (after (.abort (descriptor 5) false) (withReq (req 2 .waiting) hosted)).tl.requests = [] := by decide +kernel

/-- An ABORT that names the next entry of the ring. -/
def abortNext : List Byte := (descriptor 5).take 44 ++ leBytes 4 5 ++ (descriptor 5).drop 48

theorem witness_AbortOfAnEntryNotYetWritten :
    (abortNext.length, bytesAt abortNext 44 4) = (64, 5) ∧ completions (after (.abort abortNext false) hosted) = [(9, Code.notFound)] := by decide +kernel

/-- The return channel is 4095, and holds the item that names the CALL (R417), or another. -/
def returnedItem (tag : Nat) : State :=
  let s := (hosted.setReg (Reg.TL_JOB 1) (4095 * 2 ^ 12)).setReg (Reg.RSV_REGION 7) (3 + 16 * 2 ^ 16 + 19 * 2 ^ 32)
  withReq { req 6 .calling with tag := 9, ptr := 3 }
    (after (.push (.wm 0) 4095 true false (leBytes 4 tag ++ leBytes 4 16383 ++ leBytes 4 3 ++ zeros 52) ⟨0, 0, 0, 0⟩ [])
      (after (.slcChanWrite .mgmt 4095 chanWord) s))

theorem witness_ReturnItemCommitsItsCall :
    (returnedItem 9).job = some 1 ∧ (returnedItem 9).fld (Reg.TL_JOB 1) Fld.TL_JOB_RET_CHANNEL = 4095 ∧
      ((returnedItem 9).popNow tableUser 4095).1 = some (leBytes 4 9 ++ leBytes 4 16383 ++ leBytes 4 3 ++ zeros 52, true, false) ∧
      (after .callReturn (returnedItem 9)).tl.requests = [] ∧ completions (after .callReturn (returnedItem 9)) = [(9, 0)] ∧
      (after .callReturn (returnedItem 8)).fld Reg.TL_CNT_LINK Fld.TL_CNT_LINK_MALFORMED = 1 ∧
      (after .callReturn (returnedItem 8)).tl.requests = (returnedItem 8).tl.requests ∧ (hosted.popNow tableUser 4095).1 = none := by decide +kernel

/-- A GENERATE waits, its session has a page and the step channel room; or it runs in the step that ends, with one token left. -/
def waiting : State :=
  let s := withReq (req 2 .waiting) ((hosted.setReg (Reg.TL_JOB 1) 4095).setReg (Reg.SLC_CHAN0 4095) (4 * 2 ^ 16 + 1))
  { s with tl := { s.tl with kv := [(0, ([0], [0]))] } }
def runs : State := withReq { req 2 .running with inStep := true } waiting

theorem witness_StepBoundaryGrantsAndAdvances :
    waiting.job = some 1 ∧ waiting.settled = true ∧ sessStream (waiting.sessionEntry 0) = false ∧ 0 < waiting.slotsMax ∧
      sessPosition (waiting.sessionEntry 0) + 1 ≤ 64 * (waiting.kvOf 0).1.length ∧ (waiting.chan 4095).count < waiting.chanDepth 4095 ∧
      (after (.stepBoundary []) waiting).tl.requests = [{ req 2 .running with inStep := true }] ∧
      (after (.stepBoundary []) waiting).tl.steps = [(1, 1)] ∧
      (after (.stepBoundary [⟨0, 77, 0⟩]) runs).tl.requests =
        [{ req 2 .running with produced := 1, left := 0, data := leBytes 4 77, ending := some 0, stopped := true }] ∧
      after (.stepBoundary []) up = up := by decide +kernel

def overdueReq (deadline : Nat) : State := withReq { req 2 .running with stopped := true, ending := some 0, deadline := deadline } hosted

theorem witness_CommitEndsAFinishedRequest :
    (overdueReq 0).tl.requests.find? (fun q => q.stopped) = some { req 2 .running with stopped := true, ending := some 0 } ∧
      (overdueReq 0).tl.requests.all (fun q => q.stage != .closing) = true ∧ (after .commit (overdueReq 0)).tl.requests = [] ∧ completions (after .commit (overdueReq 0)) = [(9, 0)] ∧
      completions (after .commit (overdueReq 5)) = [(9, Code.deadlineMissed)] ∧ after .commit hosted = hosted := by decide +kernel

/-- A record waits in the buffer; the event ring is ring 3, with room or without. -/
def buffered (on : Nat) : State :=
  let s := (up.setFld Reg.TL_EVENT Fld.TL_EVENT_EVENT_RING 3).setReg (Reg.TL_RING0 3) (on + 4 * 2 + 4 * 2 ^ 4)
  { s with flt := { s.flt with buffer := [⟨5, 0, 0x3000, true, false, false, false, false, 0, 0, 0, 0⟩] } }

theorem witness_BufferedRecordEntersTheEventRing :
    (buffered 1).ringRoom 3 4 = true ∧ (buffered 0).ringRoom 3 4 = false ∧ (after .eventRecordWrite (buffered 1)).flt.buffer = [] ∧
      ((after .eventRecordWrite (buffered 1)).ring 3).tail = 1 ∧ after .eventRecordWrite (buffered 0) = buffered 0 := by decide +kernel

-- Jobs and switches --------------------------------------------------------------------------------------------------

/-- Cluster 31 stands at its boundary; its retirement has been asked for, or the jobs are to stop. -/
def stopped : State := up.setCluster 31 { up.cluster 31 with stop := true, tiles := [⟨[], [], []⟩], vecs := [[1]] }
def retiring : State := stopped.setReg Reg.ECC_RETIRE_CL (2 ^ 31)
def killing : State := { (stopped.setFlag Reg.WM_SCHED Fld.WM_SCHED_RUN_VALID true) with ecc := { stopped.ecc with kill := true } }

theorem witness_TileBoundaryRetiresAndStops :
    up.mg.tear = none ∧ up.mg.tasks = [] ∧ (up.cluster 31).stop = false ∧ after (.tileBoundary 31) up = up ∧ (stopped.cluster 31).idle = true ∧
      31 < up.fuses.clusters ∧ retiring.clusterPresent 31 = true ∧ (after (.tileBoundary 31) retiring).clusterPresent 31 = false ∧
      (after (.tileBoundary 31) retiring).clusterPresent 30 = true ∧ ((after (.tileBoundary 31) retiring).cluster 31).vecs = [] ∧
      stopped.retiring = [] ∧ ((after (.tileBoundary 31) stopped).cluster 31).stop = false ∧ killing.clustersIdle = true ∧
      killing.job = some 0 ∧ (after (.tileBoundary 31) killing).job = none := by decide +kernel

/-- A recovery of the Watermaster asked for the kill; a chunk of a ring step is on its way in the running collective. -/
def restartAsked : State := { killing with ecc := { killing.ecc with recover := true }, cores := [(127, CoreState.reset), (130, CoreState.reset)] }
def midRing : State :=
  { retiring.setFlag Reg.COL_STATUS Fld.COL_STATUS_BUSY true with col := { up.col with raised := some 0, run := { up.col.run with
      phase := .moving, sends := [⟨0, 0, 0, 0, 0, [], false, none, .storing, false, false, false⟩] } } }

theorem witness_TileBoundaryWaitsAndRestarts :
    restartAsked.ecc.recover = true ∧ (after (.tileBoundary 31) restartAsked).job = none ∧
      ((after (.tileBoundary 31) restartAsked).cores.map fun e => e.1) = [127] ∧
      ((after (.tileBoundary 31) { restartAsked with ecc := { restartAsked.ecc with recover := false } }).cores.map fun e => e.1) = [127, 130] ∧
      midRing.colSending = true ∧ after (.tileBoundary 31) midRing = midRing := by decide +kernel

/-- A switch from job 1 to job 2 in a phase: its turn boundary lies 100 ms back. -/
def switchingAt (phase : SwitchPhase) : State :=
  let s := (up.setFlag Reg.WM_SCHED Fld.WM_SCHED_RUN_VALID true).setFld Reg.WM_SCHED Fld.WM_SCHED_RUNNING 1
  let s := (s.setReg (Reg.WM_SAVE 15) (2 ^ 30)).setFlag (Reg.WM_SAVE 15) Fld.WM_SAVE_VALID true
  let s := s.setFld (Reg.WM_SAVE 15) Fld.WM_SAVE_JOB 1
  { s with sw := { s.sw with phase := phase, stopped := true, edge := 900000000, outJob := some 1, inJob := some 2 } }
def draining : State := { switchingAt .saving with sw := { (switchingAt .saving).sw with drained := true } }
def drainOver : State := { draining with sw := { draining.sw with ended := true } }
def toIdle : State := { drainOver with sw := { drainOver.sw with inJob := none } }

theorem witness_SwitchStopsAndDrains :
    (switchingAt .stopping).atJobBoundary = true ∧ (after .jobBoundary (switchingAt .stopping)).sw.phase = .saving ∧
      ((newFaults (switchingAt .stopping) (after .jobBoundary (switchingAt .stopping))).map fun e => (e.1, e.2.1)) = [(0x4000, Code.switchLate)] ∧
      (switchingAt .stopping).sw.edge + (switchingAt .stopping).quiesceUs * 1000 < (switchingAt .stopping).now ∧
      (after .quiesceOverrun (switchingAt .stopping)).sw.late0 = true ∧ after .jobBoundary (switchingAt .ready) = switchingAt .ready ∧
      (switchingAt .saving).sw.edge + (switchingAt .saving).drainUs * 1000 ≤ (switchingAt .saving).now ∧
      (after .drainPoint (switchingAt .saving)).fab.stopJob = some 1 ∧ after .drainEnd (switchingAt .saving) = switchingAt .saving ∧
      (after .drainEnd draining).fab.refuse = true ∧ (after .drainEnd draining).sw.ended = true ∧ after .drainPoint up = up := by decide +kernel

theorem witness_SaveEndsTheOutgoingJob :
    drainOver.sw.phase = .saving ∧ drainOver.sw.ended = true ∧ drainOver.residentSlot 1 = some 15 ∧ (after .switchSaveDone drainOver).job = none ∧
      (after .switchSaveDone drainOver).sw.phase = .reloading ∧ tblFind 1 (after .switchSaveDone drainOver).sw.leftAt = some 900000000 ∧
      (after .switchSaveDone toIdle).sw.phase = .none ∧ (after .switchSaveDone toIdle).sw.idleAt.isSome = true ∧
      after .switchSaveDone draining = draining := by decide +kernel

/-- The reload of job 2, whose context lies in save area 15, for itself or with a gang; an error in the image; the resume point. -/
def reloading (gang : Bool) : State :=
  let s := (switchingAt .reloading).setFld (Reg.WM_SAVE 15) Fld.WM_SAVE_JOB 2
  let s := s.setFlag Reg.WM_SCHED Fld.WM_SCHED_RUN_VALID false
  { s with sw := { s.sw with gang := gang, edge := 1000000000 } }
def badImage : State := { reloading false with marks := [((reloading false).saveBase 15, ⟨false, [0, 1, 40, 41]⟩)] }
def resuming : State := { switchingAt .ready with fab := { up.fab with refuse := true, stopJob := some 1 } }

theorem witness_ReloadStartsTheIncomingJob :
    (reloading true).sw.phase = .reloading ∧ (reloading true).sw.inJob = some 2 ∧ (reloading true).job = none ∧
      (reloading true).sw.images = [] ∧ (reloading true).residentSlot 2 = some 15 ∧ ((reloading true).imageBad ((reloading true).saveBase 15)).1 = none ∧
      (after (.switchReady []) (reloading true)).job = some 2 ∧ (after (.switchReady []) (reloading true)).sw.phase = .ready ∧
      (after (.switchReady []) (reloading false)).job = some 2 ∧ (after (.switchReady []) (reloading false)).sw.stopped = false ∧
      (badImage.imageBad (badImage.saveBase 15)).1.isSome = true ∧ (after (.switchReady []) badImage).job = none := by decide +kernel

/-- A gang job that becomes ready after its resume point; a switch that a boundary asks for while this one runs. -/
def readyLate : State := { reloading true with sw := { (reloading true).sw with edge := 900000000 } }
def wanted : State := { toIdle with sw := { toIdle.sw with want := some (some 2, false, 999) } }

theorem witness_LateGangAndNextSwitch :
    readyLate.sw.edge + readyLate.resumeUs * 1000 < readyLate.now ∧ (after (.switchReady []) readyLate).sw.stopped = false ∧
      newFaults readyLate (after (.switchReady []) readyLate) =
        [(0x4000, Code.switchLate, 0, 1 + 2 * 2 ^ 8 + 2 ^ 16 + (100000 - readyLate.resumeUs) * 2 ^ 20)] ∧
      wanted.sw.stopped = true ∧ (after .switchSaveDone wanted).sw.phase = .stopping ∧ (after .switchSaveDone wanted).sw.inJob = some 2 ∧
      (after .switchSaveDone wanted).sw.want = none := by decide +kernel

theorem witness_FailedReloadAndResume :
    (after (.switchReady []) badImage).jobFailed 2 = true ∧ resuming.sw.edge + resuming.resumeUs * 1000 ≤ resuming.now ∧
      (after .resumePoint resuming).sw.stopped = false ∧ (after .resumePoint resuming).fab.stopJob = none ∧ after .resumePoint up = up := by
  decide +kernel

/-- A swap in of job 7 into save area 15, or one out of it, before a swap of job 8; companion memory is mapped, or is not. -/
def swapping (out mapped : Bool) : State :=
  let s := ((up.setReg (Reg.WM_JOB1 7) companionBase).setReg (Reg.WM_JOB1 8) companionBase).setFld Reg.TL_CTRL Fld.TL_CTRL_WIN_GIB (b2n mapped)
  { s with sw := { s.sw with swaps := [⟨7, out, 15⟩, ⟨8, false, 14⟩] }
           tl := { s.tl with cmem := [(5, 9)] }
           mem := [(s.saveBase 15 + 6, 8)] }
def swapped (out mapped : Bool) : State := after .swapDone (swapping out mapped)

theorem witness_SwapMovesAContext :
    up.sw.swaps = [] ∧ after .swapDone up = up ∧ (swapping true true).marks = [] ∧ (swapping true true).mem.wf = true ∧
      ((swapping false true).swapParts 7).all (fun p => (swapping false true).companionMapped (companionBase + p.1) p.2) = true ∧
      (swapped false true).flag (Reg.WM_SAVE 15) Fld.WM_SAVE_VALID = true ∧ (swapped false true).fld (Reg.WM_SAVE 15) Fld.WM_SAVE_JOB = 7 ∧
      (swapped false true).sw.swaps = [⟨8, false, 14⟩] ∧ memByte (swapped false true).mem (up.saveBase 15 + 5) = 9 ∧
      (swapped true true).fld Reg.WM_IDLE Fld.WM_IDLE_SWAPS = 1 ∧ memByte (swapped true true).tl.cmem 6 = 8 ∧
      (swapped true false).tl.cmem = [(5, 9)] ∧
      (((newFaults (swapping true false) (swapped true false)).map fun r => r.2.1).contains Code.addressUnmapped) = true := by decide +kernel

/-- Job 1 runs, in default mode. -/
def running1 : State := { switchingAt .none with sw := up.sw }

theorem witness_ModeWritesAreMarked :
    up.clusterPresent 31 = true ∧ up.job = none ∧ running1.job = some 1 ∧ (after (.canonWrite 31 true) up).flag (Reg.CL_CTRL 31) Fld.CL_CTRL_CANON = true ∧
      (after (.canonWrite 31 true) running1).flag (Reg.WM_REPRO 1) Fld.WM_REPRO_MIXED = true ∧
      (after (.canonWrite 31 false) running1).flag (Reg.WM_REPRO 1) Fld.WM_REPRO_MIXED = false ∧ up.hears .travo = true ∧
      newFaults up (after (.wmReproWrite .travo 255 1) up) = [(0x4014, 0x80, setupBase + Reg.WM_REPRO 255, 0)] ∧
      (after (.wmReproWrite .mgmt 255 3) up).reg (Reg.WM_REPRO 255) = 3 := by decide +kernel

-- Protection ---------------------------------------------------------------------------------------------------------

/-- Scrubbing is on, and the moment lies in the scrub slot of turn 50, or after it. -/
def scrubbing (ns : Nat) : State :=
  { up.setFlag Reg.ECC_SCRUB Fld.ECC_SCRUB_ENABLE true with tb := { up.tb with acc := BitVec.ofNat 96 (ns * 2 ^ 32) } }
def lineAddr : Nat := rsvBase + 3 * 2 ^ 32 + (2 ^ 20 - 1) * 256
def scrubs (upsets : List Upset) : State := after (.scrubRead (.rsvLine 3 (2 ^ 20 - 1)) upsets) (scrubbing 1010000000)

theorem witness_ScrubCorrectsOrPoisons :
    (scrubbing 1010000000).scrubOpen = true ∧ (scrubbing 1000000000).scrubOpen = false ∧ (scrubbing 1010000000).marks = [] ∧
      after (.scrubRead (.rsvLine 3 0) []) (scrubbing 1000000000) = scrubbing 1000000000 ∧ (scrubs []).scrubbed 0 3 = 1 ∧
      (scrubs [⟨lineAddr + 248, [63, 63]⟩]).marks = [] ∧ newFaults up (scrubs [⟨lineAddr + 248, [63, 63]⟩]) = [] ∧
      (scrubs [⟨lineAddr + 248, [63, 63]⟩]).fld Reg.ECC_CNT_SRAM Fld.ECC_CNT_SRAM_CORRECTED = 0 ∧
      (scrubs [⟨lineAddr + 248, [63]⟩]).marks = [] ∧ (scrubs [⟨lineAddr + 248, [63]⟩]).fld Reg.ECC_CNT_SRAM Fld.ECC_CNT_SRAM_CORRECTED = 1 ∧
      (scrubs [⟨lineAddr + 248, [0, 5, 9]⟩]).marks = [(lineAddr + 248, ⟨true, []⟩)] ∧
      ((newFaults up (scrubs [⟨lineAddr + 248, [0, 5, 9]⟩])).map fun e => (e.2.1, e.2.2.1)) = [(Code.uncorrectable, lineAddr + 248)] := by
  decide +kernel

/-- The heartbeat is on, at the last 16 bytes of a line the device owns. -/
def beating : State :=
  let s := ((up.setFlag Reg.ECC_HB_CTRL Fld.ECC_HB_CTRL_ENABLE true).setReg Reg.ECC_HB_ADDR (companionBase + 112)).setReg Reg.ECC_HB_COUNT 5
  { s.setFld Reg.TL_CTRL Fld.TL_CTRL_WIN_GIB 1 with tl := { s.tl with lines := [(0, ⟨true, false⟩)] } }

/-- The same with the line not owned; with the window unmapped. -/
def beatingFar : State := { beating with tl := { beating.tl with lines := [] } }
def beatingNowhere : State := beating.setFld Reg.TL_CTRL Fld.TL_CTRL_WIN_GIB 0

theorem witness_HeartbeatWritesCountAndTime :
    ((after .heartbeat beatingFar).tl.writes) = [⟨hostWriter, 112, leBytes 8 5 ++ leBytes 8 1000000000⟩] ∧
      ((after .heartbeat beatingFar).tl.lineReqs.map fun q => (q.line, q.own)) = [(0, true)] ∧
      beatingNowhere.companionMapped (companionBase + 112) 16 = false ∧
      ((newFaults beatingNowhere (after .heartbeat beatingNowhere)).map fun e => e.2) = [(Code.addressUnmapped, companionBase + 112, 0x10000)] ∧
      up.flag Reg.ECC_HB_CTRL Fld.ECC_HB_CTRL_ENABLE = false ∧ after .heartbeat up = up ∧ beating.companionMapped (companionBase + 112) 16 = true ∧
      beating.tl.writes = [] ∧ memBytes (after .heartbeat beating).tl.cmem 112 16 = leBytes 8 5 ++ leBytes 8 1000000000 := by decide +kernel

def withJob : State := up.setReg (Reg.WM_JOB0 255) 1

theorem witness_WatermasterRecoveryStopsTheJobs :
    up.hears .mgmt = true ∧ up.hears .travo = true ∧ withJob.knownJobs = [255] ∧ (after (.wmRecover .travo 1 []) withJob).jobFailed 255 = true ∧
      (after (.wmRecover .travo 1 []) withJob).ecc.recover = true ∧ ((after (.wmRecover .travo 1 []) withJob).cluster 31).stop = true ∧
      after (.wmRecover .travo 0 []) withJob = withJob ∧
      newFaults up (after (.wmRecover .mgmt 1 []) up) = [(0x4014, 0x80, setupBase + Reg.ECC_WM_RECOVER, 0)] := by decide +kernel

theorem witness_RetirementIsAskedForAndKept :
    (after (.retireCluster .mgmt (BitVec.ofNat 64 (2 ^ 31))) up).reg Reg.ECC_RETIRE_CL = 2 ^ 31 ∧
      ((after (.retireCluster .mgmt (BitVec.ofNat 64 (2 ^ 31))) up).cluster 0).stop = true ∧
      (after (.retireCluster .mgmt 1) (after (.retireCluster .mgmt (BitVec.ofNat 64 (2 ^ 31))) up)).reg Reg.ECC_RETIRE_CL = 2 ^ 31 + 1 ∧
      (after (.eccRsvRetireWrite .mgmt 3 1023 (-1)) up).reg (Reg.ECC_RSV_RETIRE 3 1023) = 2 ^ 64 - 1 ∧
      newFaults up (after (.eccRsvRetireWrite .travo 3 1023 1) up) = [(0x4014, 0x80, setupBase + Reg.ECC_RSV_RETIRE 3 1023, 0)] := by decide +kernel

/-- A read or a write of the last sector of HBM, all bytes of which hold a 7. -/
def sector (write : Bool) : RsvRequest := ⟨5, .dma 31 1, hbmSize - 32, write, 32, 2 ^ 32 - 1, if write then List.replicate 32 9 else [], false⟩
def hbmFull : State := { up with mem := (List.range 32).map fun i => (hbmSize - 32 + i, 7) }

def pastEnd (write : Bool) : RsvRequest := { sector write with addr := hbmSize }

theorem witness_HbmAccessesAreAnswered :
    (newFaults hbmFull (after (.hbmAccess (pastEnd false) [] 0) hbmFull)) = [(hbmFull.unitOf (.dma 31 1), 0x33, hbmSize, 0)] ∧
      (newFaults hbmFull (after (.hbmAccess (pastEnd true) [] 0) hbmFull)) = [(hbmFull.unitOf (.dma 31 1), 0x33, hbmSize, 0x10000)] ∧
      hbmFull.marks = [] ∧ (after (.hbmAccess (sector false) [] 3) hbmFull).out = [.bus (.dma 31 1) (hbmSize - 32) 0 (List.replicate 32 7)] ∧
      (after (.hbmAccess (sector false) [] 3) hbmFull).fld Reg.ECC_CNT_ODE Fld.ECC_CNT_ODE_ON_DIE = 3 ∧
      (after (.hbmAccess (sector false) [⟨hbmSize - 32, [34]⟩] 0) hbmFull).out = [.bus (.dma 31 1) (hbmSize - 32) 0 (List.replicate 32 7)] ∧
      ((after (.hbmAccess (sector false) [⟨hbmSize - 32, [0, 34]⟩] 0) hbmFull).out.map fun o => match o with | .bus _ _ st _ => st | _ => 0) =
        [Code.uncorrectable] ∧
      memBytes (after (.hbmAccess (sector true) [] 0) hbmFull).mem (hbmSize - 32) 32 = List.replicate 32 9 := by decide +kernel

-- Boot and the management channel ------------------------------------------------------------------------------------

/-- A board descriptor (R512) for free-run time with one ring port; and a boot in which all dies come up. -/
def boardBody : List Byte :=
  leBytes 4 0x54444B47 ++ leBytes 2 1 ++ leBytes 2 8242 ++ leBytes 2 77 ++ [2, 0] ++ leBytes 2 5 ++ zeros 1006
def board : List Byte := boardBody ++ leBytes 4 (crc32c boardBody)
def bootOf (desc : List Byte) : BootInput :=
  ⟨255, 15, 3, 15, true, true, 255, 0, true, desc, zeros 32, true, 0, 0, [], [], [], [], []⟩
/-- Boots that fail, each at a check of its own. -/
def badBoots : List BootInput :=
  [{ bootOf board with compute := 254 }, { bootOf board with descRead := false }, bootOf (board.take 1020), { bootOf board with regId := 1 :: zeros 31 },
   { bootOf board with open_ := 1024 }, { bootOf board with hbm := 127 }]

theorem witness_BootStopsAtTheFirstFailedCheck :
    State.reset.pwr.trip = false ∧ State.reset.reg Reg.SEC_BOOT_STATUS = 0 ∧
      after (.resetRelease (bootOf board)) { up with pwr := { up.pwr with resetLow := true } } = { up with pwr := { up.pwr with resetLow := true } } ∧
      (badBoots.map fun b => (after (.resetRelease b) State.reset).fld Reg.SEC_BOOT_STATUS Fld.SEC_BOOT_STATUS_CODE) = [1, 2, 3, 5, 8, 9] := by
  decide +kernel

/-- A part whose lifecycle is RMA: it has no identity key, whose value the model leaves opaque (log entry 25). -/
def rma : State := State.atReset { State.reset.fuses with lifecycle := 2 }

/-- A boot in which every check passes. There is no image, so the device stops in RECOVERY (R516); that an image verifies is a fact about the
signature scheme, opaque too: both outcomes stand in the statement's conclusion. -/
theorem witness_BootTakesTheDescriptorAndTheImage :
    rma.pwr.trip = false ∧ rma.reg Reg.SEC_BOOT_STATUS = 0 ∧ rma.bootCode (bootOf board) = none ∧
      (after (.resetRelease (bootOf board)) rma).phase = 3 ∧
      (after (.resetRelease (bootOf board)) rma).fld Reg.SEC_BOOT_STATUS Fld.SEC_BOOT_STATUS_CODE = 0x10 ∧
      (after (.resetRelease (bootOf board)) rma).node = 77 ∧
      (after (.resetRelease (bootOf board)) rma).fld Reg.TL_CTRL Fld.TL_CTRL_WIN_GIB = 5 := by decide +kernel

/-- The device is in RECOVERY. -/
def recovering : State := up.setFld Reg.SEC_BOOT_STATUS Fld.SEC_BOOT_STATUS_PHASE 3

/-- A recovery of the Watermaster asked for it. -/
def restarting : State := { recovering with ecc := { recovering.ecc with recover := true } }

theorem witness_RecoveryRepeatsTheImageSteps :
    recovering.live = true ∧ recovering.phase = 3 ∧ recovering.ecc.recover = false ∧ restarting.ecc.recover = true ∧
      (after (.recoveryGo .travo (BitVec.ofNat 64 (2 ^ 32 + 7)) [] []) restarting).ecc.recover = true ∧
      (after (.recoveryGo .travo (BitVec.ofNat 64 (2 ^ 32 + 7)) [] []) recovering).fld Reg.SEC_BOOT_STATUS Fld.SEC_BOOT_STATUS_CODE = 0x10 ∧
      (after (.recoveryGo .travo 7 [] []) recovering).fld Reg.SEC_RECOVERY_CTRL Fld.SEC_RECOVERY_CTRL_LEN = 7 ∧ up.hears .mgmt = true ∧
      newFaults up (after (.recoveryGo .mgmt 7 [] []) up) = [(0x4014, 0x80, setupBase + Reg.SEC_RECOVERY_CTRL, 0)] := by decide +kernel

def imaged : State := up.setFld Reg.SEC_SVN Fld.SEC_SVN_IMAGE 5

theorem witness_SvnBurnRaisesTheFusedMinimum :
    imaged.hears .mgmt = true ∧ (after (.secSvnBurnWrite .mgmt 5) imaged).fuses.minSvn = 5 ∧ after (.secSvnBurnWrite .mgmt 6) imaged = imaged ∧
      (after (.secSvnBurnWrite .mgmt 5) imaged).fld Reg.SEC_SVN Fld.SEC_SVN_MIN = 5 ∧ after (.secSvnBurnWrite .mgmt 0) imaged = imaged ∧
      newFaults imaged (after (.secSvnBurnWrite .travo 5) imaged) = [(0x4014, 0x80, setupBase + Reg.SEC_SVN_BURN, 0)] := by decide +kernel

/-- Bytes placed in an empty memory. -/
def place (a : Nat) (bs : List Byte) : Memory := (bs.zipIdx.filter fun e => e.1 != 0).map fun e => (a + e.2, e.1)

/-- A frame in slot 15 of the mailbox (R522, R524), with its tag under the channel's key, which is 32 zeros (the tags come
from Python's hmac module); the channel is open as session 7. -/
def frameBody (type seq session : Nat) (payload : List Byte) : List Byte :=
  leBytes 4 type ++ leBytes 4 payload.length ++ leBytes 8 seq ++ leBytes 8 session ++ zeros 8 ++ payload
def mailWith (type seq session : Nat) (payload tag : List Byte) (s : State) : State :=
  { s with mem := place (15 * 0x8000) (leBytes 8 seq ++ zeros 56 ++ frameBody type seq session payload ++ tag) }
def channel : State := { up with mg := { up.mg with session := some ⟨7, zeros 32, zeros 32, 9, 0x1000⟩, lastIn := 4 } }
def mail (type : Nat) (payload : List Byte) (tag : Nat) (s : State) : State := mailWith type 5 7 payload (beBytes 32 tag) s
def setTag : Nat := 0x5e1489266eafd771054d0f014adecc7338fd0666bf5462e89217006bbe500e6c
def frames (s : State) : Nat := s.fld Reg.SEC_CNT_MGMT Fld.SEC_CNT_MGMT_FRAMES

/-- What a frame does: the word of its slot, the frames accepted, the last SEQ, and the details of the refusals recorded. -/
def handled (i : Instr) (s : State) : List Nat :=
  [memNat (after i s).mem (15 * 0x8000) 8, frames (after i s), (after i s).mg.lastIn] ++
    ((newFaults s (after i s)).filter fun e => e.2.1 == Code.mgmtRefused).map fun e => e.2.2.2

/-- Frames of another type, of another channel, with a bad tag, and of a SEQ that has been. -/
def badFrames : List State :=
  [mailWith 0x7F 5 7 [] (zeros 32) channel, mailWith 0x10 5 8 [] (zeros 32) channel, mailWith 0x10 5 7 [] (zeros 32) channel,
   mail 0x10 [] setTag { channel with mg := { channel.mg with lastIn := 5 } }]

theorem witness_FramesAreTakenAndChecked :
    (mail 0x10 [] setTag channel).mailSlot = some 15 ∧ (mail 0x10 [] setTag channel).ecc.recover = false ∧ (mail 0x10 [] setTag channel).marks = [] ∧
      handled (.set 9) (mail 0x10 [] setTag channel) = [0, 1, 5] ∧ after (.get 9) (mail 0x10 [] setTag channel) = mail 0x10 [] setTag channel ∧
      badFrames.map (handled (.set 9)) = [[0, 0, 4, 4 + 144], [0, 0, 4, 4 + 144], [0, 0, 4, 144], [0, 0, 5, 1 + 144]] := by decide +kernel

/-- The firmware has a piece of work: a wait for a slot whose answer has come, or has not; a fence, with an operation open or none. -/
def working (tasks : List MgTask) (got : Option (List Byte)) : State :=
  { up with mg := { up.mg with tasks := tasks, waits := true, got := got } }

theorem witness_FirmwareWorkGoesInOrder :
    up.mg.tasks = [] ∧ up.mgPump = up ∧ (working [.await 64] none).mgPump = working [.await 64] none ∧
      (working [.await 64] (some (zeros 8))).mgStep.map (fun s => s.mg.tasks) = some [] ∧
      (working [.fence] none).opsOpen mgmtUser = false ∧ (working [.fence] none).mgStep.map (fun s => s.mg.tasks) = some [] := by decide +kernel

/-- A HELLO of node 9 with a key of 32 zeros, whose hash the device knows or not; ENABLE is set or not. -/
def helloPayload : List Byte := leBytes 8 7 ++ zeros 56 ++ leBytes 2 9 ++ leBytes 8 0x1000
def greeted (on : Bool) (known : Bool) : State :=
  let s := mailWith 0x01 5 0 helloPayload [] (up.setFlag Reg.SEC_MGMT_CTRL Fld.SEC_MGMT_CTRL_ENABLE on)
  if known then s.setReg256 (Reg.SEC_MGR_HASH 0) (sha256 (zeros 32)) else s

theorem witness_HelloStartsAHandshake :
    (greeted true true).mailSlot = some 15 ∧ (after (.hello 9) (greeted false true)).mg = (greeted false true).mg ∧
      handled (.hello 9) (greeted true false) = [0, 0, 0, 2 + 144] ∧ handled (.hello 9) (greeted true true) = [0, 1, 5] ∧
      ((after (.hello 9) (greeted true true)).mg.shakes.map fun h => (h.id, h.node, h.off)) = [(7, 9, 0x1000)] ∧
      (after (.hello 9) (greeted true true)).mg.attest.length = 1 := by decide +kernel

/-- An ACCEPT for handshake 7, before its OFFER. (What makes a signature verify is opaque, log entry 25: no run shows the good case.) -/
def accepting : State :=
  let s := mailWith 0x03 5 7 [] [] up
  { s with mg := { s.mg with shakes := [⟨7, helloPayload, zeros 1184, [], 0, zeros 32, 9, 0x1000⟩] } }

theorem witness_AcceptOpensTheChannel :
    accepting.mailSlot = some 15 ∧ (accepting.mg.shakes.find? fun x => x.id == 7).map (fun h => h.offer) = some [] ∧
      handled (.accept 9) accepting = [0, 0, 0, 2 + 144] ∧ (after (.accept 9) accepting).mg = accepting.mg := by decide +kernel

/-- Two writes of one register, and one of a locked field. -/
def writes : State :=
  mail 0x10 (leBytes 8 (setupBase + (Reg.FWD_PREFIX0 255)) ++ leBytes 8 7 ++ leBytes 8 (setupBase + (Reg.FWD_PREFIX0 255)) ++ leBytes 8 9)
    0x746b0b686d626cdefeec10a88cf939f0acac0a4c6bedc905cf97aa1a47c982ef channel
def lockedWrite : State :=
  { mail 0x10 (leBytes 8 (setupBase + Reg.TL_CTRL) ++ leBytes 8 7) 0x25b33f1d5b575cf88f4b6d77500875578ce1dd78a0b8287e9856d97bc5a69c8c channel with lock := true }

theorem witness_SetAppliesItsWritesInOrder :
    writes.mailSlot = some 15 ∧ writes.lock = false ∧ plainRegister (Reg.FWD_PREFIX0 255) = true ∧ writes.absentInstance (Reg.FWD_PREFIX0 255) = false ∧
      (regDescAt (Reg.FWD_PREFIX0 255)).any (fun d => d.src.accepts .mgmt) = true ∧ (after (.set 9) writes).reg (Reg.FWD_PREFIX0 255) = 9 ∧
      handled (.set 9) writes = [0, 1, 5] ∧ lockedWrite.lock = true ∧ plainRegister Reg.TL_CTRL = true ∧
      (after (.set 9) lockedWrite).reg Reg.TL_CTRL = up.reg Reg.TL_CTRL ∧
      (newFaults lockedWrite (after (.set 9) lockedWrite)).head? = some (0x4014, 0x80, setupBase + Reg.TL_CTRL, 0) := by decide +kernel

def getting : State := mail 0x12 (leBytes 8 (setupBase + (Reg.FWD_PREFIX0 255))) 0xf38982c3d65c053df6f9d06741b39b21d5d76756854a1659bce3ecb7277d96dc channel

theorem witness_GetReadsSetup :
    handled (.get 9) getting = [0, 1, 5] ∧
      (after (.get 9) getting).mg.outSeq = 1 := by decide +kernel

/-- A report is asked for; one waits to be signed, and one for an OFFER. -/
def asked : State := mail 0x20 (zeros 32) 0xbf4e86c7e8210c157a31621e91ff67fe43bc12905875cde3cdc06a099d44e727 channel
def signing (offer : Bool) : State :=
  { channel with mg := { channel.mg with
      attest := [⟨if offer then sha256 (zeros 1216) else zeros 32, offer⟩], shakes := [⟨7, zeros 74, zeros 1184, [], 0, zeros 32, 9, 0x1000⟩] } }

theorem witness_ReportsAreQueuedAndSigned :
    asked.production = true ∧ handled (.attest 9) asked = [0, 1, 5] ∧ (after (.attest 9) asked).mg.attest = [⟨zeros 32, false⟩] ∧
      after .attestSigned channel = channel ∧ (after .attestSigned (signing false)).mg.attest = [] ∧
      (after .attestSigned (signing false)).fld Reg.SEC_ATTEST_CTRL Fld.SEC_ATTEST_CTRL_REPORTS = 1 ∧
      (after .attestSigned (signing true)).mg.attest = [] := by decide +kernel

/-- TIME_ANNOUNCE of 2 s under each time source; before fabric time is valid. -/
def announceTag : Nat := 0xbb6e6eb3c6dca926058c4aba161e94dd715e2fb036cddf2ccef2d66db8bb477f
def announcing (src : Nat) : State := mail 0x50 (leBytes 8 2000000000) announceTag (channel.setFld Reg.FT_CTRL Fld.FT_CTRL_SRC src)
def timeless : State :=
  { mail 0x50 (leBytes 8 2000000000) announceTag (channel.setFld Reg.FT_CTRL Fld.FT_CTRL_SRC 2) with tb := { State.reset.tb with acc := 0 } }

theorem witness_TimeAnnounceGivesTheTime :
    (after (.timeAnnounce 9) (announcing 0)).tb = (announcing 0).tb ∧ (after (.timeAnnounce 9) (announcing 1)).tb.announced = some 2000000000 ∧
      (announcing 2).timeValid = true ∧ (after (.timeAnnounce 9) (announcing 2)).tb = (announcing 2).tb ∧ timeless.timeValid = false ∧
      (after (.timeAnnounce 9) timeless).now = 2000000000 ∧ handled (.timeAnnounce 9) (announcing 1) = [0, 1, 5] := by decide +kernel

/-- START of job 1, with the fingerprint the device holds or another; the collective program is 8 bytes. -/
def starting (fp : List Byte) (tag : Nat) : State :=
  { mail 0x51 (leBytes 8 1 ++ fp) tag (channel.setFlag Reg.SEC_FP_CTRL Fld.SEC_FP_CTRL_VALID true) with boot := { up.boot with program := List.replicate 8 5 } }

def startGood : State := starting (zeros 32) 0x4e2095159df49b2397425f8b1129503b402eed8e5367e674adb3be2601dc7a29
def startBad : State := starting (1 :: zeros 31) 0x1ab002c06e5cd1aabd4c41af469a5ca51d095f0f8c565caefbc2bf557400ed97

/-- A job is loaded already; fabric time is not valid. -/
def startLoaded : State := (startGood.setFlag Reg.WM_SCHED Fld.WM_SCHED_RUN_VALID true).setFld Reg.WM_SCHED Fld.WM_SCHED_RUNNING 3
def startTimeless : State := { startGood with tb := State.reset.tb }

theorem witness_StartRunsTheJobOnAMatch :
    startLoaded.job = some 3 ∧ (after (.start 9) startLoaded).job = some 3 ∧ startTimeless.timeValid = false ∧
      (after (.start 9) startTimeless).job = none ∧
      (after (.start 9) startTimeless).flag Reg.SEC_FP_CTRL Fld.SEC_FP_CTRL_MATCHED = true ∧ startGood.sw.want = none ∧
      startGood.col.seals = [] ∧ startGood.fuses.clusters ≤ 32 ∧ startGood.job = none ∧
      startGood.sw.phase = .none ∧ (after (.start 9) startGood).job = some 1 ∧
      memNat (after (.start 9) startGood).mem (scratchAddr 31 0xFF8000) 8 = 0x0505050505050505 ∧
      (after (.start 9) startBad).job = none ∧
      (after (.start 9) startBad).flag Reg.SEC_FP_CTRL Fld.SEC_FP_CTRL_MATCHED = false ∧
      (after (.start 9) startGood).flag Reg.SEC_FP_CTRL Fld.SEC_FP_CTRL_MATCHED = true := by decide +kernel

/-- QUIESCE of job 1, which runs, with a cluster still busy or none; a switch in progress. -/
def runningJob : State :=
  let s := mail 0x30 (leBytes 8 1) 0xf8aee69a2988da590c1c55a32d08c60abbd12faf7802294c766f44a8b105abfc
    ((channel.setFlag Reg.WM_SCHED Fld.WM_SCHED_RUN_VALID true).setFld Reg.WM_SCHED Fld.WM_SCHED_RUNNING 1)
  { s with sw := { s.sw with stopped := false } }
def busyJob : State := runningJob.setCluster 31 { runningJob.cluster 31 with vecRun := some ⟨[], [], 0, 5, false, 0, 0⟩ }
def midSwitch : State := { runningJob with sw := { runningJob.sw with phase := .reloading } }

def tornAlready : State := { runningJob with mg := { runningJob.mg with tear := some ⟨2, .quiescing, 0⟩ } }

theorem witness_QuiesceStopsTheJob :
    (after (.quiesce 9) tornAlready).mg.tear = some ⟨2, .quiescing, 0⟩ ∧ (after (.quiesce 9) tornAlready).job = some 1 ∧
      runningJob.mg.tear = none ∧ runningJob.clustersIdle = true ∧ busyJob.clustersIdle = false ∧
      (after (.quiesce 9) runningJob).mg.tear = some ⟨1, .draining, 0⟩ ∧ (after (.quiesce 9) runningJob).fab.stopJob = some 1 ∧
      (after (.quiesce 9) runningJob).job = none ∧ (after (.quiesce 9) busyJob).mg.tear = some ⟨1, .quiescing, 0⟩ ∧
      (after (.quiesce 9) busyJob).sw.stopped = true ∧ (after (.quiesce 9) midSwitch).mg.tear = some ⟨1, .waiting, 0⟩ := by decide +kernel

/-- A teardown drains, with a byte in the Reservoir, in a scratchpad and in HBM, of which the manager names the first 4 KiB. -/
def tearing (ns : Nat) : State :=
  let s := ((channel.setReg (Reg.JT_WIN0 255) 7).setReg (Reg.RSV_REGION 255) 3).setFld Reg.FWD_IDENT Fld.FWD_IDENT_PTAG 6
  { s with mg := { s.mg with tear := some ⟨1, .draining, 0⟩ }, clock := { s.clock with elapsedNs := ns },
           mem := [(4095, 7), (4096, 7), (rsvBase + 5, 7), (scratchAddr 31 9, 7)] }

theorem witness_TeardownScrubsAndUntags :
    0 < (tearing 0).fld Reg.JT_CTRL Fld.JT_CTRL_T_DEAD ∧ after (.teardownDrainEnd []) (tearing 0) = tearing 0 ∧
      (tearing (10 ^ 9)).fld Reg.JT_CTRL Fld.JT_CTRL_T_DEAD * 1000 ≤ 10 ^ 9 ∧
      (after (.teardownDrainEnd [(0, 4096)]) (tearing (10 ^ 9))).mem = [(4096, 7)] ∧
      (after (.teardownDrainEnd [(0, 4096)]) (tearing (10 ^ 9))).mg.tear = none ∧
      (after (.teardownDrainEnd [(0, 4096)]) (tearing (10 ^ 9))).reg (Reg.JT_WIN0 255) = 0 ∧
      ((after (.teardownDrainEnd [(0, 4096)]) (tearing (10 ^ 9))).region 255).type = 0 ∧
      (after (.teardownDrainEnd [(0, 4096)]) (tearing (10 ^ 9))).fld Reg.FWD_IDENT Fld.FWD_IDENT_PTAG = 0 ∧
      (after (.teardownDrainEnd [(0, 4096)]) (tearing (10 ^ 9))).mg.outSeq = 1 := by decide +kernel

/-- A LAUNCH of image 3 with `chunks` chunks of 64 KiB to 0x100000, control area at 0x1000000, from parent 4. -/
def launching (chunks tag : Nat) : State :=
  mail 0x40 (leBytes 8 3 ++ leBytes 8 chunks ++ leBytes 8 16 ++ zeros 32 ++ leBytes 8 0x100000 ++ leBytes 8 0x1000000 ++ leBytes 8 4 ++ zeros 72) tag channel

theorem witness_LaunchIsTaken :
    handled (.launch 9) (launching 65536 0x6f718544b3334247d10b6db08d86d78250e656901b97c4c1e38c9457f88c47f2) = [0, 1, 5] ∧
      ((after (.launch 9) (launching 65536 0x6f718544b3334247d10b6db08d86d78250e656901b97c4c1e38c9457f88c47f2)).mg.launch.map fun l => (l.id, l.chunks, l.dest, l.ctrl, l.parent)) = some (3, 65536, 0x100000, 0x1000000, 4) ∧
      (after (.launch 9) (launching 65537 0x7ff30cc48e8677a1c09d644fdab1f4bd8f5a17fa70f12cb0e15f24d586cd58c9)).mg.launch = none ∧ (after (.launch 9) (launching 0 0x20ccbc5d1dc5c028283fe1d0f5d2d5a4efb005b7c733dab94bec5b386e5139a8)).mg.launch = none := by decide +kernel

/-- Image 3 of two chunks at its root (another node's place among its parent's children is a free value), of which the second is announced, empty, with a digest that is right or wrong; or held already. -/
def image3 (held : List Nat) : Launch := ⟨3, 2, 8, zeros 32, 0x100000, 0x1000000, 0, [8], 100, true, held, []⟩
def noticed (digest : List Byte) (held : List Nat) : State :=
  { channel with mem := place (0x1000000 + 32) digest ++ place (0x1200000 + 64) (leBytes 8 3 ++ leBytes 4 1 ++ zeros 20 ++ digest),
                 mg := { channel.mg with launch := some (image3 held) } }

theorem witness_NoticesAreVerified :
    (noticed (sha256 []) []).mg.launch = some (image3 []) ∧
      ((noticed (sha256 []) []).readLocal mgmtUser ((image3 []).noticeAddr 1) 64).1 = 0 ∧
      ((after (.launchNotice 1) (noticed (sha256 []) [0])).mg.launch.map fun l => l.have_) = some [0, 1] ∧
      memByte (after (.launchNotice 1) (noticed (sha256 []) [0])).mem ((image3 []).haveAddr) = 2 ∧
      (after (.launchNotice 1) (noticed (sha256 []) [0])).flag Reg.SEC_LAUNCH_STATUS Fld.SEC_LAUNCH_STATUS_COMMITTED = true ∧
      ((after (.launchNotice 1) (noticed (zeros 32) [])).mg.launch.map fun l => l.have_) = some [] ∧
      ((newFaults (noticed (zeros 32) []) (after (.launchNotice 1) (noticed (zeros 32) []))).map fun e => (e.2.1, e.2.2.2)) =
        [(Code.mgmtRefused, 5)] ∧
      (after (.launchNotice 1) (noticed (sha256 []) [1])).mem = (noticed (sha256 []) [1]).mem := by decide +kernel

/-- The digest list, of two zero digests, is announced, with a digest that is right or wrong; the chunks held already. -/
def listed (digest : List Byte) (ok : Bool) (held : List Nat) : State :=
  { channel with mem := place (0x1200000 : Nat) (leBytes 8 3 ++ leBytes 4 listIndex ++ zeros 20 ++ digest),
                 mg := { channel.mg with launch := some { image3 held with digest := sha256 (zeros 64), listOk := ok } } }
def listTaken (digest : List Byte) (ok : Bool) (held : List Nat) : State := after (.launchNotice listIndex) (listed digest ok held)

theorem witness_ListNoticesAreVerified :
    channel.mg.launch = none ∧ after (.launchNotice listIndex) channel = channel ∧ (image3 []).noticeAddr 0 = 0x1200000 ∧
      ((listed (sha256 (zeros 64)) false []).readLocal mgmtUser ((image3 []).noticeAddr 0) 64).1 = 0 ∧
      ((listed (sha256 (zeros 64)) false []).readLocal mgmtUser (image3 []).ctrl 64).2.1 = zeros 64 ∧
      ((listTaken (sha256 (zeros 64)) false []).mg.launch.map fun l => l.listOk) = some true ∧
      (listTaken (sha256 (zeros 64)) false []).flag Reg.SEC_LAUNCH_STATUS Fld.SEC_LAUNCH_STATUS_COMMITTED = false ∧
      (listTaken (sha256 (zeros 64)) false [0, 1]).flag Reg.SEC_LAUNCH_STATUS Fld.SEC_LAUNCH_STATUS_COMMITTED = true ∧
      ((listTaken (zeros 32) false []).mg.launch.map fun l => l.listOk) = some false ∧
      ((newFaults (listed (zeros 32) false []) (listTaken (zeros 32) false [])).map fun e => (e.2.1, e.2.2.2)) = [(Code.mgmtRefused, 5)] ∧
      listTaken (sha256 (zeros 64)) true [0] = listed (sha256 (zeros 64)) true [0] := by decide +kernel

/-- Chunk 1 has been announced to child 8 some time ago, as often as `n` says. -/
def unacked (ns n : Nat) : State :=
  { channel with mg := { channel.mg with launch := some { image3 [0, 1] with sent := [(65536 * 8 + 1, (0, n))] } },
                 clock := { channel.clock with elapsedNs := ns } }

theorem witness_MissingAcksAreResentThenReported :
    after (.launchAckTimeout 8 1) channel = channel ∧ after (.launchAckTimeout 8 0) (unacked 100000 0) = unacked 100000 0 ∧
      (unacked 100000 0).childAcked (image3 [0, 1]) 8 1 = false ∧ after (.launchAckTimeout 8 1) (unacked 99999 0) = unacked 99999 0 ∧
      ((after (.launchAckTimeout 8 1) (unacked 100000 0)).mg.launch.map fun l => l.sent) = some [(65536 * 8 + 1, (0, 1))] ∧
      after (.launchAckTimeout 8 1) (unacked 199999 1) = unacked 199999 1 ∧
      ((after (.launchAckTimeout 8 1) (unacked 200000 1)).mg.launch.map fun l => l.sent) = some [(65536 * 8 + 1, (0, 2))] ∧
      (after (.launchAckTimeout 8 1) (unacked 200000 1)).mg.outSeq = 1 ∧ after (.launchAckTimeout 8 1) (unacked 200000 2) = unacked 200000 2 := by
  decide +kernel

/-- A frame about image `id` and node 12. -/
def about (type id tag : Nat) : State :=
  mail type (leBytes 8 id ++ leBytes 8 12) tag { channel with mg := { channel.mg with launch := some (image3 [0]) } }

def about41_3 : State := about 0x41 3 0xe20606469d5e0bd4ec066a131e342b666a0ea0cb6aef15c92417cf1c6c1a77d5
def about41_4 : State := about 0x41 4 0x051a78a25327ac5261f5d527dbf6c8c393c96de4f6c40c43d515dc1c2184761a
def about42_3 : State := about 0x42 3 0x33b32b0bf05829aa72a287821403303d4a859536e8f579f487953f81f6999074
def about45_3 : State := about 0x45 3 0xc6be5475bab410bebdf16e1f5d8bf8f71b1e951bf87305e33480752ccd675abc

theorem witness_OrphansMoveAndLaunchesAbort :
    about41_3.mg.launch = some (image3 [0]) ∧ ((after (.launchChild 9) about41_3).mg.launch.map fun l => l.children) = some [8, 12] ∧
      (after (.launchChild 9) about41_4).mg.launch = some (image3 [0]) ∧
      ((after (.reparent 9) about42_3).mg.launch.map fun l => l.parent) = some 12 ∧
      (after (.launchAbort 9) about45_3).mg.launch = none ∧ handled (.launchChild 9) about41_4 = [0, 1, 5] := by decide +kernel

-- Power, temperature and the sideband --------------------------------------------------------------------------------

/-- The clock at a step with a temperature; a step up in sight: neither demand for 10 ms. -/
def powered (step tj : Nat) : State :=
  (up.setFld Reg.PWR_STATUS Fld.PWR_STATUS_STEP step).setFld Reg.PWR_STATUS Fld.PWR_STATUS_TJ_MAX tj
def cooled : State :=
  let s := powered 2 20
  { s with pwr := { s.pwr with cool := some 0, low := some 0 }, clock := { s.clock with elapsedNs := 10000000 } }
def governed (s : State) (watts : Nat) : State := after (.governorInterval 700 10 701 11 watts) s

/-- The new step, and what the clock's records say. -/
def stepOf (s t : State) : Nat × List (Nat × Nat) :=
  (t.fld Reg.PWR_STATUS Fld.PWR_STATUS_STEP, (newFaults s t).map fun e => (e.1, e.2.1))

theorem witness_GovernorChoosesTheHighestDemand :
    (powered 1 20).live = true ∧ (powered 1 20).phase = 4 ∧ State.reset.phase < 4 ∧
      (governed (powered 1 20) 0).fld (Reg.PWR_RAIL 1) Fld.PWR_RAIL_READ_MV = 701 ∧ stepOf (powered 1 20) (governed (powered 1 20) 0) = (1, []) ∧
      (governed (powered 1 104) 0).fld Reg.PWR_STATUS Fld.PWR_STATUS_STEP = 2 ∧ (governed (powered 1 105) 0).fld Reg.PWR_STATUS Fld.PWR_STATUS_STEP = 5 ∧
      (governed (powered 1 20) 65535).fld Reg.PWR_STATUS Fld.PWR_STATUS_STEP = 2 ∧
      (governed (powered 1 105) 0).fld Reg.PWR_CNT Fld.PWR_CNT_THERMAL = 1 ∧ (governed (powered 1 20) 65535).fld Reg.PWR_CNT Fld.PWR_CNT_CAP = 1 ∧
      (governed cooled 0).pwr.stepUp = some 1 ∧ (governed cooled 0).fld (Reg.PWR_RAIL 0) Fld.PWR_RAIL_SET_MV = 690 := by decide +kernel

def raising : State := { cooled with pwr := { cooled.pwr with stepUp := some 1 } }
def changing : State := { cooled with pwr := { cooled.pwr with clockAt := some (25000, 1) } }

theorem witness_StepUpWaitsForTheRegulator :
    raising.pwr.stepUp = some 1 ∧ (after .voltageWriteDone raising).pwr.clockAt = some (25000, 1) ∧ after .voltageWriteDone cooled = cooled ∧
      (after (.ftTick 25000) changing).fld Reg.PWR_STATUS Fld.PWR_STATUS_STEP = 1 ∧
      (after (.ftTick 24999) changing).fld Reg.PWR_STATUS Fld.PWR_STATUS_STEP = 2 := by decide +kernel

/-- Two failures of an operation, and two bad readings of pair 10, have gone before. -/
def failing (n : Nat) : State := { up with pwr := { up.pwr with avsFails := [(4, n)], sense := [(10, n)] } }
def readings (a m : Nat) : List (Nat × Nat) := List.replicate 10 (700, 750) ++ [(a, m)]

theorem witness_FaultsOfSupplyHoldTheSafeClock :
    (after .railFault up).flag Reg.PWR_STATUS Fld.PWR_STATUS_SAFE_HOLD = true ∧ (tblGetD 4 0 (failing 3).pwr.avsFails) = 3 ∧
      (after (.avsbusError 1 0) (failing 3)).flag Reg.PWR_STATUS Fld.PWR_STATUS_SAFE_HOLD = true ∧
      (after (.avsbusError 1 0) (failing 2)).fld Reg.PWR_CNT Fld.PWR_CNT_AVS_ERR = 1 ∧ tblGetD 4 0 (after (.avsbusError 1 0) (failing 2)).pwr.avsFails = 3 ∧
      (readings 700 751).length = 11 ∧ (readings 700 751)[10]? = some (700, 751) ∧ (after (.senseCheck (readings 700 751)) (failing 2)).reg Reg.PWR_SENSE = 2 ^ 10 ∧
      (after (.senseCheck (readings 100 751)) (failing 2)).reg Reg.PWR_SENSE = 2 ^ 21 ∧
      tblGetD 10 0 (after (.senseCheck (readings 700 751)) (failing 1)).pwr.sense = 2 ∧
      tblGetD 10 0 (after (.senseCheck (readings 700 750)) (failing 1)).pwr.sense = 0 := by decide +kernel

theorem witness_TemperatureIsShownAndTrips :
    after (.tempRefresh []) up = up ∧
      (after (.tempRefresh [(3, 114), (5, 70)]) (portAt 1 6)).fld Reg.PWR_STATUS Fld.PWR_STATUS_TJ_MAX = 114 ∧
      (after (.tempRefresh [(3, 114), (5, 70)]) (portAt 1 6)).fld Reg.PWR_STATUS Fld.PWR_STATUS_TJ_DIE = 3 ∧
      (after (.tempRefresh [(3, 114), (5, 70)]) (portAt 1 6)).live = true ∧ (after (.tempRefresh [(5, 70), (3, 115)]) (portAt 1 6)).live = false ∧
      (after (.tempRefresh [(5, 70), (3, 115)]) (portAt 1 6)).portStage 15 = 0 := by decide +kernel

theorem witness_PowerResetKeepsOnlyTheFuses :
    let t := after (.powerReset false) (after (.tempRefresh [(3, 115)]) (after (.secSvnBurnWrite .mgmt 5) (up.setFld Reg.SEC_SVN Fld.SEC_SVN_IMAGE 5)))
    t.fuses.minSvn = 5 ∧ t.pwr.trip = true ∧ t.mem = [] ∧ t.live = false ∧ (after (.powerReset true) t).pwr.trip = false := by decide +kernel

/-- The sideband at the second of four addresses, before 5 ms have passed and after, with SMBALERT_N asserted. -/
def sideband (ns : Nat) : State :=
  { powered 2 20 with pwr := { up.pwr with smbAddr := 1, alert := true }, clock := { up.clock with elapsedNs := ns } }

theorem witness_SidebandServesAfterFiveMilliseconds :
    (sideband 5000000).pwr.resetLow = false ∧ (sideband 5000000).smbServes = true ∧ (sideband 4999999).smbServes = false ∧
      ((sideband 5000000).smbReads.map fun e => (after e.2.1 (sideband 5000000)).out.length) = (sideband 5000000).smbReads.map (fun _ => 1) ∧
      ((sideband 4999999).smbReads.map fun e => (after e.2.1 (sideband 4999999)).out) = (sideband 4999999).smbReads.map (fun _ => [.smbusNack]) ∧
      (after (.bmcCapWWrite 500 true) (sideband 5000000)).fld Reg.PWR_CTRL Fld.PWR_CTRL_BMC_CAP_W = 500 ∧
      (after (.bmcCapWWrite 500 false) (sideband 5000000)).out = [.smbusNack] ∧
      (after .alertResponse (sideband 5000000)).out = [.smbus [0xC2, BitVec.ofNat 8 (pec [0x19, 0xC2])]] ∧
      (after .alertResponse (sideband 5000000)).pwr.alert = false ∧ (after .alertResponse (sideband 4999999)).out = [.smbusNack] := by decide +kernel

-- What every step keeps ----------------------------------------------------------------------------------------------

/-- A burn of the fused minimum is at the front of the queue. -/
def burning : State := { up.setFld Reg.SEC_SVN Fld.SEC_SVN_IMAGE 5 with pending := [.secSvnBurnWrite .mgmt 5, .hbmAccess ⟨0, .link, 0, true, 32, 2 ^ 32 - 1, List.replicate 32 7, false⟩ [] 0] }

/-- The state a step answers. -/
def stepped (s : State) : State :=
  match step s with
  | .next t => t
  | _ => s

theorem witness_FusesArePermanent :
    (stepped burning).fuses.minSvn = 5 ∧ (stepped burning).pending.length = 1 ∧ (stepped (stepped burning)).fuses.minSvn = 5 := by decide +kernel

theorem witness_WhatLastsUntilReset :
    burning.timeValid = true ∧ (stepped burning).timeValid = true ∧ (stepped { up with lock := true, pending := [.ftTick 1] }).lock = true ∧
      (stepped { up with pwr := { up.pwr with trip := true }, pending := [.ftTick 1] }).pwr.trip = true := by decide +kernel

theorem witness_TripLastsUntilTheRailsAreRemoved :
    { up with pwr := { up.pwr with trip := true } }.pwr.trip = true ∧
      (after (.powerReset false) { up with pwr := { up.pwr with trip := true } }).pwr.trip = true ∧
      (after (.ftTick 1) { up with pwr := { up.pwr with trip := true } }).live = false := by decide +kernel

theorem witness_MemoryStaysCanonical :
    Memory.wf burning.mem = true ∧ Memory.wf burning.tl.cmem = true ∧ (stepped (stepped burning)).mem.length = 32 ∧
      Memory.wf (stepped (stepped burning)).mem = true := by decide +kernel

theorem witness_CommandsKeepToTheirParts :
    Part.mem ∉ scopeOf (.ftTick 1) ∧ (after (.ftTick 1) up).mem = up.mem ∧ (after (.ftTick 1) up).pending = up.pending := by decide +kernel

end Sys2Proof.Tests
end

section
namespace Sys2Proof.Machine

-- The state after reset ----------------------------------------------------------------------------------------------

/-- A sparse table gives nothing at a key that none of its entries has. -/
theorem tblFind_eq_none {α : Type} {k : Nat} {t : List (Nat × α)} (h : ∀ e ∈ t, e.1 ≠ k) : tblFind k t = none := by
  induction t with
  | nil => rfl
  | cons e t ih =>
    rw [tblFind_cons, if_neg (h e List.mem_cons_self), ih fun e he => h e (List.mem_cons_of_mem _ he)]

/-- The word of TOP_DEVICE_ID that shows the fuses (R45). -/
def Fuses.deviceId (f : Fuses) : Nat := f.clusters % 256 + f.letter % 16 * 2 ^ 8 + f.digit % 16 * 2 ^ 12 + f.part % 65536 * 2 ^ 16

/-- The registers that take a word from the fuses or the regulator at reset, with that word (R45, R534, R536, R551). -/
def Fuses.resetWords (f : Fuses) : List (Nat × Word) :=
  [(Reg.TOP_DEVICE_ID, BitVec.ofNat 64 f.deviceId), (Reg.FWD_OUI, BitVec.ofNat 64 (f.oui % 2 ^ 24)),
    (Reg.SEC_LIFECYCLE, BitVec.ofNat 64 (f.lifecycle % 4)), (Reg.SEC_SVN, BitVec.ofNat 64 (f.minSvn % 2 ^ 32)), (Reg.PWR_RAIL 0, 720),
    (Reg.PWR_RAIL 1, 800)]

theorem State.atReset_regs (f : Fuses) : (State.atReset f).regs = f.resetWords.filter fun e => e.2 != 0 := rfl

theorem State.atReset_reg_of_notMem (f : Fuses) {a : Nat}
    (h : a ∉ [Reg.TOP_DEVICE_ID, Reg.FWD_OUI, Reg.SEC_LIFECYCLE, Reg.SEC_SVN, Reg.PWR_RAIL 0, Reg.PWR_RAIL 1]) :
    (State.atReset f).reg a = regResetNat a := by
  refine State.reg_none (tblFind_eq_none fun e he hea => h ?_)
  have hmem : e.1 ∈ f.resetWords.map Prod.fst := List.mem_map_of_mem (List.mem_filter.mp he).1
  rw [hea] at hmem
  exact hmem

/-- A word of zero is not listed, and TOP_DEVICE_ID's reset word is zero too. -/
theorem State.atReset_reg_deviceId (f : Fuses) : (State.atReset f).reg Reg.TOP_DEVICE_ID = f.deviceId % 2 ^ 64 := by
  rw [← BitVec.toNat_ofNat]
  by_cases hz : BitVec.ofNat 64 f.deviceId = 0
  · rw [hz, State.reg_none]
    · decide
    · rw [State.atReset_regs, Fuses.resetWords, List.filter_cons_of_neg (by simp [hz])]
      refine tblFind_eq_none fun e he hid => ?_
      have hmem : e.1 ∈ [Reg.FWD_OUI, Reg.SEC_LIFECYCLE, Reg.SEC_SVN, Reg.PWR_RAIL 0, Reg.PWR_RAIL 1] :=
        List.mem_map_of_mem (List.mem_filter.mp he).1
      rw [hid] at hmem
      exact absurd hmem (by decide)
  · refine State.reg_some ?_
    rw [State.atReset_regs, Fuses.resetWords, List.filter_cons_of_pos (by simpa using hz), tblFind_cons, if_pos rfl]

theorem State.atReset_clusterPresent (f : Fuses) {n : Nat} (hn : n < 32) :
    (State.atReset f).clusterPresent n = true ↔ n < f.clusters := by
  have hbit : (State.atReset f).clusterPresent n = (decide (n < 32) && (2 ^ f.clusters - 1).testBit n) := BitVec.getLsbD_ofNat ..
  simp [hbit, hn]

theorem State.atReset_phase (f : Fuses) : (State.atReset f).phase = 0 := by
  have hreg : (State.atReset f).reg Reg.SEC_BOOT_STATUS = 0 :=
    (State.atReset_reg_of_notMem f (by decide)).trans (by decide)
  rw [State.phase, State.fld, hreg]
  rfl

/-- Settles O5: the few registers reset takes from the fuses are listed, so every other one reads its reset word; the rest of the state
after reset is as written. -/
theorem resetLeavesTheStatedValues : Obligations.ResetLeavesTheStatedValues := by
  unfold Obligations.ResetLeavesTheStatedValues
  constructor
  · intro f
    refine ⟨fun a => State.atReset_reg_of_notMem f, ?_, ?_, ?_, ?_, fun n => State.atReset_clusterPresent f,
      rfl, rfl, rfl, State.atReset_phase f, fun _ => rfl, fun _ => rfl, rfl, rfl, rfl, rfl, rfl⟩
    all_goals
      simp only [State.fld, State.atReset_reg_deviceId, Fuses.deviceId, bitsOf, Nat.shiftRight_eq_div_pow,
        Fld.TOP_DEVICE_ID_ENABLED_CLUSTERS, Fld.TOP_DEVICE_ID_STEPPING_LETTER, Fld.TOP_DEVICE_ID_STEPPING_DIGIT,
        Fld.TOP_DEVICE_ID_PART_CODE]
      omega
  · intro f
    exact ⟨Memory.nil_wf, Memory.nil_wf, rfl, rfl, rfl, rfl, rfl⟩

end Sys2Proof.Machine
end

section
namespace Sys2Proof.Machine

/-- Both memories of a state, local and companion, are in the canonical form (log entry 2). -/
structure State.Canonical (s : State) : Prop where
  mem : Memory.wf s.mem = true
  cmem : Memory.wf s.tl.cmem = true

namespace State.Canonical
variable {s : State}

/-- The state an answer `r` carries is canonical. The projection stays a name of its own here: where an answer is a `match` on what a read
returned, comparing the projections would evaluate the read. -/
def Yields {α : Type} (out : α → State) (r : α) : Prop := (out r).Canonical

-- How a proof follows a definition -------------------------------------------------------------------------------------

/-- A record update that gives neither memory anew keeps both canonical. Stated for the updated record written out, so that a proof
meets the update as it stands in a definition and nothing has to be evaluated. -/
theorem elsewhere (h : s.Canonical) {fuses clock tb lock present regs marks ecc rsv banks chans hg fab ports cores cls col sw boot pwr mg
      flt out free pending} :
    (State.mk fuses clock tb lock present regs s.mem marks ecc rsv banks chans hg fab ports cores cls col s.tl sw boot pwr mg flt out free
      pending).Canonical :=
  ⟨h.mem, h.cmem⟩

/-- The same for an update of Travo Link's part that leaves companion memory. -/
theorem elsewhereLink (h : s.Canonical) {fuses clock tb lock present regs marks ecc rsv banks chans hg fab ports cores cls col sw boot pwr
      mg flt out free pending lines writes reads lineReqs nextTxn txSeq rxSeq sent rxFails txFails rings marked requests accepts grants steps
      lastRing measureS measureP stepStart kv winStop} :
    (State.mk fuses clock tb lock present regs s.mem marks ecc rsv banks chans hg fab ports cores cls col
      (TlState.mk s.tl.cmem lines writes reads lineReqs nextTxn txSeq rxSeq sent rxFails txFails rings marked requests accepts grants steps
        lastRing measureS measureP stepStart kv winStop)
      sw boot pwr mg flt out free pending).Canonical :=
  ⟨h.mem, h.cmem⟩

/-- An update that gives local memory anew, in canonical form. -/
theorem withMem (h : s.Canonical) {m : Memory} (hm : Memory.wf m = true) {fuses clock tb lock present regs marks ecc rsv banks chans hg fab
      ports cores cls col sw boot pwr mg flt out free pending} :
    (State.mk fuses clock tb lock present regs m marks ecc rsv banks chans hg fab ports cores cls col s.tl sw boot pwr mg flt out free
      pending).Canonical :=
  ⟨hm, h.cmem⟩

/-- An update that gives companion memory anew, in canonical form. -/
theorem withLines (h : s.Canonical) {m : Memory} (hm : Memory.wf m = true) {fuses clock tb lock present regs marks ecc rsv banks chans hg
      fab ports cores cls col sw boot pwr mg flt out free pending lines writes reads lineReqs nextTxn txSeq rxSeq sent rxFails txFails rings
      marked requests accepts grants steps lastRing measureS measureP stepStart kv winStop} :
    (State.mk fuses clock tb lock present regs s.mem marks ecc rsv banks chans hg fab ports cores cls col
      (TlState.mk m lines writes reads lineReqs nextTxn txSeq rxSeq sent rxFails txFails rings marked requests accepts grants steps
        lastRing measureS measureP stepStart kv winStop)
      sw boot pwr mg flt out free pending).Canonical :=
  ⟨h.mem, hm⟩

section
variable {α β γ : Type} {c : Prop} [Decidable c] {t : State}

/-- To show something of a function, show it of the function's body. The proofs below use it in place of `unfold` where the body matches on
what a read returned: the equation `unfold` uses compares two such matches, and the kernel would evaluate the read at an address made of
large constants. Where a later step would compare them too, the proof names the function that reads (`∃ f, f = @State.readLocal`), so that
nothing can evaluate it. -/
theorem of_def {f g : α} (P : α → Prop) (e : f = g) (h : P g) : P f := e ▸ h

theorem ite {a b : State} (ha : a.Canonical) (hb : b.Canonical) : (if c then a else b).Canonical := by
  split
  · exact ha
  · exact hb

/-- A change made only when a condition holds. -/
theorem changeIf {a : State} (h : t.Canonical) (ha : t.Canonical → a.Canonical) : (if c then a else t).Canonical := ite (ha h) h

/-- A change made unless a condition holds. -/
theorem changeUnless {a : State} (h : t.Canonical) (ha : t.Canonical → a.Canonical) : (if c then t else a).Canonical := ite h (ha h)

theorem iteSnd {a b : α × State} (ha : a.2.Canonical) (hb : b.2.Canonical) : (if c then a else b).2.Canonical := by
  split
  · exact ha
  · exact hb

theorem iteThird {a b : α × β × State} (ha : a.2.2.Canonical) (hb : b.2.2.Canonical) : (if c then a else b).2.2.Canonical := by
  split
  · exact ha
  · exact hb

theorem iteFourth {a b : α × β × γ × State} (ha : a.2.2.2.Canonical) (hb : b.2.2.2.Canonical) :
    (if c then a else b).2.2.2.Canonical := by
  split
  · exact ha
  · exact hb

theorem iteYields {out : α → State} {a b : α} (ha : Yields out a) (hb : Yields out b) : Yields out (if c then a else b) := by
  split
  · exact ha
  · exact hb

theorem of_snd {p : α × State} {a : α} (h : p.2.Canonical) (e : p = (a, t)) : t.Canonical := by
  rw [e] at h
  exact h

theorem of_third {p : α × β × State} {a : α} {b : β} (h : p.2.2.Canonical) (e : p = (a, b, t)) : t.Canonical := by
  rw [e] at h
  exact h

theorem of_fourth {p : α × β × γ × State} {a : α} {b : β} {c : γ} (h : p.2.2.2.Canonical) (e : p = (a, b, c, t)) : t.Canonical := by
  rw [e] at h
  exact h

theorem yieldsSnd {a : α} (h : t.Canonical) : Yields (·.2) (a, t) := h

theorem foldl {f : State → α → State} {l : List α} (h : s.Canonical) (hf : ∀ s x, s.Canonical → (f s x).Canonical) :
    (l.foldl f s).Canonical :=
  List.foldlRecOn l f h fun s h x _ => hf s x h

theorem foldlSnd {f : β × State → α → β × State} {l : List α} {r : β × State} (h : r.2.Canonical)
    (hf : ∀ r x, r.2.Canonical → (f r x).2.Canonical) : (l.foldl f r).2.Canonical :=
  List.foldlRecOn (motive := fun r => r.2.Canonical) l f h fun r h x _ => hf r x h

theorem foldlThird {f : β × γ × State → α → β × γ × State} {l : List α} {r : β × γ × State} (h : r.2.2.Canonical)
    (hf : ∀ r x, r.2.2.Canonical → (f r x).2.2.Canonical) : (l.foldl f r).2.2.Canonical :=
  List.foldlRecOn (motive := fun r => r.2.2.Canonical) l f h fun r h x _ => hf r x h

theorem foldlYields {out : β → State} {f : β → α → β} {l : List α} {r : β} (h : Yields out r)
    (hf : ∀ r x, (out r).Canonical → Yields out (f r x)) : Yields out (l.foldl f r) :=
  List.foldlRecOn l f h fun r h x _ => hf r x h
end

-- The functions of Machine/Ops ----------------------------------------------------------------------------------------

theorem setReg {a v} (h : s.Canonical) : (s.setReg a v).Canonical := elsewhere h

theorem setFld {a f v} (h : s.Canonical) : (s.setFld a f v).Canonical := h.setReg

theorem setFlag {a f b} (h : s.Canonical) : (s.setFlag a f b).Canonical := h.setFld

theorem countSat {a f n} (h : s.Canonical) : (s.countSat a f n).Canonical := h.setFld

theorem countWrap {a f n} (h : s.Canonical) : (s.countWrap a f n).Canonical := h.setFld

theorem emit {o} (h : s.Canonical) : (s.emit o).Canonical := elsewhere h

theorem takeFree {k} (h : s.Canonical) : (s.takeFree k).2.Canonical := elsewhere h

theorem setCore {i c} (h : s.Canonical) : (s.setCore i c).Canonical := elsewhere h

theorem onCore {i f} (h : s.Canonical) : (s.onCore i f).Canonical := h.setCore

theorem loadsReturn {n val} (h : s.Canonical) : (s.loadsReturn n val).Canonical := foldl h fun _ _ h => h.onCore

theorem faultFor {job unit code addr detail} (h : s.Canonical) : (s.faultFor job unit code addr detail).Canonical := elsewhere h

theorem fault {unit code addr detail} (h : s.Canonical) : (s.fault unit code addr detail).Canonical := h.faultFor

theorem faultOncePerWindow {key unit code addr detail} (h : s.Canonical) : (s.faultOncePerWindow key unit code addr detail).Canonical :=
  ite h (fault (elsewhere h))

theorem unmapped {who a k} (h : s.Canonical) : (s.unmapped who a k).Canonical := h.fault

theorem sendFlit {f} (h : s.Canonical) : (s.sendFlit f).Canonical := ite (emit (elsewhereLink h)) h

theorem requestLine {line own whole} (h : s.Canonical) : (s.requestLine line own whole).Canonical :=
  ite h (sendFlit (elsewhereLink h))

theorem performWrites : ∀ {ws blocked} {s : State}, s.Canonical → (performWrites ws blocked s).Canonical
  | [], _, _, h => h
  | _ :: _, _, _, h =>
    ite (performWrites ⟨h.mem, memPutBytes_wf _ _ h.cmem⟩)
      (performWrites (ite (elsewhereLink h) (requestLine (elsewhereLink h))))

theorem drainWrites (h : s.Canonical) : s.drainWrites.Canonical := performWrites (elsewhereLink h)

theorem companionWrite {who a bs} (h : s.Canonical) : (s.companionWrite who a bs).Canonical :=
  ite (drainWrites (elsewhereLink h)) h.unmapped

theorem setRing {r x} (h : s.Canonical) : (s.setRing r x).Canonical := elsewhereLink h

theorem ringAppend {r entry} (h : s.Canonical) : (s.ringAppend r entry).Canonical := h.companionWrite.setRing

theorem ringWriteBack {r ptr} (h : s.Canonical) : (s.ringWriteBack r ptr).Canonical := h.companionWrite

theorem eventToRing {r} (h : s.Canonical) : (s.eventToRing r).Canonical := h.ringAppend.ringWriteBack

theorem writeRecord {r} (h : s.Canonical) : (s.writeRecord r).Canonical :=
  ite (eventToRing (elsewhere h)) (ite (elsewhere h) (elsewhere h))

theorem writeFaults (h : s.Canonical) : s.writeFaults.Canonical := foldl (elsewhere h) fun _ _ h => h.writeRecord

theorem setupLocked {a} (h : s.Canonical) : (s.setupLocked a).Canonical := h.fault

-- The functions of Machine/PortBase -----------------------------------------------------------------------------------

theorem setPort {p x} (h : s.Canonical) : (s.setPort p x).Canonical := elsewhere h

theorem onPort {p f} (h : s.Canonical) : (s.onPort p f).Canonical := h.setPort

theorem setStatus {p f v} (h : s.Canonical) : (s.setStatus p f v).Canonical := foldl h fun _ _ h => h.setFld

theorem setLanes {p n} (h : s.Canonical) : (s.setLanes p n).Canonical := h.setStatus.setStatus

theorem setLaneMask {p f v} (h : s.Canonical) : (s.setLaneMask p f v).Canonical := foldl h fun _ _ h => h.setFld

theorem showLanes {p} (h : s.Canonical) : (s.showLanes p).Canonical := h.setLaneMask.setLaneMask

theorem addLanes {p open_ short} (h : s.Canonical) : (s.addLanes p open_ short).Canonical := h.onPort.showLanes

theorem portRecord {p} (h : s.Canonical) : (s.portRecord p).Canonical := by
  dsimp only [State.portRecord]
  with_reducible exact h.takeFree.fault

theorem enterPort {p st} (h : s.Canonical) : (s.enterPort p st).Canonical := by
  unfold State.enterPort
  exact h.setStatus.onPort

theorem dropHeld {p} (h : s.Canonical) : (s.dropHeld p).Canonical := by
  unfold State.dropHeld
  exact h.countWrap.onPort

theorem portDown {p} (h : s.Canonical) : (s.portDown p).Canonical := ite h h.dropHeld.enterPort.setLanes.portRecord

theorem portFenced {p} (h : s.Canonical) : (s.portFenced p).Canonical := ite h h.dropHeld.enterPort.setLanes.portRecord

theorem portRetrain {p} (h : s.Canonical) : (s.portRetrain p).Canonical := h.enterPort.onPort.portRecord

theorem fencePortDie {die} (h : s.Canonical) : (s.fencePortDie die).Canonical := foldl h.setFld fun _ _ h => ite h h.portFenced

theorem laneOpen {port lane} (h : s.Canonical) : (s.laneOpen port lane).Canonical := ite (ite h.addLanes.portRetrain h.addLanes) h

-- The functions of Machine/Ecc ----------------------------------------------------------------------------------------

theorem setCluster {n c} (h : s.Canonical) : (s.setCluster n c).Canonical := elsewhere h

theorem stopIssue (h : s.Canonical) : s.stopIssue.Canonical := elsewhere h

theorem requestRetire {n} (h : s.Canonical) : (s.requestRetire n).Canonical := ite h.setReg.stopIssue h.setReg

theorem retireEngines {die} (h : s.Canonical) : (s.retireEngines die).Canonical := setFld (elsewhere h)

theorem setBucket {key b} (h : s.Canonical) : (s.setBucket key b).Canonical := elsewhere h

theorem linkLasting {cls idx rsv} (h : s.Canonical) : (s.linkLasting cls idx rsv).Canonical := by
  unfold State.linkLasting
  split
  · refine foldl h.emit.setFld fun _ _ h => ?_
    split
    · exact h.requestRetire
    · exact h
  · exact h.emit.setFld.retireEngines
  · exact h.emit.setFld.fencePortDie
  · exact h.emit.setFld

theorem classAction {cls unit lane} (h : s.Canonical) : (s.classAction cls unit lane).Canonical := by
  unfold State.classAction
  split
  · split
    · exact h.requestRetire
    · exact h
  · split
    · exact h.requestRetire
    · exact h
  · exact h.retireEngines
  · exact h.fencePortDie
  · refine ite ?_ (ite h h.linkLasting)
    exact ite h.linkLasting (ite h.linkLasting (ite h.linkLasting (ite h.linkLasting h.linkLasting)))
  · exact h.laneOpen
  · exact h

theorem markLasting {cls unit lane addr} (h : s.Canonical) : (s.markLasting cls unit lane addr).Canonical :=
  ite h (ite h.fault.setBucket.countSat.classAction h.fault.setBucket.countSat)

theorem eccEvent {cls unit lane uncorr addr} (h : s.Canonical) : (s.eccEvent cls unit lane uncorr addr).Canonical :=
  ite h.setBucket.markLasting h.setBucket

theorem logEntry {addr unit type source bit} (h : s.Canonical) : (s.logEntry addr unit type source bit).Canonical :=
  ite h (ite h.countSat (ite (countSat (elsewhere h)) (companionWrite (setFld (companionWrite (elsewhere h))))))

theorem uncorrectableDetail {structure_ source} (h : s.Canonical) : (s.uncorrectableDetail structure_ source).2.Canonical := by
  dsimp only [State.uncorrectableDetail]
  with_reducible exact h.takeFree

-- The functions of Machine/Memory -------------------------------------------------------------------------------------

theorem clearMark {k} (h : s.Canonical) : (s.clearMark k).Canonical := elsewhere h

theorem poisonWord {k} (h : s.Canonical) : (s.poisonWord k).Canonical :=
  ⟨memZero_wf _ _ h.mem, h.cmem⟩

theorem upset {u} (h : s.Canonical) : (s.upset u).Canonical := elsewhere h

theorem reportUncorrectable {k source named} (h : s.Canonical) : (s.reportUncorrectable k source named).Canonical := by
  dsimp only [State.reportUncorrectable]
  with_reducible exact eccEvent (fault (uncorrectableDetail (logEntry (ite h.countWrap h.countWrap))))

theorem checkWord {k source named} (h : s.Canonical) : (s.checkWord k source named).2.Canonical := by
  unfold State.checkWord
  split
  · exact h
  · dsimp only
    split
    · exact h
    · with_reducible exact eccEvent (logEntry (ite h.clearMark.countWrap h.clearMark.countWrap))
    · with_reducible exact h.reportUncorrectable
    · with_reducible exact h.logEntry
    · have ht := h.takeFree (k := .badPattern) |>.takeFree (k := .badData)
      with_reducible exact iteSnd h.takeFree.reportUncorrectable (withMem ht.clearMark (memPutNat_wf _ _ _ ht.mem))

theorem checkWords : ∀ {keys source} {s : State}, s.Canonical → (s.checkWords source keys).2.Canonical
  | [], _, _, h => h
  | _ :: _, _, _, h => h.checkWord.checkWords

theorem readStore {c n source} (h : s.Canonical) : (s.readStore c n source).2.2.Canonical := h.checkWords

theorem writeWord {k be data poison} (h : s.Canonical) : (s.writeWord k be data poison).Canonical := by
  unfold State.writeWord
  with_reducible exact ite h (ite (ite h.poisonWord (withMem h (memPutMasked_wf _ _ _ h.mem)))
    (ite h.uncorrectableDetail.fault.poisonWord
      (ite h.checkWord.poisonWord (withMem h.checkWord (memPutMasked_wf _ _ _ h.checkWord.mem)))))

theorem writeStoreBe : ∀ {fuel c be data poison} {s : State}, s.Canonical → (s.writeStoreBe fuel c be data poison).Canonical
  | 0, _, _, _, _, _, h => h
  | _ + 1, _, _, _, _, _, h => ite h h.writeWord.writeStoreBe

theorem writeStore {c data poison} (h : s.Canonical) : (s.writeStore c data poison).Canonical := h.writeStoreBe

theorem sealLate {die region layer kind node source layer2 addr} (h : s.Canonical) :
    (s.sealLate die region layer kind node source layer2 addr).Canonical :=
  h.fault

theorem setVarveAcc {region die v} (h : s.Canonical) : (s.setVarveAcc region die v).Canonical := elsewhere h

theorem foldTerm {region die o be data poison} (h : s.Canonical) : (s.foldTerm region die o be data poison).Canonical :=
  h.setVarveAcc

theorem foldTerms : ∀ {fuel region die o be data poison} {s : State}, s.Canonical →
    (s.foldTerms fuel region die o be data poison).Canonical
  | 0, _, _, _, _, _, _, _, h => h
  | _ + 1, _, _, _, _, _, _, _, h => ite h (foldTerms (ite h h.foldTerm))

theorem rsvWrite {who node sluice seen die x region be data poison} (h : s.Canonical) :
    (s.rsvWrite who node sluice seen die x region be data poison).2.Canonical := by
  unfold State.rsvWrite
  split
  · exact h.writeStoreBe
  · refine iteSnd h.unmapped ?_
    split
    · exact h.sealLate
    · exact ite h.writeStoreBe.foldTerms h.writeStoreBe

theorem takeBank {die x age hold} (h : s.Canonical) : (s.takeBank die x age hold).Canonical := countWrap (elsewhere h)

theorem bankRead {c n age} (h : s.Canonical) : (s.bankRead c n age).Canonical := ite (foldl h fun _ _ h => h.takeBank) h

theorem bankWrite {die x n be age} (h : s.Canonical) : (s.bankWrite die x n be age).Canonical :=
  foldl h fun _ _ h => ite h (ite h.takeBank.countWrap h.takeBank)

theorem fetch {c n source age} (h : s.Canonical) : (s.fetch c n source age).2.2.Canonical := h.bankRead.readStore

theorem rsvStore {age who node sluice seen die x region be data poison} (h : s.Canonical) :
    (s.rsvStore age who node sluice seen die x region be data poison).2.Canonical :=
  ite h.rsvWrite.bankWrite h.rsvWrite

theorem chargeHbm {who n} (h : s.Canonical) : (s.chargeHbm who n).Canonical := by
  dsimp only [State.chargeHbm]
  split
  · exact ite h.countWrap h
  · exact h

theorem writeLocalBe : ∀ {fuel who node a be data poison} {s : State}, s.Canonical →
    (s.writeLocalBe fuel who node a be data poison).2.Canonical
  | 0, _, _, _, _, _, _, _, h => h
  | _ + 1, _, _, _, _, _, _, _, h => by
    unfold State.writeLocalBe
    refine iteSnd h (writeLocalBe ?_)
    split
    · exact h.chargeHbm.writeStoreBe
    · exact h.writeStoreBe
    · exact h.rsvStore
    · exact h.unmapped

theorem writeLocal {who a data poison} (h : s.Canonical) : (s.writeLocal who a data poison).2.Canonical := h.writeLocalBe

theorem readLocalAux : ∀ {fuel who source a n} {s : State}, s.Canonical → (s.readLocalAux fuel who source a n).2.2.Canonical
  | 0, _, _, _, _, _, h => h
  | _ + 1, _, _, _, _, _, h => by
    unfold State.readLocalAux
    refine iteThird h (readLocalAux ?_)
    split
    · exact fetch (ite h.chargeHbm h)
    · exact h.unmapped

theorem readLocal {who a n} (h : s.Canonical) : (s.readLocal who a n).2.2.Canonical := h.readLocalAux

-- The functions of Machine/Reservoir ----------------------------------------------------------------------------------

theorem accessLine {q} (h : s.Canonical) : (s.accessLine q).2.2.Canonical := by
  unfold State.accessLine
  split
  · exact iteThird h.rsvStore h.fetch
  · exact h.unmapped

theorem serveRequest {q} (h : s.Canonical) : (s.serveRequest q).Canonical := emit (foldlThird h fun _ _ h => h.accessLine)

theorem reservoirAccess {reqs upsets} (h : s.Canonical) : (s.reservoirAccess reqs upsets).Canonical :=
  foldl (foldl h fun _ _ h => h.upset) fun _ _ h => h.serveRequest

theorem markDone {region layer explicit v} (h : s.Canonical) : (s.markDone region layer explicit v).Canonical :=
  ite (elsewhere h) h

theorem snapVarve {region die} (h : s.Canonical) : (s.snapVarve region die).2.Canonical := h.setVarveAcc

theorem sealMark {region layer} (h : s.Canonical) : (s.sealMark region layer).Canonical :=
  ite (markDone (foldl h fun _ _ h => h.snapVarve)) h

theorem sealOnDie {who region layer die} (h : s.Canonical) : (s.sealOnDie who region layer die).Canonical := by
  unfold State.sealOnDie
  split
  · exact h
  · exact ite h.sealLate (ite h.sealLate (ite h.sealLate (ite (sealMark (elsewhere h)) (elsewhere h))))

theorem sealAll {who region layer} (h : s.Canonical) : (s.sealAll who region layer).Canonical := foldl h fun _ _ h => h.sealOnDie

theorem dropSeals {region} (h : s.Canonical) : (s.dropSeals region).Canonical := elsewhere h

theorem regionRelease {region} (h : s.Canonical) : (s.regionRelease region).Canonical := ite h.dropSeals h

theorem varveToRing {r} (h : s.Canonical) : (s.varveToRing r).Canonical := h.ringAppend.ringWriteBack

theorem drainVarves : ∀ {fuel} {s : State}, s.Canonical → (s.drainVarves fuel).Canonical
  | 0, _, h => h
  | _ + 1, _, h => by
    unfold State.drainVarves
    split
    · exact h
    · exact ite (drainVarves (varveToRing (elsewhere h))) h

theorem varveRecordWrite (h : s.Canonical) : s.varveRecordWrite.Canonical := by
  dsimp only [State.varveRecordWrite]
  split
  · exact h.drainVarves
  · exact ite (varveToRing (elsewhere h.drainVarves)) (ite (elsewhere h.drainVarves) (countSat (elsewhere h.drainVarves)))

theorem landFreed {n} (h : s.Canonical) : (s.landFreed n).Canonical := ite (elsewhere h) h

theorem landBack (h : s.Canonical) : s.landBack.Canonical := ite (elsewhere h) h

theorem regionWrite {n v} (h : s.Canonical) : (s.regionWrite n v).Canonical := by
  dsimp only [State.regionWrite]
  split
  · exact h.fault
  · exact ite (landFreed (elsewhere h.setReg.dropSeals)) h.setReg.landBack

-- The functions of Machine/Sluice -------------------------------------------------------------------------------------

theorem setChan {c x} (h : s.Canonical) : (s.setChan c x).Canonical := elsewhere h

theorem sluiceReset {q cause} (h : s.Canonical) : (s.sluiceReset q cause).2.Canonical := h.fault.setChan

theorem readMark {c p} (h : s.Canonical) : (s.readMark c p).2.Canonical := by
  refine of_def (f := @State.readMark) (fun f => Yields (·.2) (f s c p)) (by delta State.readMark; exact rfl) ?_
  extract_lets -underBinder
  split
  next e =>
    have ht := h.bankRead.checkWord.of_snd e
    exact iteYields ht ht

/-- One mark of the scan. The functions are named in the proof so that nothing evaluates the read (see `of_def`). -/
theorem scanMarks_succ {c n p seen} : s.scanMarks c (n + 1) p seen =
    match s.readMark c p with
    | (m, s) =>
      match m with
      | none => (none, s)
      | some true => (some (seen + 1, true), s)
      | some false => s.scanMarks c n ((p + 1) % 2 ^ 17) (seen + 1) := by
  obtain ⟨scan, hscan⟩ : ∃ f, f = @State.scanMarks := ⟨_, rfl⟩
  obtain ⟨read, hread⟩ : ∃ f, f = @State.readMark := ⟨_, rfl⟩
  rw [← hscan, ← hread]
  delta State.scanMarks State.scanMarks._f at hscan
  rw [← hread] at hscan
  subst hscan
  rfl

theorem scanMarks {n c p seen} (h : s.Canonical) : (s.scanMarks c n p seen).2.Canonical := by
  induction n generalizing s p seen with
  | zero => exact h
  | succ n ih =>
    rw [scanMarks_succ]
    split
    have ht := h.readMark.of_snd ‹_›
    split
    · exact ht
    · exact ht
    · exact ih ht

theorem sluiceApply {q} (h : s.Canonical) : (s.sluiceApply q).2.2.Canonical := by
  refine of_def (f := @State.sluiceApply) (fun f => Yields (·.2.2) (f s q)) (by delta State.sluiceApply; exact rfl) ?_
  refine iteYields h (iteYields ?_ ?_)
  · split
    dsimp only
    split
    · exact h.setChan
    · exact h.setChan.unmapped
    · exact h.setChan.unmapped
    · exact h.setChan.unmapped
  · split
    · split
      exact h.sluiceReset.of_snd ‹_›
    · split
      split
      · exact h
      · refine iteYields h.setChan (iteYields h.setChan ?_)
        split
        have ht := h.readMark.of_snd ‹_›
        split
        · split
          exact ht.sluiceReset.of_snd ‹_›
        · extract_lets -underBinder
          split
          exact (ht.rsvStore.of_snd ‹_›).writeStore.setChan
      · refine iteYields h.setChan ?_
        split
        have ht := h.scanMarks.of_snd ‹_›
        split
        · split
          exact ht.sluiceReset.of_snd ‹_›
        · exact ht.setChan
      · refine iteYields h.setChan ?_
        split
        have ht := h.readMark.of_snd ‹_›
        obtain ⟨fetch, hfetch⟩ : ∃ f, f = @State.fetch := ⟨_, rfl⟩
        have hf {s : State} {k n c o} (h : s.Canonical) : (fetch s k n c o).2.2.Canonical := hfetch ▸ h.fetch
        rw [← hfetch]
        split
        · split
          exact ht.sluiceReset.of_snd ‹_›
        · split
          exact ((hf ht).of_third ‹_›).setChan

theorem onSlcPort {who f} (h : s.Canonical) : (s.onSlcPort who f).Canonical := by
  unfold State.onSlcPort
  split
  · exact h.onCore
  · exact h

theorem sluiceAnswer {a item} (h : s.Canonical) : (s.sluiceAnswer a item).Canonical := by
  dsimp only [State.sluiceAnswer]
  split
  · exact h.emit.onSlcPort.loadsReturn
  · exact h.emit.onSlcPort

theorem sluiceTake {q} (h : s.Canonical) : (s.sluiceTake q).Canonical :=
  ite h.setChan (ite h.sluiceApply.setChan h.sluiceApply.sluiceAnswer)

theorem sluiceSend {q} (h : s.Canonical) : (s.sluiceSend q).Canonical := ite h.onSlcPort.setChan h.onSlcPort.sluiceTake

theorem slcPortNext : ∀ {fuel who} {s : State}, s.Canonical → (s.slcPortNext who fuel).Canonical
  | 0, _, _, h => h
  | _ + 1, _, _, h => by
    unfold State.slcPortNext
    split
    · exact ite h h.onCore.sluiceSend.slcPortNext
    · exact h

theorem sluiceSubmit {q} (h : s.Canonical) : (s.sluiceSubmit q).Canonical := h.sluiceSend.slcPortNext

theorem slcPortRequest {n k v} (h : s.Canonical) : (s.slcPortRequest n k v).Canonical := ite h.setCore h.sluiceSubmit

theorem slcPortWrite {n k o v} (h : s.Canonical) : (s.slcPortWrite n k o v).Canonical := ite h.slcPortRequest (ite h.onCore h)

theorem pointerUpset {c u} (h : s.Canonical) : (s.pointerUpset c u).Canonical := h.setChan

theorem sluiceCommand {q u us} (h : s.Canonical) : (s.sluiceCommand q u us).Canonical :=
  sluiceSubmit (pointerUpset (foldl h fun _ _ h => h.upset))

theorem sluiceRelease : ∀ {fuel c} {s : State}, s.Canonical → (State.sluiceRelease c fuel s).Canonical
  | 0, _, _, h => h
  | _ + 1, _, _, h => by
    unfold State.sluiceRelease
    dsimp only
    split
    · exact h
    · exact ite h h.setChan.sluiceTake.sluiceRelease

theorem storageDone {c} (h : s.Canonical) : (s.storageDone c).Canonical := by
  dsimp only [State.storageDone]
  split
  · exact h
  · exact foldl h.setChan.sluiceAnswer.sluiceRelease fun _ _ h => h.slcPortNext

theorem fenceAcked {who c} (h : s.Canonical) : (s.fenceAcked who c).Canonical := by
  dsimp only [State.fenceAcked]
  split
  · exact h
  · exact ite h (foldl h.setChan.sluiceSubmit fun _ _ h => h.sluiceSubmit)

theorem sluiceSettle : ∀ {fuel c} {s : State}, s.Canonical → (State.sluiceSettle c fuel s).Canonical
  | 0, _, _, h => h
  | _ + 1, _, _, h => ite h.storageDone.sluiceSettle h

theorem sluiceNow {q} (h : s.Canonical) : (s.sluiceNow q).2.Canonical := h.sluiceSettle.sluiceApply

theorem pushNow {who c pktEnd data} (h : s.Canonical) : (s.pushNow who c pktEnd data).2.Canonical := h.sluiceNow

theorem popNow {who c} (h : s.Canonical) : (s.popNow who c).2.Canonical := h.sluiceNow

theorem chanWrite {c v} (h : s.Canonical) : (s.chanWrite c v).Canonical :=
  ite h.fault (ite h.fault (ite h.setReg.setChan h.setReg))

theorem resetChannel {c v} (h : s.Canonical) : (s.resetChannel c v).Canonical := ite h.setChan h

-- The functions of Machine/Cores --------------------------------------------------------------------------------------

theorem fetchAt {i} (h : s.Canonical) : (s.fetchAt i).Canonical := ite h.unmapped h

theorem trapCore {i cause tval} (h : s.Canonical) : (s.trapCore i cause tval).Canonical := h.onCore.fetchAt

theorem raiseIrq {cluster bit} (h : s.Canonical) : (s.raiseIrq cluster bit).Canonical := foldl h fun _ _ h => h.onCore

theorem setBufState {n b v} (h : s.Canonical) : (s.setBufState n b v).Canonical := h.setFld

theorem setBufPoison {n b p} (h : s.Canonical) : (s.setBufPoison n b p).Canonical := h.setFlag

theorem setBufReaders {n b v} (h : s.Canonical) : (s.setBufReaders n b v).Canonical := h.setFld

theorem poisonBufs {n off len} (h : s.Canonical) : (s.poisonBufs n off len).Canonical := foldl h fun _ _ h => h.setBufPoison

theorem poisonReached {a len poison} (h : s.Canonical) : (s.poisonReached a len poison).Canonical := ite h.poisonBufs h

theorem writeData {who a data poison} (h : s.Canonical) : (s.writeData who a data poison).2.Canonical :=
  iteSnd h.companionWrite h.writeLocal.poisonReached

-- The functions of Machine/SetupBase ----------------------------------------------------------------------------------

theorem writeFields {a d new} (h : s.Canonical) : (s.writeFields a d new).Canonical := setReg (ite h.setupLocked h)

theorem writePlain {a new} (h : s.Canonical) : (s.writePlain a new).Canonical := by
  unfold State.writePlain
  split
  · exact h
  · exact h.writeFields

-- The functions of Machine/Time ---------------------------------------------------------------------------------------

theorem tick {n} (h : s.Canonical) : (s.tick n).Canonical := elsewhere h

theorem closeWindow (h : s.Canonical) : s.closeWindow.Canonical := elsewhere h

theorem timeUnlocked {state} (h : s.Canonical) : (s.timeUnlocked state).Canonical := h.fault.emit

theorem becomeValid {v} (h : s.Canonical) : (s.becomeValid v).Canonical := elsewhere h.closeWindow

theorem enterHoldover (h : s.Canonical) : s.enterHoldover.Canonical := timeUnlocked (countSat (elsewhere h))

theorem returnLocked (h : s.Canonical) : s.returnLocked.Canonical := timeUnlocked (elsewhere h)

theorem sourceChanged {old new} (h : s.Canonical) : (s.sourceChanged old new).Canonical := by
  unfold State.sourceChanged
  refine ite h (ite (elsewhere h) (ite ?_ ?_))
  · split
    · exact elsewhere h
    · exact returnLocked (elsewhere h)
  · split
    · exact enterHoldover (elsewhere h)
    · exact elsewhere h

theorem timeAnnounced {t} (h : s.Canonical) : (s.timeAnnounced t).Canonical := by
  unfold State.timeAnnounced
  split
  · exact h
  · exact elsewhere h
  · exact ite h (elsewhere h.becomeValid)

theorem changeTurnLen {n} (h : s.Canonical) : (s.changeTurnLen n).Canonical := ite h.setReg.setFld.setFld h

theorem writeTurnOrigin {v} (h : s.Canonical) : (s.writeTurnOrigin v).Canonical := ite h.setupLocked h.setReg

theorem writeTurnLen {v} (h : s.Canonical) : (s.writeTurnLen v).Canonical :=
  changeIf (changeUnless (setFld (changeUnless h setFld)) fun h => elsewhere h) setupLocked

theorem writeTurnChange {v} (h : s.Canonical) : (s.writeTurnChange v).Canonical := elsewhere h.setReg

theorem writeEpoch {v} (h : s.Canonical) : (s.writeEpoch v).Canonical := ite h.setupLocked h.setReg

-- The functions of Machine/HgTables -----------------------------------------------------------------------------------

theorem layerWrite {n w v} (h : s.Canonical) : (s.layerWrite n w v).Canonical := by
  unfold State.layerWrite
  refine ite h.writePlain.setFlag (ite h.writePlain ?_)
  split
  · exact h.writePlain
  · exact h.writePlain.setFlag.fault

theorem keepTables (h : s.Canonical) : s.keepTables.Canonical := by
  unfold State.keepTables
  refine foldl h fun _ _ h => ?_
  split
  · exact elsewhere h
  · exact h

theorem zoneWrite {z w v} (h : s.Canonical) : (s.zoneWrite z w v).Canonical := by
  dsimp only [State.zoneWrite]
  refine ite ?_ h.writePlain
  split
  · exact h.fault
  · exact h.writePlain

theorem readWords {n who a} (h : s.Canonical) : (s.readWords who n a).2.2.2.Canonical := by
  induction n generalizing s a with
  | zero => exact h
  | succ n ih =>
    unfold State.readWords
    with_reducible exact iteFourth (ih h.readLocal) h.readLocal

theorem placeEntry {src e} (h : s.Canonical) : (s.placeEntry src e).2.Canonical := by
  refine of_def (f := @State.placeEntry) (fun f => Yields (·.2) (f s src e)) (by delta State.placeEntry; exact rfl) ?_
  split
  have ht := h.readWords.of_fourth ‹_›
  exact iteYields (elsewhere ht) (ite ht.fault ht)

theorem placeCopy : ∀ {n src first done} {s : State}, s.Canonical → (State.placeCopy src first n done s).2.2.Canonical
  | 0, _, _, _, _, h => h
  | _ + 1, _, _, _, _, h => iteThird h.placeEntry.placeCopy h.placeEntry

theorem placeStart (h : s.Canonical) : s.placeStart.Canonical := by
  unfold State.placeStart
  refine ite h ?_
  split
  · exact h
  · exact elsewhere h

theorem placeCtrlWrite {v} (h : s.Canonical) : (s.placeCtrlWrite v).Canonical := ite (placeStart (elsewhere h.setReg)) h.setReg

theorem placeLoadDone (h : s.Canonical) : s.placeLoadDone.Canonical := by
  unfold State.placeLoadDone
  split
  · exact h
  · exact ite h (placeStart (elsewhere h.placeCopy))

theorem placeProgress (h : s.Canonical) : s.placeProgress.Canonical := by
  unfold State.placeProgress
  split
  · exact h
  · exact ite (elsewhere h.placeCopy) (elsewhere h.placeCopy)

theorem copyRange {src dst n} (h : s.Canonical) : (s.copyRange src dst n).Canonical := elsewhere h

theorem placementFlip (h : s.Canonical) : s.placementFlip.Canonical :=
  setFlag (copyRange (copyRange (elsewhere h.placeProgress.keepTables)))

theorem placeFlipWrite {v} (h : s.Canonical) : (s.placeFlipWrite v).Canonical := ite (elsewhere h.setReg) h.setReg

-- The functions of Machine/HgScore ------------------------------------------------------------------------------------

theorem poisonRow {l p slot} (h : s.Canonical) : (s.poisonRow l p slot).Canonical := h.writeLocal

theorem enginesSeal {region layer} (h : s.Canonical) : (s.enginesSeal region layer).Canonical := foldl h fun _ _ h => h.sealAll

theorem failStep {l p layer} (h : s.Canonical) : (s.failStep l p layer).Canonical :=
  elsewhere (enginesSeal (countWrap (foldl h fun _ _ h => h.poisonRow)))

theorem layerInvalid {layer kind} (h : s.Canonical) : (s.layerInvalid layer kind).Canonical := h.fault

theorem nameBad {st a} (h : s.Canonical) : (s.nameBad st a).Canonical := by
  dsimp only [State.nameBad]
  with_reducible exact ite h.uncorrectableDetail.fault h

theorem reportTiles {l} (h : s.Canonical) : (s.reportTiles l).Canonical := foldl h fun _ _ h => h.readLocal

/-- One token entry (see `of_def` for the named functions). -/
theorem readTokenEntries_succ {region n t} : s.readTokenEntries region (n + 1) t =
    match s.readWords (.engine s.firstEngine 0) 2 (regionAddr region (64 + 16 * t)) with
    | (st, a, e, s) =>
      if st = 0 then
        match s.readTokenEntries region n (t + 1) with
        | (st2, a2, rest, s) => (st2, a2, e :: rest, s)
      else (st, a, [], s) := by
  obtain ⟨scan, hscan⟩ : ∃ f, f = @State.readTokenEntries := ⟨_, rfl⟩
  obtain ⟨read, hread⟩ : ∃ f, f = @State.readWords := ⟨_, rfl⟩
  rw [← hscan, ← hread]
  delta State.readTokenEntries State.readTokenEntries._f at hscan
  rw [← hread] at hscan
  subst hscan
  rfl

theorem readTokenEntries {n region t} (h : s.Canonical) : (s.readTokenEntries region n t).2.2.2.Canonical := by
  induction n generalizing s t with
  | zero => exact h
  | succ n ih => 
    rw [readTokenEntries_succ]
    split
    have ht := h.readWords.of_fourth ‹_›
    refine iteFourth ?_ ht
    split
    exact (ih ht).of_fourth ‹_›

/-- One token row (see `of_def` for the named functions). -/
theorem readTokenRows_cons {e : List Byte} {es region hidOff stride rowBytes keySel t} :
    s.readTokenRows region hidOff stride rowBytes keySel (e :: es) t =
    match s.readWords (.engine s.firstEngine 0) (rowBytes / 8) (regionAddr region (hidOff + t * stride)) with
    | (st, a, row, s) =>
      let s := if st = Code.poisoned then s.fault (engineUnit s.firstEngine 0) Code.poisoned (some (s.namedAt a)) 0 else s
      let tok : TokenInfo :=
        { slot := leNat (sliceOf e 0 2), id := leNat (sliceOf e 4 4),
          key := if keySel then leNat (sliceOf e 8 8) else leNat (sliceOf e 4 4), bad := st != 0 }
      match s.readTokenRows region hidOff stride rowBytes keySel es (t + 1) with
      | (rest, s) => ((tok, row) :: rest, s) := by
  obtain ⟨scan, hscan⟩ : ∃ f, f = @State.readTokenRows := ⟨_, rfl⟩
  obtain ⟨read, hread⟩ : ∃ f, f = @State.readWords := ⟨_, rfl⟩
  rw [← hscan, ← hread]
  delta State.readTokenRows State.readTokenRows._f at hscan
  rw [← hread] at hscan
  subst hscan
  rfl

theorem readTokenRows {es region hidOff stride rowBytes keySel t} (h : s.Canonical) :
    (s.readTokenRows region hidOff stride rowBytes keySel es t).2.Canonical := by
  induction es generalizing s t with
  | nil => exact h
  | cons e es ih =>
    rw [readTokenRows_cons]
    split
    next e =>
      have ht := h.readWords.of_fourth e
      extract_lets -underBinder t tok
      have ht : t.Canonical := ite ht.fault ht
      split
      next e => exact (ih ht).of_snd e

theorem readVecEntry {a} (h : s.Canonical) : (s.readVecEntry a).2.2.Canonical := by
  dsimp only [State.readVecEntry]
  split
  · with_reducible exact iteThird h.chargeHbm.checkWord.nameBad h.readLocal.nameBad
  · with_reducible exact h.readLocal

theorem readVector {l} (h : s.Canonical) : (s.readVector l).2.Canonical := iteSnd (foldlSnd h fun _ _ h => h.readVecEntry) h

theorem takeBoard {l base} (h : s.Canonical) : (s.takeBoard l base).2.Canonical := by
  refine of_def (f := @State.takeBoard) (fun f => Yields (·.2) (f s l base)) (by delta State.takeBoard; exact rfl) ?_
  refine foldlYields h fun r x h => ?_
  extract_lets -underBinder
  split
  exact h.readLocal.of_third ‹_›

theorem startStep {p region layer at_ time} (h : s.Canonical) : (s.startStep p region layer at_ time).Canonical := by
  refine of_def (f := @State.startStep) (fun f => (f s p region layer at_ time).Canonical) (by delta State.startStep; exact rfl) ?_
  refine ite (failStep (layerInvalid (elsewhere h))) ?_
  split
  next e =>
    have ht := (readWords (elsewhere h)).of_fourth e
    refine ite ht.nameBad.layerInvalid.failStep (ite ht.nameBad.layerInvalid.failStep ?_)
    split
    next e =>
      have ht := ht.nameBad.readTokenEntries.of_fourth e
      refine ite ht.nameBad.layerInvalid.failStep ?_
      split
      next e =>
        have ht := ht.readTokenRows.of_snd e
        extract_lets -underBinder g t2
        have hs : t2.Canonical := ite ht ht.reportTiles
        split
        next e =>
          have ht := hs.readVector.of_snd e
          split
          next e =>
            exact elsewhere (ht.takeBoard.of_snd e)

-- The functions of Machine/HgSelect -----------------------------------------------------------------------------------

theorem writeLoadVector {p} (h : s.Canonical) : (s.writeLoadVector p).Canonical := h.writeLocal

theorem stepSummary {p} (h : s.Canonical) : (s.stepSummary p).Canonical := ite h (ite h.pushNow h.pushNow.countWrap)

theorem setStep {p} (h : s.Canonical) : (s.setStep p).Canonical := elsewhere h

theorem endSelection {p} (h : s.Canonical) : (s.endSelection p).Canonical := h.writeLoadVector.stepSummary.setStep

theorem countToken {p q e claims nan th ex} (h : s.Canonical) : (s.countToken p q e claims nan th ex).Canonical :=
  h.countWrap.countWrap.countWrap.countWrap.countWrap.countWrap.countWrap.countWrap.countWrap

theorem abandonStep {p} (h : s.Canonical) : (s.abandonStep p).Canonical := h.failStep.setStep

theorem zoneOverflow {zone kind layer peer} (h : s.Canonical) : (s.zoneOverflow zone kind layer peer).Canonical :=
  h.countSat.fault

theorem routeDecision (h : s.Canonical) : s.routeDecision.Canonical := by
  unfold State.routeDecision
  split
  · exact h
  next p _ =>
    refine ite h ?_
    split
    next q t err e =>
      have ht : t.Canonical := by
        have hq : (q, t, err).2.1.Canonical := by
          rw [← e]
          split
          · exact h.countToken
          · split
            split
            split
            · exact h
            · exact h.countToken
        exact hq
      split
      · exact ht.zoneOverflow.abandonStep
      · exact ite ht.endSelection ht.setStep

theorem startGate {p region layer at_ time} (h : s.Canonical) : (s.startGate p region layer at_ time).Canonical := by
  dsimp only [State.startGate]
  split
  · exact h.startStep
  · exact ite h.startStep.endSelection (ite h.startStep.setStep h.startStep)

theorem startGates : ∀ {fuel} {s : State}, s.Canonical → (State.startGates fuel s).Canonical
  | 0, _, h => h
  | _ + 1, _, h => by
    unfold State.startGates
    dsimp only
    split
    · exact ite h (startGates (startGate (elsewhere h)))
    · exact h

theorem startHeld (h : s.Canonical) : s.startHeld.Canonical := ite h (startGates (elsewhere h))

theorem sealSignal {region} (h : s.Canonical) : (s.sealSignal region).Canonical := by
  unfold State.sealSignal
  split
  · exact h
  · exact ite h.emit (startHeld (elsewhere h.emit))

-- The functions of Machine/HgLanding ----------------------------------------------------------------------------------

theorem setLanding {k x} (h : s.Canonical) : (s.setLanding k x).Canonical := elsewhere h

theorem readEntry {par z i} (h : s.Canonical) : (s.readEntry par z i).2.Canonical := by
  refine of_def (f := @State.readEntry) (fun f => Yields (·.2) (f s par z i)) (by delta State.readEntry; exact rfl) ?_
  split
  exact h.readLocal.of_third ‹_›

theorem readEntries {par z n} (h : s.Canonical) : (s.readEntries par z n).2.Canonical := by
  refine of_def (f := @State.readEntries) (fun f => Yields (·.2) (f s par z n)) (by delta State.readEntries; exact rfl) ?_
  refine foldlYields h fun r x h => ?_
  split
  exact h.readEntry.of_snd ‹_›

theorem writeRun {par z es rowsLine k slot start} (h : s.Canonical) : (s.writeRun par z es rowsLine k slot start).2.Canonical :=
  yieldsSnd h.writeLocal.writeLocal

theorem buildRuns {par z x} (h : s.Canonical) : (s.buildRuns par z x).Canonical := by
  unfold State.buildRuns
  refine ite ?_ (foldlSnd h.readEntries fun _ _ h => h.writeRun)
  split
  · exact ite h h.zoneOverflow.abandonStep
  · exact h.zoneOverflow

theorem zoneCheck {z ret par} (h : s.Canonical) : (s.zoneCheck z ret par).Canonical :=
  ite (ite h.setLanding (ite (elsewhere h.setLanding.countWrap.buildRuns) h.setLanding.countWrap.buildRuns)) h

theorem landSeal {z ret par die region data} (h : s.Canonical) : (s.landSeal z ret par die region data).Canonical :=
  zoneCheck (ite (sealLate (ite h.setLanding.zoneOverflow h.setLanding)) (ite h.setLanding.zoneOverflow h.setLanding))

theorem landRefusal {node die x region o carries r} (h : s.Canonical)
    (hr : s.landRefusal node die x region o carries = some r) : r.2.Canonical := by
  unfold State.landRefusal at hr
  split at hr
  · dsimp only at hr
    split at hr
    · exact Option.some.inj hr ▸ h.countSat
    · split at hr
      · exact Option.some.inj hr ▸ h.sealLate
      · split at hr
        · split at hr
          · exact Option.some.inj hr ▸ h.sealLate
          · split at hr
            · exact Option.some.inj hr ▸ h.sealLate
            · exact nomatch hr
        · exact nomatch hr
  · exact nomatch hr

theorem landCount {region o} (h : s.Canonical) : (s.landCount region o).Canonical := by
  unfold State.landCount
  split
  · exact h.setLanding.zoneCheck
  · exact h

theorem landStore {who node die x region o be data poison isSeal} (h : s.Canonical) :
    (s.landStore who node die x region o be data poison isSeal).2.Canonical := by
  unfold State.landStore
  split
  next hr => exact h.landRefusal hr
  next =>
    split
    next e =>
      have ht := h.rsvStore.of_snd e
      refine iteSnd ht (iteSnd ?_ ht.landCount)
      split
      · exact ht.landSeal
      · exact ht

-- The functions of Machine/FabricBase ---------------------------------------------------------------------------------

theorem windowViolation {q t} (h : s.Canonical) : (s.windowViolation q t).Canonical := h.countWrap.faultFor

theorem atomicAt {who node land a len aop signed opnd swap} (h : s.Canonical) :
    (s.atomicAt who node land a len aop signed opnd swap).2.2.Canonical := by
  unfold State.atomicAt
  refine iteThird h ?_
  extract_lets -underBinder w run
  have hrun {s : State} {c put} (h : s.Canonical) (hp : ∀ {s : State} {v}, s.Canonical → (put s v).2.Canonical) :
      (run c put s).2.2.Canonical := by
    dsimp only [run]
    exact iteThird h.readStore (iteThird h.readStore (hp h.readStore))
  clear_value run
  split
  · refine hrun h.chargeHbm.chargeHbm ?_
    exact fun h => h.writeStore
  · extract_lets -underBinder c apply
    have ha {s : State} (h : s.Canonical) : (apply s).2.2.Canonical := by
      dsimp only [apply]
      refine hrun h.takeBank ?_
      exact fun h => h.rsvWrite
    split
    · exact ha h
    · refine iteThird h.unmapped ?_
      split
      · exact h.sealLate
      · refine iteThird (ha h) ?_
        split
        next e => exact (h.landRefusal e :)
        next =>
          split
          next e => 
          have ht := (ha h).of_third e
          exact ite ht.landCount ht
  · exact h.unmapped

theorem serveLoad {off len} (h : s.Canonical) : (s.serveLoad off len).2.2.Canonical := by
  unfold State.serveLoad
  split
  · exact fetch (ite h.chargeHbm h)
  · exact h

theorem serveStore {who node off be data poison isSeal} (h : s.Canonical) :
    (s.serveStore who node off be data poison isSeal).2.Canonical := by
  unfold State.serveStore
  split
  · exact h.chargeHbm.writeStoreBe
  · exact h.landStore
  · exact h.rsvStore
  · exact h

theorem fenceCheck {who} (h : s.Canonical) : (s.fenceCheck who).Canonical := by
  unfold State.fenceCheck
  split
  · exact h
  · refine ite ?_ h
    split
    · exact h.setCore.trapCore
    · exact h.setCore

theorem dmaData {n e dst off data poison} (h : s.Canonical) : (s.dmaData n e dst off data poison).Canonical := by
  dsimp only [State.dmaData]
  split
  · exact h
  · exact ite h.setCluster h.setCluster.writeData

theorem colGot {off bad data} (h : s.Canonical) : (s.colGot off bad data).Canonical := elsewhere h

theorem colLost {peer t} (h : s.Canonical) : (s.colLost peer t).Canonical := elsewhere h

theorem colClosed {slot ok} (h : s.Canonical) : (s.colClosed slot ok).Canonical := elsewhere h

theorem deliver {o status data} (h : s.Canonical) : (s.deliver o status data).Canonical := by
  unfold State.deliver
  refine fenceCheck (?_)
  split
  · split
    · exact ite h.dmaData (ite h.dmaData h.dmaData.setBufPoison)
    · exact h.colGot
    · exact ite h.colLost h
    · exact h.colClosed
    · exact h
  · split
    · exact elsewhere h
    · exact h
  · exact ite h h.countSat
  · split
    · exact h
    · split
      · exact ite h.onCore h.onCore.trapCore
      · exact ite h.setReg.setReg.loadsReturn h.setReg.setReg
      · exact ite h h.onCore

theorem closeOp {tag status data} (h : s.Canonical) : (s.closeOp tag status data).Canonical := by
  unfold State.closeOp
  split
  · exact h
  · exact deliver (elsewhere h)

theorem opRecord {who code node detail} (h : s.Canonical) : (s.opRecord who code node detail).Canonical := h.faultOncePerWindow

theorem refusedRecord {who node tag status} (h : s.Canonical) : (s.refusedRecord who node tag status).Canonical :=
  ite h h.opRecord

theorem injectCell {die c} (h : s.Canonical) : (s.injectCell die c).Canonical := elsewhere h

theorem acceptOp {die c o} (h : s.Canonical) : (s.acceptOp die c o).Canonical := by
  unfold State.acceptOp
  obtain ⟨job, hjob⟩ : ∃ f, f = State.job := ⟨_, rfl⟩
  rw [← hjob]
  split
  · exact elsewhere h
  next i _ =>
    extract_lets -underBinder tag o s1 s2 g s3
    have h2 : s2.Canonical := by
      have h1 : s1.Canonical := h.countWrap
      unfold s2
      split
      · exact ite h1 h1.countWrap
      · exact h1
    have h3 : s3.Canonical := elsewhere h2
    refine ite h3.countWrap.opRecord.closeOp (ite (ite ?_ (ite ?_ ?_)) (injectCell (elsewhere h3)))
    · split
      next e => exact (h3.serveLoad.of_third e).refusedRecord.closeOp
    · split
      next e => exact (h3.serveStore.of_snd e).refusedRecord.closeOp
    · split
      next e => exact (h3.atomicAt.of_third e).refusedRecord.closeOp

theorem issueOp {q} (h : s.Canonical) : (s.issueOp q).Canonical := by
  unfold State.issueOp
  split
  · exact h.unmapped.deliver
  · exact ite h.unmapped.deliver (ite h.windowViolation.deliver h.acceptOp)

theorem acceptWaiting (h : s.Canonical) : s.acceptWaiting.Canonical := foldl (elsewhere h) fun _ _ h => h.acceptOp

-- The functions of Machine/Companion ----------------------------------------------------------------------------------

theorem companionAnswer {r st} (h : s.Canonical) : (s.companionAnswer r st).Canonical := by
  dsimp only [State.companionAnswer]
  split
  · exact h.dmaData
  · exact h.deliver

theorem serveReads (h : s.Canonical) : s.serveReads.Canonical := foldl (elsewhereLink h) fun _ _ h => h.companionAnswer

theorem companionLoad {who a len sink} (h : s.Canonical) : (s.companionLoad who a len sink).Canonical :=
  ite h.companionAnswer (serveReads (foldl (elsewhereLink h) fun _ _ h => h.requestLine))

theorem recheckFences (h : s.Canonical) : s.recheckFences.Canonical := foldl h fun _ _ h => ite h.fenceCheck h

theorem evictLine (h : s.Canonical) : s.evictLine.Canonical := by
  unfold State.evictLine
  refine ite h ?_
  split
  · exact h
  · exact sendFlit (elsewhereLink h)

theorem holdLine {q owned} (h : s.Canonical) : (s.holdLine q owned).Canonical :=
  elsewhereLink (ite (elsewhereLink h) (evictLine (elsewhereLink h)))

theorem lineData {txn poison data} (h : s.Canonical) : (s.lineData txn poison data).Canonical := by
  unfold State.lineData
  refine ite h ?_
  split
  · exact h
  · next q _ =>
    have hh := h.holdLine (q := q) (owned := q.own)
    refine recheckFences (drainWrites (serveReads (foldl ?_ fun _ _ h => h.companionAnswer)))
    exact withLines hh (memPutBytes_wf _ _ hh.cmem)

theorem grantLine {txn} (h : s.Canonical) : (s.grantLine txn).Canonical := by
  unfold State.grantLine
  refine ite h ?_
  split
  · exact h
  · exact h.holdLine.serveReads.drainWrites.recheckFences

theorem snoopAnswer {txn line} (h : s.Canonical) : (s.snoopAnswer txn line).Canonical := h.sendFlit

theorem snoopShared {txn line} (h : s.Canonical) : (s.snoopShared txn line).Canonical :=
  ite h (ite (elsewhereLink h.snoopAnswer) h.snoopAnswer)

theorem snoopInv {txn line} (h : s.Canonical) : (s.snoopInv txn line).Canonical :=
  ite h (drainWrites (elsewhereLink h.snoopAnswer))

theorem travoDown (h : s.Canonical) : s.travoDown.Canonical :=
  recheckFences (foldl (markLasting (elsewhereLink h.setFlag.setFlag.setFld)) fun _ _ h => h.companionAnswer)

theorem travoReplay (h : s.Canonical) : s.travoReplay.Canonical :=
  ite h.travoDown (foldl (countWrap (elsewhereLink h)) fun _ _ h => h.emit)

theorem travoReceive {msg seq ack nak crcOk} (h : s.Canonical) : (s.travoReceive msg seq ack nak crcOk).Canonical := by
  refine ite h (ite (ite h.eccEvent.travoDown (emit (elsewhereLink h.eccEvent))) (changeIf (changeUnless ?_ countWrap) travoReplay))
  exact changeIf (elsewhereLink h) fun h => elsewhereLink h

-- The functions of Machine/Ports --------------------------------------------------------------------------------------

theorem portEnable {p v} (h : s.Canonical) : (s.portEnable p v).Canonical :=
  ite h.writePlain (ite (ite h.writePlain.portDown (ite h.writePlain.enterPort h.writePlain)) h.writePlain.portDown.onPort.showLanes)

-- The functions of Machine/Forward ------------------------------------------------------------------------------------

theorem forwardingFlip (h : s.Canonical) : s.forwardingFlip.Canonical :=
  setFlag (setFlag (foldl (elsewhere (foldl (elsewhere h) fun _ _ h => h.setReg)) fun _ _ h => h.setReg))

-- The functions of Machine/HgDispatch ---------------------------------------------------------------------------------

theorem sendLine {e node region o data poison isSeal} (h : s.Canonical) : (s.sendLine e node region o data poison isSeal).Canonical :=
  ite h.landStore h.issueOp

theorem sendLines {e node region o data poison} (h : s.Canonical) : (s.sendLines e node region o data poison).Canonical :=
  foldl h fun _ _ h => h.sendLine

theorem failDispatch {p fails} (h : s.Canonical) : (s.failDispatch p fails).Canonical :=
  abandonStep (foldl h fun _ _ h => h.zoneOverflow)

theorem writeList {p z rs} (h : s.Canonical) : (s.writeList p z rs).Canonical := by
  refine of_def (f := @State.writeList) (fun f => (f s p z rs).Canonical) (by delta State.writeList; exact rfl) ?_
  exact h.writeLocal.writeLocal

theorem recordRow {p r} (h : s.Canonical) : (s.recordRow p r).2.2.Canonical := by
  unfold State.recordRow
  refine iteThird ?_ h.readLocal
  split
  · exact h.readLocal
  · exact h

theorem sendList {p z rs} (h : s.Canonical) : (s.sendList p z rs).Canonical := by
  unfold State.sendList
  extract_lets -underBinder l region t1 e0 t2 t3 stores t4 own t5
  have h3 : t3.Canonical := foldl h.writeList.sendLines fun _ _ h => h.recordRow.sendLines
  have h5 : t5.Canonical := h3.sendLine.countWrap
  exact ite h5.countWrap h5.countWrap

theorem boardOtherRacks {p} (h : s.Canonical) : (s.boardOtherRacks p).Canonical := foldl h fun _ _ h => ite h.writeLocal h

theorem boardSwaps {par} (h : s.Canonical) : (s.boardSwaps par).Canonical := by
  dsimp only [State.boardSwaps]
  split
  · exact h
  · exact foldl (foldlSnd h fun _ _ h => h.readEntries) fun _ _ h => ite h (foldl h fun _ _ h => ite h.writeLocal (ite h.issueOp h))

theorem runSwaps (h : s.Canonical) : s.runSwaps.Canonical := foldl (elsewhere h) fun _ _ h => h.boardSwaps

theorem sortAndDispatch (h : s.Canonical) : s.sortAndDispatch.Canonical := by
  unfold State.sortAndDispatch
  split
  · exact h
  · exact ite h.failDispatch (runSwaps (regionRelease (foldl h.boardOtherRacks.setStep fun _ _ h => ite h h.sendList)))

theorem gatewayRelay (h : s.Canonical) : s.gatewayRelay.Canonical := by
  unfold State.gatewayRelay
  split
  · exact h
  · exact ite h (ite (failDispatch (foldlSnd h fun _ _ h => h.readEntries)) (runSwaps (foldl (setStep
        (foldlSnd h fun _ _ h => h.readEntries)) fun _ _ h => h.sendList)))

theorem sendReturn {o z i row poison} (h : s.Canonical) : (s.sendReturn o z i row poison).Canonical := h.sendLines.countWrap

theorem sendReturnSeal {o z n} (h : s.Canonical) : (s.sendReturnSeal o z n).Canonical := sendLine (ite h.sendLines h)

theorem finishOwner {o} (h : s.Canonical) : (s.finishOwner o).Canonical :=
  ite h (foldl (elsewhere h) fun _ _ h => ite h h.sendReturnSeal)

theorem finishOwners (h : s.Canonical) : s.finishOwners.Canonical := foldl h fun _ _ h => h.finishOwner

theorem slotUnknown {slot sender kind layer} (h : s.Canonical) : (s.slotUnknown slot sender kind layer).Canonical :=
  h.countSat.fault

theorem pushShapes {o} (h : s.Canonical) : (s.pushShapes o).Canonical := by
  unfold State.pushShapes
  extract_lets -underBinder r t
  have ht : t.Canonical := by
    refine foldlThird (r := ([], false, s)) h fun r x h => iteThird h ?_
    split
    next e => exact h.pushNow.of_snd e
  exact elsewhere ht

theorem takeOwner {par} (h : s.Canonical) : (s.takeOwner par).Canonical := by
  unfold State.takeOwner
  extract_lets -underBinder zs
  clear_value zs
  cases zs with
  | nil => exact h
  | cons z0 _ =>
    dsimp only
    refine foldl (ite (elsewhere ?_) (zoneOverflow (elsewhere ?_))) fun _ _ h => foldl h fun _ _ h => ?_
    · exact foldlSnd (r := ([], s)) h fun _ _ h => h.readEntries
    · exact foldlSnd (r := ([], s)) h fun _ _ h => h.readEntries
    · split
      · exact sendReturn (ite h.slotUnknown h)
      · exact ite h h.sendReturn

theorem shapeRecords (h : s.Canonical) : s.shapeRecords.Canonical :=
  runSwaps (finishOwners (ite (foldl h fun _ _ h => h.takeOwner) (foldl (foldl h fun _ _ h => h.takeOwner) fun _ _ h => h.pushShapes)))

theorem returnRows {o w fault} (h : s.Canonical) : (s.returnRows o w fault).2.Canonical := by
  dsimp only [State.returnRows]
  refine foldlSnd h fun _ _ h => ?_
  split
  · exact h
  · exact sendReturn (iteThird h.readLocal.readLocal h.readLocal)

theorem doneItem (h : s.Canonical) : s.doneItem.Canonical := by
  dsimp only [State.doneItem]
  refine ite h ?_
  split
  · exact h.popNow
  · split
    · exact h.popNow.slotUnknown
    · split
      · exact h.popNow.slotUnknown
      · exact ite h.popNow.slotUnknown (runSwaps (finishOwners (elsewhere h.popNow.returnRows)))

theorem returnRow {p r} (h : s.Canonical) : (s.returnRow p r).2.Canonical := by
  refine of_def (f := @State.returnRow) (fun f => Yields (·.2) (f s p r)) (by delta State.returnRow; exact rfl) ?_
  obtain ⟨read, hread⟩ : ∃ f, f = @State.readLocal := ⟨_, rfl⟩
  have hr {s : State} {who a n} (h : s.Canonical) : (read s who a n).2.2.Canonical := hread ▸ h.readLocal
  rw [← hread]
  split
  · exact h
  · extract_lets -underBinder
    split
    next e =>
      have ht := (hr h).of_third e
      refine iteYields ht (iteYields ?_ ht)
      split
      next e =>
        have ht := (hr ht).of_third e
        exact iteYields ht ht

theorem accClaims : ∀ {rs p bf acc} {s : State}, s.Canonical → (s.accClaims p bf rs acc).2.Canonical
  | [], _, _, _, _, h => h
  | _ :: _, _, _, _, _, h => by
    unfold State.accClaims
    dsimp only
    split
    · exact h.returnRow
    · exact h.returnRow.accClaims

theorem combineToken {p t} (h : s.Canonical) : (s.combineToken p t).Canonical := by
  dsimp only [State.combineToken]
  refine ite h.poisonRow.countWrap (ite (countWrap (poisonRow (iteThird h.readLocal h))) ?_)
  split
  · exact countWrap (poisonRow (accClaims (iteThird h.readLocal h)))
  · exact countWrap (writeLocal (accClaims (iteThird h.readLocal h)))

theorem sealBy {es region layer} (h : s.Canonical) : (s.sealBy es region layer).Canonical := foldl h fun _ _ h => h.sealAll

theorem endStep {p} (h : s.Canonical) : (s.endStep p).Canonical := elsewhere h

theorem relayReturns {p} (h : s.Canonical) : (s.relayReturns p).Canonical := by
  dsimp only [State.relayReturns]
  refine foldl h fun _ _ h => sendReturnSeal (foldlSnd h fun _ _ h => ?_)
  split
  · exact h.sendReturn
  · split
    · exact h.sendReturn
    · exact sendReturn (iteThird h.readLocal.readLocal h.readLocal)

theorem combine (h : s.Canonical) : s.combine.Canonical := by
  unfold State.combine
  split
  · exact h
  · exact ite h (endStep (sealBy (foldl h.relayReturns fun _ _ h => h.combineToken)))

theorem missDeadline {at_} (h : s.Canonical) : (s.missDeadline at_).Canonical := by
  unfold State.missDeadline
  split
  · exact h
  · exact ite h (elsewhere (endStep (fault (countSat (sealBy (foldl h fun _ _ h => ite h.combineToken h.poisonRow.countWrap))))))

theorem exchangeDeadline (h : s.Canonical) : s.exchangeDeadline.Canonical := h.missDeadline

-- The functions of Machine/Jorper -------------------------------------------------------------------------------------

theorem dmaPump (h : s.Canonical) : s.dmaPump.Canonical := by
  dsimp only [State.dmaPump]
  refine foldl h fun _ _ h => foldl h fun _ _ h => ?_
  split
  · exact h
  · exact foldl h.setCluster fun _ _ h => h.issueOp

theorem refuseOp {q} (h : s.Canonical) : (s.refuseOp q).Canonical := h.unmapped.deliver

theorem localOp {q} (h : s.Canonical) : (s.localOp q).Canonical := by
  dsimp only [State.localOp]
  refine ite (ite h.refuseOp ?_) ?_
  · split
    · exact h.atomicAt.deliver
    · exact h.atomicAt.deliver
    · exact h.refuseOp
  · split
    · exact ite h.refuseOp (ite h.readLocal.deliver h.writeLocalBe.poisonReached.deliver)
    · exact ite h.refuseOp (ite h.readLocal.deliver h.writeLocalBe.poisonReached.deliver)
    · exact ite h.refuseOp (ite h.readLocal.deliver h.writeLocalBe.poisonReached.deliver)
    · exact ite h.companionLoad h.companionWrite
    · exact h.refuseOp

theorem issueAny {q} (h : s.Canonical) : (s.issueAny q).Canonical := ite h.issueOp h.localOp

theorem atomPort {i v} (h : s.Canonical) : (s.atomPort i v).Canonical := h.issueAny

theorem atomNext : ∀ {fuel i} {s : State}, s.Canonical → (State.atomNext i fuel s).Canonical
  | 0, _, _, h => h
  | _ + 1, _, _, h => by
    unfold State.atomNext
    refine ite h ?_
    split
    · exact h
    · exact h.onCore.atomPort.atomNext

theorem atomPump (h : s.Canonical) : s.atomPump.Canonical := foldl h fun _ _ h => h.atomNext

theorem afterClose (h : s.Canonical) : s.afterClose.Canonical := h.acceptWaiting.dmaPump.atomPump.runSwaps

theorem loadIssue {who mgmt addr len sink} (h : s.Canonical) : (s.loadIssue who mgmt addr len sink).Canonical :=
  ite h (ite (afterClose (foldl h fun _ _ h => h.issueAny)) h.issueAny.afterClose)

theorem storeIssue {who mgmt addr be data poison ilen} (h : s.Canonical) : (s.storeIssue who mgmt addr be data poison ilen).Canonical := by
  unfold State.storeIssue
  refine ite h (afterClose (?_))
  split
  · exact onCore (ite (foldl h fun _ _ h => h.issueAny) h.issueAny)
  · exact ite (foldl h fun _ _ h => h.issueAny) h.issueAny

theorem atomicIssue {who mgmt addr aop wide signed opnd swap sink} (h : s.Canonical) :
    (s.atomicIssue who mgmt addr aop wide signed opnd swap sink).Canonical :=
  ite h h.issueAny.afterClose

theorem fence {who} (h : s.Canonical) : (s.fence who).Canonical := by
  unfold State.fence
  split
  · exact h
  · exact ite h.onCore.fenceCheck h

theorem amo {who op wide rd rs1 rs2} (h : s.Canonical) : (s.amo who op wide rd rs1 rs2).Canonical := by
  unfold State.amo
  split
  · exact h
  · exact ite h h.issueAny.afterClose

theorem lrSc {who rs1} (h : s.Canonical) : (s.lrSc who rs1).Canonical := by
  unfold State.lrSc
  split
  · exact h
  · exact ite h.trapCore h

theorem atomCtrl {n k v} (h : s.Canonical) : (s.atomCtrl n k v).Canonical := ite h (ite h.onCore h.atomPort.afterClose)

theorem drainCell {d c t} (h : s.Canonical) (hc : s.drainCell d = some (c, t)) : t.Canonical := by
  unfold State.drainCell at hc
  split at hc
  · exact nomatch hc
  · split at hc
    · exact nomatch hc
    · obtain ⟨_, rfl⟩ := Prod.mk.inj (Option.some.inj hc)
      exact elsewhere h

theorem skipMalformed : ∀ {fuel d} {s : State}, s.Canonical → (State.skipMalformed fuel d s).Canonical
  | 0, _, _, h => h
  | _ + 1, _, _, h => by
    unfold State.skipMalformed
    split
    · exact h
    · next e => exact ite h (h.drainCell e).countWrap.skipMalformed

theorem nextCell {d want} (h : s.Canonical) : (s.nextCell d want).2.Canonical := by
  unfold State.nextCell
  dsimp only
  split
  · exact h.skipMalformed
  · exact iteSnd (h.skipMalformed.drainCell ‹_›) h.skipMalformed

theorem sendAnswer {d c op status lenW offset payload} (h : s.Canonical) : (s.sendAnswer d c op status lenW offset payload).Canonical :=
  injectCell (elsewhere h)

theorem countRefused {status} (h : s.Canonical) : (s.countRefused status).Canonical := ite h h.countWrap

theorem unlessExpired {c f} (h : s.Canonical) (hf : (f s).Canonical) : (s.unlessExpired c f).Canonical :=
  ite h.countWrap hf

theorem serveLoadCell {d} (h : s.Canonical) : (s.serveLoadCell d).Canonical := by
  unfold State.serveLoadCell
  split
  · exact h.nextCell.of_snd ‹_›
  · have ht := h.nextCell.of_snd ‹_›
    exact ht.unlessExpired (sendAnswer (countRefused (iteThird ht.serveLoad ht.countWrap)))

theorem sendAck {key} (h : s.Canonical) : (s.sendAck key).Canonical := by
  unfold State.sendAck
  split
  · exact h
  · exact sendAnswer (elsewhere h)

theorem gatherAck {d c status} (h : s.Canonical) : (s.gatherAck d c status).Canonical := ite (sendAck (elsewhere h)) (elsewhere h)

theorem serveStoreCell {d} (h : s.Canonical) : (s.serveStoreCell d).Canonical := by
  unfold State.serveStoreCell
  split
  · exact h.nextCell.of_snd ‹_›
  · have ht := h.nextCell.of_snd ‹_›
    exact runSwaps (ht.unlessExpired (gatherAck (countRefused (iteSnd ht.serveStore ht.countWrap))))

theorem serveAtomicCell {d aop} (h : s.Canonical) : (s.serveAtomicCell d aop).Canonical := by
  unfold State.serveAtomicCell
  split
  · exact h.nextCell.of_snd ‹_›
  · have ht := h.nextCell.of_snd ‹_›
    exact ht.unlessExpired (sendAnswer (countRefused (iteThird ht.atomicAt ht.countWrap)))

theorem takeAnswer {d op node tag status data} (h : s.Canonical) : (s.takeAnswer d op node tag status data).Canonical := by
  dsimp only [State.takeAnswer]
  split
  · exact h.refusedRecord.closeOp
  · exact ite (opRecord (elsewhere h.countWrap)) (elsewhere h.countWrap)

theorem takeLoadRsp {d} (h : s.Canonical) : (s.takeLoadRsp d).Canonical := by
  unfold State.takeLoadRsp
  split
  · exact h.nextCell.of_snd ‹_›
  · exact (h.nextCell.of_snd ‹_›).takeAnswer.afterClose

theorem takeAtomicRsp {d} (h : s.Canonical) : (s.takeAtomicRsp d).Canonical := by
  unfold State.takeAtomicRsp
  split
  · exact h.nextCell.of_snd ‹_›
  · exact (h.nextCell.of_snd ‹_›).takeAnswer.afterClose

theorem takeAck {d} (h : s.Canonical) : (s.takeAck d).Canonical := by
  unfold State.takeAck
  split
  · exact h.nextCell.of_snd ‹_›
  · exact afterClose (foldl (h.nextCell.of_snd ‹_›) fun _ _ h => h.takeAnswer)

theorem deadExpire {tag} (h : s.Canonical) : (s.deadExpire tag).Canonical := by
  unfold State.deadExpire
  split
  · exact h
  · exact ite h (afterClose (closeOp (elsewhere h.countWrap.opRecord)))

-- The functions of Machine/Scratch ------------------------------------------------------------------------------------

theorem bufferBusy {n b kind other} (h : s.Canonical) : (s.bufferBusy n b kind other).Canonical := h.fault

theorem fillBegin {n b} (h : s.Canonical) : (s.fillBegin n b).Canonical := ite h (ite h.setBufState h.bufferBusy)

theorem fillEnd {n b} (h : s.Canonical) : (s.fillEnd n b).Canonical := ite h (ite h.setBufState h.bufferBusy)

theorem freeBuf {n b} (h : s.Canonical) : (s.freeBuf n b).Canonical := ite h (ite h.setBufState.setBufPoison h.bufferBusy)

theorem bufWrite {n b v} (h : s.Canonical) : (s.bufWrite n b v).Canonical := by
  unfold State.bufWrite
  refine ite h (ite h.bufferBusy (ite h.bufferBusy ?_))
  split
  · exact h.bufferBusy
  · exact h.writePlain

theorem addReader {n b} (h : s.Canonical) : (s.addReader n b).Canonical := ite h.setBufReaders h

theorem dropReader {n x} (h : s.Canonical) : (s.dropReader n x).Canonical :=
  ite (ite h.setBufReaders.setBufState h.setBufReaders) h

theorem onCluster {n f} (h : s.Canonical) : (s.onCluster n f).Canonical := h.setCluster

theorem queueCounts {n} (h : s.Canonical) : (s.queueCounts n).Canonical := h.setFld.setFld.setFld

theorem enqueue {n win ws} (h : s.Canonical) : (s.enqueue n win ws).Canonical := h.onCluster.queueCounts

theorem admitHeld {n} (h : s.Canonical) : (s.admitHeld n).Canonical := foldl h.onCluster fun _ _ h => ite h.enqueue h.onCluster

theorem pushWords {n win size core off ws} (h : s.Canonical) : (s.pushWords n win size core off ws).Canonical :=
  ite h (ite h.onCluster (ite h.onCluster.enqueue h.onCluster.onCluster))

theorem tilePush {n core off ws} (h : s.Canonical) : (s.tilePush n core off ws).Canonical := h.pushWords

theorem dmaPush {n e core off ws} (h : s.Canonical) : (s.dmaPush n e core off ws).Canonical := h.pushWords

theorem vecPush {n core off ws} (h : s.Canonical) : (s.vecPush n core off ws).Canonical := h.pushWords

theorem flmPush {n core off ws} (h : s.Canonical) : (s.flmPush n core off ws).Canonical := h.pushWords

theorem retireIrq {n} (h : s.Canonical) : (s.retireIrq n).Canonical := ite h.raiseIrq h

theorem fillBuf {n from_ b} (h : s.Canonical) : (s.fillBuf n from_ b).Canonical := ite h (ite h.setBufState h.bufferBusy)

theorem retireBufs {n from_ r} (h : s.Canonical) : (s.retireBufs n from_ r).Canonical := by
  unfold State.retireBufs
  refine foldl ?_ fun _ _ h => h.dropReader
  split
  · exact ite (setBufPoison (foldl h fun _ _ h => h.fillBuf)) (foldl h fun _ _ h => h.fillBuf)
  · exact foldl h fun _ _ h => h.fillBuf

theorem tileRetire {n} (h : s.Canonical) : (s.tileRetire n).Canonical := by
  unfold State.tileRetire
  split
  · exact h
  · exact ite h (retireIrq (queueCounts (ite h.onCluster.retireBufs.countWrap.setFld.countWrap h.onCluster.retireBufs.countWrap.setFld)))

theorem vecRetire {n} (h : s.Canonical) : (s.vecRetire n).Canonical := by
  unfold State.vecRetire
  split
  · exact h
  · exact ite h (retireIrq (queueCounts (setFld (countWrap (ite
        (foldl h.onCluster.retireBufs fun _ _ h => h.setBufPoison) h.onCluster.retireBufs)))))

theorem tileInvalid {n block source tag kind b} (h : s.Canonical) : (s.tileInvalid n block source tag kind b).Canonical := h.fault

theorem checkRange : ∀ {ks n} {s : State}, s.Canonical → (s.checkRange n ks).2.Canonical
  | [], _, _, h => h
  | _ :: _, _, _, h => iteSnd h.checkWord.checkRange h.checkWord

theorem checkRanges : ∀ {rs n} {s : State}, s.Canonical → (s.checkRanges n rs).2.Canonical
  | [], _, _, h => h
  | _ :: _, _, _, h => by
    unfold State.checkRanges
    dsimp only
    split
    · exact h.checkRange
    · exact h.checkRange.checkRanges

theorem poisonedRecord {n block addr} (h : s.Canonical) : (s.poisonedRecord n block addr).Canonical := h.fault

theorem undefRows {k a stride len rows} (h : s.Canonical) : (s.undefRows k a stride len rows).Canonical := by
  dsimp only [State.undefRows]
  with_reducible exact foldl h fun _ _ h => h.takeFree.writeStore

-- The functions of Machine/Array --------------------------------------------------------------------------------------

theorem flumeFault {n code addr value kind source tag} (h : s.Canonical) : (s.flumeFault n code addr value kind source tag).Canonical :=
  fault (ite h.countSat h.countSat)

theorem tilePartials {n t} (h : s.Canonical) : (s.tilePartials n t).Canonical := ite h.undefRows h

theorem tileUndef {n t} (h : s.Canonical) : (s.tileUndef n t).Canonical := h.tilePartials.undefRows

theorem tileBad {n st a} (h : s.Canonical) : (s.tileBad n st a).Canonical := ite h.poisonedRecord h

theorem tileReads : ∀ {rs n t} {s : State}, s.Canonical → (s.tileReads n t rs).2.Canonical
  | [], _, _, _, h => h
  | _ :: _, _, _, _, h => by
    unfold State.tileReads
    split
    next e =>
      have ht := h.checkRanges.of_snd e
      split
      · exact ht.tileBad
      · split
        · exact ht.flumeFault
        · split
          next e =>
            have ht := ht.checkRanges.of_snd e
            split
            · exact ht.tileBad
            · exact ht.tileReads

theorem accFault {n t} (h : s.Canonical) : (s.accFault n t).Canonical := by
  dsimp only [State.accFault]
  with_reducible exact h.countWrap.uncorrectableDetail.fault.eccEvent

theorem setAccs {n pack sub vs} (h : s.Canonical) : (s.setAccs n pack sub vs).Canonical := h.onCluster

theorem tileFold {n t sub accBad} (h : s.Canonical) : (s.tileFold n t sub accBad).2.2.Canonical := by
  dsimp only [State.tileFold]
  split
  · exact h.tileReads.tileUndef.setAccs
  · exact iteThird h.tileReads.accFault.tileUndef.setAccs (setAccs (foldl h.tileReads.tilePartials fun _ _ h => h.countSat.writeStore))

theorem tileWork {n c sub accBad} (h : s.Canonical) : (s.tileWork n c sub accBad).2.2.Canonical := by
  dsimp only [State.tileWork]
  split
  · exact h.checkRanges.tileBad
  · split
    · exact h.checkRanges.tileInvalid
    · refine iteThird h.checkRanges.poisonedRecord (iteThird h.checkRanges ?_)
      split
      · exact h.checkRanges.checkRanges.tileBad
      · split
        · exact h.checkRanges.checkRanges.flumeFault
        · exact iteThird h.checkRanges.checkRanges h.checkRanges.checkRanges.tileFold

theorem matmul {n accBad} (h : s.Canonical) : (s.matmul n accBad).Canonical := by
  dsimp only [State.matmul]
  split
  · exact h
  · refine ite h ?_
    split
    · exact h
    · refine changeIf (queueCounts (admitHeld (setFld (onCluster (foldl ?_ fun _ _ h => h.setBufState))))) tileRetire
      exact foldl h.onCluster.tileWork fun _ _ h => h.addReader

-- The functions of Machine/Dma ----------------------------------------------------------------------------------------

theorem dmaRead {n e c p} (h : s.Canonical) : (s.dmaRead n e c p).Canonical := by
  unfold State.dmaRead
  refine ite h.issueOp ?_
  split
  · exact h.companionLoad
  · exact h.readLocal.dmaData

theorem dmaDone {n e} (h : s.Canonical) : (s.dmaDone n e).Canonical := h.countWrap.retireIrq

theorem countChunk {n c} (h : s.Canonical) : (s.countChunk n c).Canonical :=
  ite (countWrap (ite h.countWrap.countWrap h.countWrap)) h

theorem dmaStart {n e} (h : s.Canonical) : (s.dmaStart n e).Canonical := by
  dsimp only [State.dmaStart]
  split
  · exact h
  · refine ite h ?_
    split
    · exact h.onCluster.tileInvalid.dmaDone
    · exact ite h.onCluster.bufferBusy.dmaDone (runSwaps (acceptWaiting (dmaPump (foldl (onCluster
          (ite h.onCluster.countChunk.addReader h.onCluster.countChunk.addReader.setBufState)) fun _ _ h => h.dmaRead))))

theorem dmaComplete {n e} (h : s.Canonical) : (s.dmaComplete n e).Canonical := by
  dsimp only [State.dmaComplete]
  split
  · exact h
  · exact ite h (dmaDone (changeIf (changeIf (changeUnless h.onCluster dropReader) fillBuf) setFld))

-- The functions of Machine/Vector -------------------------------------------------------------------------------------

theorem vecRowOut {n c r} (h : s.Canonical) : (s.vecRowOut n c r).Canonical := by
  dsimp only [State.vecRowOut]
  refine ite ?_ ?_
  · split
    · exact h.writeStore
    · exact h.writeStore.countSat
  · split
    · exact writeStore (ite h.writeStore h)
    · exact ite h.writeStore h

theorem vecUndef {n c} (h : s.Canonical) : (s.vecUndef n c).Canonical :=
  changeIf (ite h (ite h.undefRows h.undefRows)) undefRows

theorem vecWork {n c} (h : s.Canonical) : (s.vecWork n c).2.2.Canonical := by
  dsimp only [State.vecWork]
  split
  · exact h.tileInvalid
  · refine iteThird h.poisonedRecord ?_
    split
    · exact ite h.checkRanges.poisonedRecord h.checkRanges.vecUndef
    · exact foldl h.checkRanges fun _ _ h => h.vecRowOut

theorem vecIssue {n op} (h : s.Canonical) : (s.vecIssue n op).Canonical := by
  dsimp only [State.vecIssue]
  split
  · exact h
  · refine ite h (changeIf (queueCounts (admitHeld (onCluster (foldl ?_ fun _ _ h => h.setBufState)))) vecRetire)
    exact foldl h.onCluster.vecWork fun _ _ h => h.addReader

-- The functions of Machine/Flume --------------------------------------------------------------------------------------

theorem closeAudit {n step} (h : s.Canonical) : (s.closeAudit n step).Canonical := by
  unfold State.closeAudit
  split
  · exact h
  · exact ite h h.onCluster.setFld.setFld.countSat

theorem addAudit {n step missed checked} (h : s.Canonical) : (s.addAudit n step missed checked).Canonical := by
  unfold State.addAudit
  exact h.closeAudit.onCluster

theorem copyWords : ∀ {fuel n src dst len} {s : State}, s.Canonical → (s.copyWords n fuel src dst len).Canonical
  | 0, _, _, _, _, _, h => h
  | _ + 1, _, _, _, _, _, h => ite h h.readLocal.writeData.copyWords

theorem readWord {n a len} (h : s.Canonical) : (s.readWord n a len).2.Canonical := h.readLocal

theorem walkIndices : ∀ {fuel n idxAt rowAt fits limit j} {s : State}, s.Canonical →
    (s.walkIndices n idxAt rowAt fits limit fuel j).2.Canonical
  | 0, _, _, _, _, _, _, _, h => h
  | _ + 1, _, _, _, _, _, _, _, h => by
    unfold State.walkIndices
    split
    next e =>
      have ht := h.readWord.of_snd e
      split
      · exact ht
      · refine iteSnd ht (iteSnd ht ?_)
        split
        next e =>
          have ht := ht.walkIndices.of_snd e
          split
          · exact ht
          · exact ht

theorem walkRuns {fuel n r bytes limit k left} (h : s.Canonical) : (s.walkRuns n r bytes limit fuel k left).2.Canonical := by
  induction fuel generalizing s k left with
  | zero => exact iteSnd h h
  | succ fuel ih =>
    unfold State.walkRuns
    obtain ⟨addr, haddr⟩ : ∃ f, f = regionAddr := ⟨_, rfl⟩
    rw [← haddr]
    refine iteSnd h ?_
    split
    next e =>
      have ht := h.readWord.of_snd e
      split
      · exact ht
      · refine iteSnd ht ?_
        extract_lets -underBinder rowAt
        split
        next e =>
          have ht := ht.walkIndices.of_snd e
          split
          · exact ht
          · split
            next e =>
              have ht := (ih ht).of_snd e
              split
              · exact ht
              · exact ht

theorem undefBuf {n b} (h : s.Canonical) : (s.undefBuf n b).Canonical := by
  dsimp only [State.undefBuf]
  with_reducible exact h.takeFree.writeStore

theorem flmComplete {n} (h : s.Canonical) : (s.flmComplete n).Canonical := by
  unfold State.flmComplete
  split
  · exact h
  · exact ite h (retireIrq (queueCounts (countWrap (setFld (countWrap (ite
        (foldl h.onCluster.retireBufs fun _ _ h => h.setBufPoison) h.onCluster.retireBufs))))))

theorem flmGather {n c} (h : s.Canonical) : (s.flmGather n c).state.Canonical := by
  unfold State.flmGather
  extract_lets -underBinder r m pred
  split
  next e =>
    have ht := of_snd (iteSnd (iteSnd h h.walkRuns) h.walkIndices) e
    split
    · exact ht
    · exact ht.flumeFault
    · refine foldl ht fun t x h => ?_
      exact ite h.copyWords h.copyWords.copyWords

theorem flmCompact {n c} (h : s.Canonical) : (s.flmCompact n c).state.Canonical := by
  unfold State.flmCompact
  extract_lets -underBinder
  split
  · exact h.flumeFault
  · refine foldl h fun t x h => ?_
    split
    · exact h
    · exact foldl (foldl h fun _ _ h => h.writeStore) fun _ _ h => h.writeStore

theorem flmMask {n c} (h : s.Canonical) : (s.flmMask n c).state.Canonical :=
  h.closeAudit.writeStore.countWrap.countWrap

theorem flmCheck {n c} (h : s.Canonical) : (s.flmCheck n c).state.Canonical :=
  h.writeStore.countWrap.countWrap.countWrap.addAudit

theorem flmMerge {n c} (h : s.Canonical) : (s.flmMerge n c).state.Canonical := by
  unfold State.flmMerge
  extract_lets -underBinder
  split
  · exact h.flumeFault
  · exact (writeStore (foldl h fun _ _ h => h.writeStore)).countWrap

theorem flmWork {n c} (h : s.Canonical) : (s.flmWork n c).state.Canonical := by
  unfold State.flmWork
  extract_lets -underBinder stop
  have hstop {st a} {s : State} (h : s.Canonical) : (stop st a s).state.Canonical := by
    exact ite h.poisonedRecord h
  split
  next e => exact hstop (h.checkRanges.of_snd e)
  next e =>
    have ht := h.checkRanges.of_snd e
    split
    · exact ht.tileInvalid
    · split
      · exact ht.poisonedRecord
      · split
        next e => exact hstop (ht.checkRanges.of_snd e)
        next e =>
          have ht := ht.checkRanges.of_snd e
          split
          · exact ht.flmGather
          · exact ht.flmCompact
          · exact ht.flmMask
          · exact ht.flmCheck
          · exact ht.flmMerge

theorem flmIssue {n op} (h : s.Canonical) : (s.flmIssue n op).Canonical := by
  unfold State.flmIssue
  extract_lets -underBinder cl
  split
  · exact h
  · extract_lets -underBinder c mine t1 t2 e t3 t4 r t5 t6
    have h2 : t2.Canonical := foldl h.onCluster fun _ _ h => h.setBufState
    have h3 : t3.Canonical := foldl h2.flmWork fun _ _ h => h.addReader
    have h4 : t4.Canonical := ite (foldl h3 fun _ _ h => h.undefBuf) h3
    have h6 : t6.Canonical := h4.onCluster.admitHeld.queueCounts
    exact ite h (ite h6.flmComplete h6)

-- The functions of Machine/Collective ---------------------------------------------------------------------------------

theorem colLaunch {who ws} (h : s.Canonical) : (s.colLaunch who ws).Canonical := by
  dsimp only [State.colLaunch]
  split
  · exact h.fault.setFld
  · exact elsewhere h.setFlag.countWrap

theorem colWrite {op who off ws} (h : s.Canonical) : (s.colWrite op who off ws).Canonical := by
  unfold State.colWrite
  split
  · exact h
  · exact ite h (ite (elsewhere h) (colLaunch (elsewhere h)))

theorem interruptCore {i cause} (h : s.Canonical) : (s.interruptCore i cause).Canonical := fetchAt (ite h.onCore.onCore h.onCore)

theorem colEnter (h : s.Canonical) : s.colEnter.Canonical := foldl h fun _ _ h => elsewhere h.interruptCore

theorem colInterrupt (h : s.Canonical) : s.colInterrupt.Canonical :=
  ite h (colEnter (foldl (elsewhere h) fun _ _ h => h.raiseIrq))

theorem colComplete {given laggard skew resends} (h : s.Canonical) : (s.colComplete given laggard skew resends).Canonical := by
  unfold State.colComplete
  extract_lets -underBinder d known status lead seq item t1 t2 t3 t4 t5 t6 t7 t8 t9 spent t10 t11 t12
  have h2 : t2.Canonical := changeIf (ite h h.fault.countWrap) fun h => ite h.pushNow h.pushNow.countSat
  have h9 : t9.Canonical := h2.setFld.setFld.setFld.setFlag.setFld.setFld.setReg
  have h11 : t11.Canonical := foldl (foldl h9 fun _ _ h => h.countWrap) fun _ _ h => foldl h fun _ _ h => h.onCore
  exact startHeld (elsewhere (foldl h11 fun _ _ h => h.onCore))

theorem colCheck (h : s.Canonical) : s.colCheck.Canonical := ite h.colComplete h

theorem colFinish {n v} (h : s.Canonical) : (s.colFinish n v).Canonical := ite h (colCheck (elsewhere h))

theorem colFinishRes {n v} (h : s.Canonical) : (s.colFinishRes n v).Canonical := elsewhere h

theorem colDeadline (h : s.Canonical) : s.colDeadline.Canonical := ite h h.colComplete

theorem colRetire {n} (h : s.Canonical) : (s.colRetire n).Canonical := ite h (colCheck (elsewhere h))

-- The functions of Machine/Rings --------------------------------------------------------------------------------------

theorem ringInvalid {r kind v} (h : s.Canonical) : (s.ringInvalid r kind v).Canonical := h.fault

theorem ringWrite {r word v} (h : s.Canonical) : (s.ringWrite r word v).Canonical :=
  ite h (ite h.ringInvalid (ite h.writePlain.setRing h.writePlain))

theorem dbTail {r v} (h : s.Canonical) : (s.dbTail r v).Canonical :=
  ite h (ite h.ringInvalid (ite h.ringInvalid (ite h.ringInvalid h.setRing)))

theorem dbHead {r v} (h : s.Canonical) : (s.dbHead r v).Canonical :=
  ite h (ite h.ringInvalid (ite h.ringInvalid (ite h.ringInvalid h.setRing)))

theorem pollRead {r} (h : s.Canonical) : (s.pollRead r).2.Canonical := by
  unfold State.pollRead
  refine iteSnd h (iteSnd h.countWrap ?_)
  split
  · exact h
  · exact h.countWrap

theorem ucAnswer {txn status addr poison data} (h : s.Canonical) : (s.ucAnswer txn status addr poison data).Canonical :=
  h.sendFlit

theorem poll {txn r} (h : s.Canonical) : (s.poll txn r).Canonical := h.pollRead.ucAnswer

theorem drainEvents : ∀ {fuel} {s : State}, s.Canonical → (State.drainEvents fuel s).Canonical
  | 0, _, h => h
  | _ + 1, _, h => by
    unfold State.drainEvents
    split
    · exact h
    · exact ite (drainEvents (eventToRing (elsewhere h))) h

theorem eventRecordWrite (h : s.Canonical) : s.eventRecordWrite.Canonical := h.drainEvents

-- The functions of Machine/Requests -----------------------------------------------------------------------------------

theorem settleRunnable {j} (h : s.Canonical) : (s.settleRunnable j).Canonical := ite h.setFlag.setFld h.setFlag

theorem readSession {id} (h : s.Canonical) : (s.readSession id).2.2.Canonical := h.readLocal

theorem writeSession {id bs} (h : s.Canonical) : (s.writeSession id bs).Canonical := h.writeLocal

theorem setActive {id b} (h : s.Canonical) : (s.setActive id b).Canonical := h.readSession.writeSession

theorem poolPush {job a} (h : s.Canonical) : (s.poolPush job a).Canonical := ite h.writeLocal.setFld h

theorem poolPop {job} (h : s.Canonical) : (s.poolPop job).2.Canonical := by
  dsimp only [State.poolPop]
  split
  · with_reducible exact h
  · with_reducible exact h.readLocal.setFld

theorem setKv {id x} (h : s.Canonical) : (s.setKv id x).Canonical := elsewhereLink h

theorem closeSession {id job} (h : s.Canonical) : (s.closeSession id job).Canonical :=
  writeSession (readSession (setKv (foldl h fun _ _ h => h.poolPush)))

theorem countOutcome {st} (h : s.Canonical) : (s.countOutcome st).Canonical :=
  ite h.countWrap.countWrap (ite h.countWrap.countWrap (ite h.countWrap.countWrap (ite h.countWrap.countWrap h.countWrap)))

theorem missRecord {st ring} (h : s.Canonical) : (s.missRecord st ring).Canonical := ite h.faultOncePerWindow h

theorem commitOne {q st detail} (h : s.Canonical) : (s.commitOne q st detail).Canonical := by
  refine settleRunnable (missRecord (countOutcome (changeIf (elsewhereLink (setRing (ringAppend ?_))) setActive)))
  exact changeUnless h fun h => companionWrite (changeUnless h companionWrite)

theorem commit {q st detail} (h : s.Canonical) : (s.commit q st detail).Canonical :=
  ite h.commitOne (foldl h.commitOne fun _ _ h => h.closeSession.commitOne)

theorem enterTable {q} (h : s.Canonical) : (s.enterTable q).Canonical := elsewhereLink h

theorem mapRequests {f} (h : s.Canonical) : (s.mapRequests f).Canonical := elsewhereLink h

theorem letIn {q e} (h : s.Canonical) : (s.letIn q e).Canonical :=
  ite h.commit (ite h.commit (ite h.enterTable.setActive.commit h.enterTable.setActive))

theorem abortRequest {q} (h : s.Canonical) : (s.abortRequest q).Canonical := ite h.mapRequests h.commit

theorem abortTarget {tr p} (h : s.Canonical) : (s.abortTarget tr p).2.Canonical := by
  unfold State.abortTarget
  refine iteSnd h ?_
  split
  · exact iteSnd h h.abortRequest
  · exact iteSnd (iteSnd h (elsewhereLink h)) h

theorem sessionClose {q} (h : s.Canonical) : (s.sessionClose q).Canonical :=
  ite (enterTable (foldl h fun _ _ h => h.abortRequest)) (commit (closeSession (foldl h fun _ _ h => h.abortRequest)))

theorem sessionSet {q e image} (h : s.Canonical) : (s.sessionSet q e image).Canonical := ite h.commit h.writeSession.setKv.commit

theorem requestActs {q d e image imageBad} (h : s.Canonical) : (s.requestActs q d e image imageBad).Canonical := by
  unfold State.requestActs
  split
  · exact h.letIn
  · exact h.letIn
  · exact ite h.commit h.sessionSet
  · exact h.sessionClose
  · split
    next e => exact (h.abortTarget.of_snd e).commit
  · exact h.enterTable.pushNow

theorem consumeFrom {j r d bad image imageBad} (h : s.Canonical) : (s.consumeFrom j r d bad image imageBad).Canonical := by
  unfold State.consumeFrom
  refine settleRunnable (ite (commit (elsewhereLink (ringWriteBack ?_))) (ite (commit (ringWriteBack ?_)) ?_))
  · exact elsewhereLink h.setRing.setRing.countWrap
  · exact elsewhereLink h.setRing.setRing.countWrap
  · split
    next e =>
      have ht := (readSession (ringWriteBack (elsewhereLink h.setRing.setRing.countWrap))).of_third e
      split
      · exact ht.commit
      · exact ite ht.commit ht.requestActs

theorem consume {op desc bad image imageBad} (h : s.Canonical) : (s.consume op desc bad image imageBad).Canonical := by
  unfold State.consume
  split
  · exact h
  · refine ite h (ite (ite (elsewhereLink h) h) ?_)
    split
    · exact h
    · exact ite h h.consumeFrom

theorem prefill {desc bad} (h : s.Canonical) : (s.prefill desc bad).Canonical := h.consume

theorem generate {desc bad} (h : s.Canonical) : (s.generate desc bad).Canonical := h.consume

theorem sessionSetRequest {desc bad image imageBad} (h : s.Canonical) : (s.sessionSetRequest desc bad image imageBad).Canonical :=
  h.consume

theorem sessionCloseRequest {desc bad} (h : s.Canonical) : (s.sessionCloseRequest desc bad).Canonical := h.consume

theorem abortRequestEntry {desc bad} (h : s.Canonical) : (s.abortRequestEntry desc bad).Canonical := h.consume

theorem callRequest {desc bad} (h : s.Canonical) : (s.callRequest desc bad).Canonical := h.consume

theorem callReturn (h : s.Canonical) : s.callReturn.Canonical := by
  dsimp only [State.callReturn]
  split
  · exact h
  · split
    · exact h.popNow
    · split
      · exact h.popNow.countWrap
      · exact h.popNow.commit

theorem commitNext (h : s.Canonical) : s.commitNext.Canonical := by
  unfold State.commitNext
  split
  · exact h
  · exact h.readSession.commit

-- The functions of Machine/Steps --------------------------------------------------------------------------------------

theorem setRequest {q} (h : s.Canonical) : (s.setRequest q).Canonical := h.mapRequests

theorem stepGenerate {q t prob} (h : s.Canonical) : (s.stepGenerate q t prob).Canonical :=
  setRequest (ite h.readSession.writeSession.ringAppend h.readSession.writeSession)

theorem stepPrefill {q t} (h : s.Canonical) : (s.stepPrefill q t).Canonical := h.readSession.writeSession.setRequest

theorem stepResult {rs q} (h : s.Canonical) : (s.stepResult rs q).Canonical := by
  unfold State.stepResult
  split
  · exact h.setRequest
  · exact ite h.stepGenerate h.stepPrefill

theorem stepEnds {q} (h : s.Canonical) : (s.stepEnds q).Canonical := ite (ite h.commit h) (ite h.setRequest h)

theorem grantSlots : ∀ {fuel j} {s : State}, s.Canonical → (State.grantSlots j fuel s).Canonical
  | 0, _, _, h => h
  | _ + 1, _, _, h => by
    unfold State.grantSlots
    refine ite h ?_
    split
    · exact h
    · exact grantSlots (setRequest (elsewhereLink h))

theorem putBlockWord {a v} (h : s.Canonical) : (s.putBlockWord a v).Canonical := h.issueAny

theorem addPage {id job t} (h : s.Canonical) (ht : s.addPage id job = some t) : t.Canonical := by
  unfold State.addPage at ht
  dsimp only at ht
  split at ht
  · exact nomatch ht
  next e =>
    have hp := h.poolPop.of_snd e
    split at ht
    · split at ht
      · exact nomatch ht
      next e =>
        have hq := hp.poolPop.of_snd e
        exact Option.some.inj ht ▸ (putBlockWord (ite hq hq.putBlockWord)).setKv.readSession.writeSession
    · exact Option.some.inj ht ▸ hp.putBlockWord.setKv.readSession.writeSession

theorem takePages : ∀ {fuel id job n} {s : State}, s.Canonical → (State.takePages id job n fuel s).2.Canonical
  | 0, _, _, _, _, h => h
  | _ + 1, _, _, _, _, h => by
    unfold State.takePages
    refine iteSnd h ?_
    split
    · exact h
    · exact (h.addPage ‹_›).takePages

theorem joinStep {q} (h : s.Canonical) : (s.joinStep q).Canonical := by
  dsimp only [State.joinStep]
  with_reducible exact ite h.readSession.countWrap (ite h.readSession.takePages.setRequest h.readSession.takePages.commit)

theorem measureStep {j prefill} (h : s.Canonical) : (s.measureStep j prefill).Canonical := by
  unfold State.measureStep
  split
  · exact h
  · exact elsewhereLink h

theorem pushStep {j} (h : s.Canonical) : (s.pushStep j).Canonical :=
  ite h.mapRequests (elsewhereLink (foldl h fun _ _ h => h.pushNow))

theorem stepBoundary {rs} (h : s.Canonical) : (s.stepBoundary rs).Canonical := by
  dsimp only [State.stepBoundary]
  split
  · exact h
  · exact ite h (acceptWaiting (pushStep (foldl (grantSlots (foldl (ite (foldl h fun _ _ h => h.stepResult) (measureStep
        (foldl h fun _ _ h => h.stepResult))) fun _ _ h => h.stepEnds)) fun _ _ h => h.joinStep)))

theorem closeAdmission (h : s.Canonical) : s.closeAdmission.Canonical := by
  unfold State.closeAdmission
  refine elsewhereLink (ite (countWrap (?_)) ?_)
  · split
    · exact h
    · exact h.setFld.setFld
  · split
    · exact h
    · exact h.setFld.setFld

-- The functions of Machine/Context ------------------------------------------------------------------------------------

theorem failJob {j} (h : s.Canonical) : (s.failJob j).Canonical := h.setFld

theorem setDeficit {j d} (h : s.Canonical) : (s.setDeficit j d).Canonical := h.setFld

theorem loadContext {c} (h : s.Canonical) : (s.loadContext c).Canonical := setFlag (elsewhere h)

theorem sweepRange {src n} (h : s.Canonical) : (s.sweepRange src n).2.Canonical := foldlSnd h fun _ _ h => h.checkWord

theorem dropMarks {dst n} (h : s.Canonical) : (s.dropMarks dst n).Canonical := elsewhere h

theorem moveStore {src dst n} (h : s.Canonical) : (s.moveStore src dst n).Canonical := by
  unfold State.moveStore
  refine foldl ?_ fun _ _ h => foldl h fun _ _ h => h.poisonWord
  exact ⟨memReplace_wf _ _ _ h.sweepRange.mem, h.sweepRange.cmem⟩

theorem saveContext {j} (h : s.Canonical) : (s.saveContext j).Canonical := by
  unfold State.saveContext
  split
  · exact h
  · exact foldl (dropMarks (elsewhere h)) fun _ _ h => h.moveStore

theorem imageBad {base} (h : s.Canonical) : (s.imageBad base).2.Canonical := h.sweepRange

theorem applyCanon {j} (h : s.Canonical) : (s.applyCanon j).Canonical := foldl h fun _ _ h => h.setFlag

theorem reloadContext {j base} (h : s.Canonical) : (s.reloadContext j base).Canonical := by
  refine changeUnless (foldl (applyCanon (loadContext ?_)) fun _ _ h => h.queueCounts) setFlag
  exact foldl h fun _ _ h => h.moveStore

theorem swapDone (h : s.Canonical) : s.swapDone.Canonical := by
  refine of_def (f := @State.swapDone) (fun f => (f s).Canonical) (by delta State.swapDone; exact rfl) ?_
  obtain ⟨parts, hparts⟩ : ∃ f, f = @State.swapParts := ⟨_, rfl⟩
  rw [← hparts]
  split
  · exact h
  next w rest _ =>
    extract_lets -underBinder sw t base far ps
    have ht : t.Canonical := elsewhere h
    split
    · exact ht.unmapped
    · refine ite ?_ ?_
      · split
        next r _ u e =>
          have hu : u.Canonical := by
            refine of_snd (foldlSnd (r := ([], t)) ht fun r p h => ?_) e
            exact h.sweepRange
          split
          · split
            next e => exact (hu.uncorrectableDetail.of_snd e).fault
          · refine ite hu (countWrap (setFlag (foldl hu fun s p h => ?_)))
            exact withLines h (memReplace_wf _ _ _ h.cmem)
      · refine countWrap (setFlag (setFld (foldl ?_ fun s p h => ?_)))
        · exact withMem (m := memZero _ _ _) (dropMarks ht) (memZero_wf _ _ ht.mem)
        · exact withMem h (memReplace_wf _ _ _ h.mem)

theorem chargeCycles {n} (h : s.Canonical) : (s.chargeCycles n).Canonical := by
  unfold State.chargeCycles
  split
  · exact h
  · exact ite (ite h h.countWrap) (countWrap (ite h h.countWrap))

-- The functions of Machine/Image --------------------------------------------------------------------------------------

theorem setReg256 {a bs} (h : s.Canonical) : (s.setReg256 a bs).Canonical := foldl h fun _ _ h => h.setReg

theorem extendMeas {m d} (h : s.Canonical) : (s.extendMeas m d).Canonical := by
  dsimp only [State.extendMeas]
  with_reducible exact elsewhere h.setReg256.takeFree

theorem toRecovery {code} (h : s.Canonical) : (s.toRecovery code).Canonical := h.setFld.setFld

theorem imageSteps {bytes len} (h : s.Canonical) : (s.imageSteps bytes len).2.Canonical :=
  iteSnd h.toRecovery (iteSnd h.toRecovery (setFld (setFld (setFld (extendMeas (extendMeas (elsewhere
      (foldl h fun _ _ h => h.extendMeas))))))))

theorem recovered (h : s.Canonical) : s.recovered.Canonical := ite (fault (elsewhere h)) h

theorem restartWm (h : s.Canonical) : s.restartWm.Canonical :=
  changeIf (imageSteps (setReg256 (setReg256 (elsewhere h)))) recovered

-- The functions of Machine/Switch -------------------------------------------------------------------------------------

theorem setVotedWord {a v} (h : s.Canonical) : (s.setVotedWord a v).Canonical := ite (elsewhere h) (ite (elsewhere h) h.setReg)

theorem halt (h : s.Canonical) : s.halt.Canonical := foldl (setFld (elsewhere h.stopIssue)) fun _ _ h => ite h h.portDown

theorem revote {us i} (h : s.Canonical) : (s.revote us i).Canonical := by
  unfold State.revote
  split
  · exact h
  · exact ite h.setVotedWord (ite h.fault.halt h.setVotedWord.countWrap.setFld.eccEvent)

theorem revoteAll {us} (h : s.Canonical) : (s.revoteAll us).Canonical := foldl h fun _ _ h => h.revote

theorem startIssue (h : s.Canonical) : s.startIssue.Canonical := ite h (elsewhere h)

theorem retireCluster {n} (h : s.Canonical) : (s.retireCluster n).Canonical := by
  unfold State.retireCluster
  refine colRetire (queueCounts (?_))
  split
  · exact setFlag (elsewhere h.setCluster)
  · exact elsewhere h.setCluster

theorem killJobs (h : s.Canonical) : s.killJobs.Canonical := elsewhere h.setFlag.setFlag

theorem tileBoundary {n} (h : s.Canonical) : (s.tileBoundary n).Canonical :=
  ite h (startIssue (ite (ite (restartWm (killJobs (ite h.retireCluster h))) (killJobs (ite h.retireCluster h))) (ite h.retireCluster h)))

theorem disownLoads {who} (h : s.Canonical) : (s.disownLoads who).Canonical := elsewhereLink h

theorem startCore {n k} (h : s.Canonical) : (s.startCore n k).Canonical := h.disownLoads.onCore

theorem coreRunWrite {src n v} (h : s.Canonical) : (s.coreRunWrite src n v).Canonical :=
  ite h (ite h.setupLocked (foldl h.setFld fun _ _ h => ite h.startCore h))

theorem switchLate {out inn kind overrun} (h : s.Canonical) : (s.switchLate out inn kind overrun).Canonical := h.fault.countWrap

theorem idleFrom (h : s.Canonical) : s.idleFrom.Canonical := elsewhere h

theorem countIdle (h : s.Canonical) : s.countIdle.Canonical := by
  unfold State.countIdle
  split
  · exact h
  · exact countSat (elsewhere h)

theorem endIdle (h : s.Canonical) : s.endIdle.Canonical := elsewhere h.countIdle

theorem beginSwitch {inn gang edge} (h : s.Canonical) : (s.beginSwitch inn gang edge).Canonical := setFlag (elsewhere h.stopIssue)

theorem beginWanted (h : s.Canonical) : s.beginWanted.Canonical := by
  unfold State.beginWanted
  split
  · exact h
  · exact ite (elsewhere h) h.beginSwitch

theorem endSwitchIdle (h : s.Canonical) : s.endSwitchIdle.Canonical := beginWanted (idleFrom (elsewhere h))

theorem switchSaveDone (h : s.Canonical) : s.switchSaveDone.Canonical := by
  dsimp only [State.switchSaveDone]
  refine ite h ?_
  split
  · refine elsewhere (setFlag (?_))
    split
    · exact h
    · exact elsewhere h.saveContext
  · refine endSwitchIdle (setFlag (setFlag (?_)))
    split
    · exact h
    · exact elsewhere h.saveContext

theorem moveDeadlines {by_} (h : s.Canonical) : (s.moveDeadlines by_).Canonical := elsewhere h

theorem resumeJob (h : s.Canonical) : s.resumeJob.Canonical := by
  unfold State.resumeJob
  refine beginWanted (startHeld (endIdle (startIssue (elsewhere ?_))))
  split
  · exact h.moveDeadlines
  · exact h

theorem switchReady {us} (h : s.Canonical) : (s.switchReady us).Canonical := by
  unfold State.switchReady
  refine ite h ?_
  split
  · exact h
  · extract_lets -underBinder t1 slot
    have h1 : t1.Canonical := foldl h fun _ _ h => h.upset
    split
    next e =>
      have hb := h1.imageBad.of_snd e
      split
      · exact hb.setFlag.failJob.endSwitchIdle
      · extract_lets -underBinder t2 t3 t4 t5 t6 t7 sw t8 r
        have h8 : t8.Canonical := elsewhere hb.setFlag.reloadContext.setFld.setFlag.setFld.countWrap
        exact ite h8.resumeJob (changeIf h8 fun h => h.switchLate.resumeJob)

theorem resumePoint (h : s.Canonical) : s.resumePoint.Canonical := ite h.resumeJob h

theorem planFlip {n} (h : s.Canonical) : (s.planFlip n).Canonical := ite h.copyRange.setReg.setReg.setFlag h

theorem payDeficits {start stop} (h : s.Canonical) : (s.payDeficits start stop).Canonical := by
  dsimp only [State.payDeficits]
  split
  · exact ite (foldl h fun _ _ h => h.setDeficit) (setDeficit (foldl h fun _ _ h => h.setDeficit))
  · exact foldl h fun _ _ h => h.setDeficit

theorem swapIn {j keep} (h : s.Canonical) : (s.swapIn j keep).Canonical := by
  dsimp only [State.swapIn]
  refine ite h ?_
  split
  · exact elsewhere h
  · split
    · exact h
    · exact countWrap (elsewhere h)

theorem prefetchGang {n} (h : s.Canonical) : (s.prefetchGang n).Canonical := foldl h fun _ _ h => ite h.swapIn h

theorem askSwitch {inn gang edge} (h : s.Canonical) : (s.askSwitch inn gang edge).Canonical := ite h.beginSwitch (elsewhere h)

theorem chooseJob {j gang edge} (h : s.Canonical) : (s.chooseJob j gang edge).Canonical := ite h.countWrap h.countWrap.askSwitch

theorem idleTurn {named edge} (h : s.Canonical) : (s.idleTurn named edge).Canonical :=
  ite h.switchLate.askSwitch h.switchLate.idleFrom

theorem freeTurn {edge} (h : s.Canonical) : (s.freeTurn edge).Canonical := by
  dsimp only [State.freeTurn]
  split
  · refine chooseJob (?_)
    split
    · exact h.swapIn.idleFrom
    · exact ite h.swapIn h
    · exact h
  · split
    · exact h.swapIn.idleFrom
    · exact ite h.swapIn h
    · exact h

theorem planStep {n oldLen slotBad} (h : s.Canonical) : (s.planStep n oldLen slotBad).Canonical := by
  unfold State.planStep
  extract_lets -underBinder edge t1 t2 t3 t4 t5 w sw t6
  have h3 : t3.Canonical := foldl (ite h.planFlip.endIdle h.planFlip.countIdle) fun _ _ h => h.settleRunnable
  have h6 : t6.Canonical := elsewhere (prefetchGang (changeIf h3 payDeficits))
  refine ite h6 (ite ?_ (ite (ite h6.chooseJob h6.idleTurn) h6.freeTurn))
  split
  next e => exact (h6.takeFree.of_snd e).idleTurn

theorem deadlinesBy {edge} (h : s.Canonical) : (s.deadlinesBy edge).Canonical :=
  ite (colDeadline (foldl h fun _ _ h => h.missDeadline)) (foldl h fun _ _ h => h.missDeadline)

theorem turnBoundary {us slotBad} (h : s.Canonical) : (s.turnBoundary us slotBad).Canonical := by
  refine ite h (planStep (closeAdmission (elsewhere (changeTurnLen ?_))))
  exact changeIf (changeIf h.deadlinesBy.revoteAll placementFlip) forwardingFlip

theorem canonWrite {n v} (h : s.Canonical) : (s.canonWrite n v).Canonical := by
  dsimp only [State.canonWrite]
  refine ite h ?_
  split
  · exact ite h.setFld.setFlag h.setFld
  · exact h.setFld

theorem reproWrite {src j v} (h : s.Canonical) : (s.reproWrite src j v).Canonical :=
  ite h.setupLocked h.setFld.setFld.setFlag.setFlag

theorem planFlipWrite {v} (h : s.Canonical) : (s.planFlipWrite v).Canonical := ite (elsewhere h.setReg) h.setReg

theorem jobWrite {j v} (h : s.Canonical) : (s.jobWrite j v).Canonical :=
  settleRunnable (ite h.setFld.setFld.setFld.setFld (elsewhere h.setFld.setFld.setFld.setFld.setFld))

-- The functions of Machine/Protect ------------------------------------------------------------------------------------

theorem hbmAccess {q us onDie} (h : s.Canonical) : (s.hbmAccess q us onDie).Canonical := by
  unfold State.hbmAccess
  extract_lets -underBinder t1 t2
  have h1 : t1.Canonical := changeUnless h countWrap
  have h2 : t2.Canonical := foldl h1 fun _ _ h => h.upset
  refine ite h1.unmapped (ite ?_ ?_)
  · split
    next e => exact (h2.writeLocalBe.of_snd e).emit
  · split
    next e => exact (h2.readLocal.of_third e).emit

theorem scrubWord {k} (h : s.Canonical) : (s.scrubWord k).Canonical := ite h.checkWord.poisonWord h.checkWord

theorem scrubRange {a n} (h : s.Canonical) : (s.scrubRange a n).Canonical := foldl h fun _ _ h => h.scrubWord

theorem scrubOther {cls unit u} (h : s.Canonical) : (s.scrubOther cls unit u).Canonical := by
  dsimp only [State.scrubOther]
  with_reducible exact ite h (ite h.takeFree.countWrap.logEntry.eccEvent h.takeFree.countWrap.logEntry.uncorrectableDetail.fault.eccEvent)

theorem noteScrub {range place} (h : s.Canonical) : (s.noteScrub range place).Canonical := elsewhere h

theorem countPasses (h : s.Canonical) : s.countPasses.Canonical := h.setFld.setFld.setFld.setFld

theorem scrubRead {t us} (h : s.Canonical) : (s.scrubRead t us).Canonical := by
  unfold State.scrubRead
  refine ite h ?_
  split
  · exact countPasses (noteScrub (scrubRange (foldl h fun _ _ h => h.upset)))
  · exact ite (countPasses (noteScrub (scrubRange (foldl h fun _ _ h => h.upset)))) h
  · exact ite h (countPasses (noteScrub (scrubRange (foldl h fun _ _ h => h.upset))))
  · exact countPasses (noteScrub (foldl h fun _ _ h => h.scrubOther))
  · exact countPasses (noteScrub (foldl h fun _ _ h => h.scrubOther))

theorem heartbeat (h : s.Canonical) : s.heartbeat.Canonical := ite h.companionWrite h

theorem wmRecover {src v image} (h : s.Canonical) : (s.wmRecover src v image).Canonical :=
  ite h.setupLocked (ite h (elsewhere (stopIssue (foldl h fun _ _ h => h.failJob))))

theorem retireWrite {v} (h : s.Canonical) : (s.retireWrite v).Canonical := foldl h fun _ _ h => ite h.requestRetire h

theorem rsvRetireWrite {src d w v} (h : s.Canonical) : (s.rsvRetireWrite src d w v).Canonical := ite h.setupLocked h.setReg

-- The functions of Machine/Boot ---------------------------------------------------------------------------------------

theorem loadDescriptor {d} (h : s.Canonical) : (s.loadDescriptor d).Canonical :=
  foldl h.setFld.setFld.setFld.setFld.setReg256 fun _ _ h => h.setReg.setReg

theorem reapply {b} (h : s.Canonical) : (s.reapply b).Canonical := foldl (foldl h fun _ _ h => h.setReg) fun _ _ h => h.setBucket

theorem firmwareStarts (h : s.Canonical) : s.firmwareStarts.Canonical := foldl h.setFld.setFld fun _ _ h => ite h.enterPort h

theorem resetRelease {b} (h : s.Canonical) : (s.resetRelease b).Canonical := by
  unfold State.resetRelease
  refine ite h ?_
  extract_lets -underBinder pwr t1 t2 t3 t4 t5
  have h3 : t3.Canonical := ite (setFlag (setReg (elsewhere h))).setFld (setReg (elsewhere h))
  have h5 : t5.Canonical := h3.setReg.setFld
  split
  · exact h5.setFld
  · extract_lets -underBinder t6 t7 t8 t9 list boot t10 t11
    have h8 : t8.Canonical := withMem h5.setFld.loadDescriptor Memory.nil_wf
    have h10 : t10.Canonical := elsewhere h8.reapply.countSat
    have h11 : t11.Canonical := ite h10.setReg256 h10
    split
    next e =>
      have ht := h11.imageSteps.of_snd e
      exact ite ht.firmwareStarts ht

theorem recoveryGo {src v image program} (h : s.Canonical) : (s.recoveryGo src v image program).Canonical :=
  ite h.setupLocked (ite h.setFld (changeUnless (imageSteps (elsewhere h.setFld)) fun h => ite h.recovered h.firmwareStarts))

theorem svnBurn {src v} (h : s.Canonical) : (s.svnBurn src v).Canonical := ite h.setupLocked (ite (setFld (elsewhere h)) h)

theorem powerReset {railsRemoved} (_ : s.Canonical) : (s.powerReset railsRemoved).Canonical :=
  ⟨Memory.nil_wf, Memory.nil_wf⟩

-- The functions of Machine/Power --------------------------------------------------------------------------------------

theorem setClock {n} (h : s.Canonical) : (s.setClock n).Canonical := h.setFld

theorem runTicks {n} (h : s.Canonical) : (s.runTicks n).Canonical := tick (chargeCycles (ite h h.writeFaults))

theorem ticks {n} (h : s.Canonical) : (s.ticks n).Canonical := by
  unfold State.ticks
  split
  · exact ite (runTicks (elsewhere h.runTicks.setClock)) h.runTicks
  · exact h.runTicks

-- The functions of Machine/Setup --------------------------------------------------------------------------------------

theorem mgmtRefused {kind node} (h : s.Canonical) : (s.mgmtRefused kind node).Canonical := ite h.countWrap h.faultOncePerWindow

theorem touchFingerprint {a} (h : s.Canonical) : (s.touchFingerprint a).Canonical := ite h.setFlag h

theorem identWrite {v} (h : s.Canonical) : (s.identWrite v).Canonical := ite h.mgmtRefused.writePlain h.writePlain

theorem fwdFlipWrite {v} (h : s.Canonical) : (s.fwdFlipWrite v).Canonical := ite (elsewhere h.setReg) h.setReg

theorem ftCtrlWrite {v} (h : s.Canonical) : (s.ftCtrlWrite v).Canonical := h.writePlain.sourceChanged

theorem clCtrlWrite {n v} (h : s.Canonical) : (s.clCtrlWrite n v).Canonical := h.writePlain.canonWrite

theorem bufCommand {n v} (h : s.Canonical) : (s.bufCommand n v).Canonical := by
  unfold State.bufCommand
  split
  · exact h.fillBegin
  · exact h.fillEnd
  · exact h.freeBuf
  · exact h

theorem lockWrite {v} (h : s.Canonical) : (s.lockWrite v).Canonical := setFlag (elsewhere h)

theorem launchWord {src off v} (h : s.Canonical) : (s.launchWord src off v).Canonical := h.colWrite

theorem pushWrite {src n flume o v} (h : s.Canonical) : (s.pushWrite src n flume o v).Canonical := by
  unfold State.pushWrite
  split
  · exact ite h (ite h.flmPush (ite h.tilePush (ite h.dmaPush (ite h.dmaPush h.vecPush))))
  · exact h

theorem jtCtrlWrite {v} (h : s.Canonical) : (s.jtCtrlWrite v).Canonical := h.writePlain.setFld

theorem writeBlock {src a v image program} (h : s.Canonical) : (s.writeBlock src a v image program).Canonical := by
  unfold State.writeBlock
  split
  · exact ite h.lockWrite h.writePlain
  · exact ite h.regionWrite.startHeld h.writePlain
  · exact ite h.chanWrite (ite h.resetChannel h.writePlain)
  · exact ite h.layerWrite (ite h.zoneWrite (ite h.placeCtrlWrite (ite h.placeFlipWrite h.writePlain)))
  · exact ite h.clCtrlWrite (ite h.coreRunWrite (ite h.bufCommand (ite h.bufWrite (ite h.atomCtrl h.writePlain))))
  · exact ite h.portEnable h.writePlain
  · exact ite h.identWrite (ite h.fwdFlipWrite h.writePlain)
  · exact ite h.jtCtrlWrite h.writePlain
  · exact ite h.colFinish (ite h.colFinishRes h.writePlain)
  · exact ite h.ringWrite h.writePlain
  · exact ite h.planFlipWrite (ite h.jobWrite (ite h.reproWrite h.writePlain))
  · exact ite h.ftCtrlWrite (ite h.writeTurnOrigin (ite h.writeTurnLen (ite h.writeTurnChange (ite h.writeEpoch h.writePlain))))
  · exact ite h.wmRecover (ite h.retireWrite (ite h.rsvRetireWrite h.writePlain))
  · exact ite h.svnBurn (ite h.recoveryGo h.writePlain)
  · exact h.writePlain

theorem windowWrite {src a v} (h : s.Canonical) : (s.windowWrite src a v).Canonical := by
  unfold State.windowWrite
  split
  · exact ite h.pushWrite (ite h.slcPortWrite h)
  · exact ite h.pushWrite h
  · exact ite h.launchWord h
  · exact h

theorem writeOffset {src a v image program} (h : s.Canonical) : (s.writeOffset src a v image program).Canonical := by
  unfold State.writeOffset
  refine ite h ?_
  split
  · exact h.windowWrite
  · exact ite h.setupLocked h.writeBlock.touchFingerprint

theorem setupWriteAt {src addr v image program} (h : s.Canonical) : (s.setupWriteAt src addr v image program).Canonical := by
  unfold State.setupWriteAt
  obtain ⟨core, hcore⟩ : ∃ f, f = coreSetup := ⟨_, rfl⟩
  rw [← hcore]
  refine ite h.unmapped ?_
  split
  · split
    · exact h.writeOffset
    · exact h.unmapped
  · exact ite h h.writeOffset
  · exact h.writeOffset

theorem ucPiece {addr be v image program} (h : s.Canonical) : (s.ucPiece addr be v image program).Canonical := by
  refine of_def (f := @State.ucPiece) (fun f => (f s addr be v image program).Canonical) (by delta State.ucPiece; exact rfl) ?_
  split
  · exact ite (setupWriteAt (ite h.setupWriteAt h)) (ite h.setupWriteAt h)
  · exact ite h.setupWriteAt h

theorem ucRead {txn addr size bad} (h : s.Canonical) : (s.ucRead txn addr size bad).Canonical :=
  ite (ite h.ucAnswer h.ucAnswer) (ite (ite h.ucAnswer (ite h.poll (ite h.ucAnswer h.ucAnswer))) (ite h.ucAnswer h.unmapped.ucAnswer))

theorem doorbellWrite {addr v} (h : s.Canonical) : (s.doorbellWrite addr v).Canonical := by
  unfold State.doorbellWrite
  split
  · exact h.dbTail
  · exact h.dbHead
  · exact h

theorem ucWrite {txn addr size be data image program} (h : s.Canonical) : (s.ucWrite txn addr size be data image program).Canonical :=
  ite (sendFlit (ite h.ucPiece.ucPiece h.ucPiece)) (ite (sendFlit (ite h.doorbellWrite h)) h.unmapped.sendFlit)

theorem engineLoad {who mgmt addr len sink} (h : s.Canonical) : (s.engineLoad who mgmt addr len sink).Canonical := by
  unfold State.engineLoad
  split
  · refine ite h (ite ?_ h.deliver)
    split
    · exact h.onCore
    · exact h
  · exact ite (ite h h.deliver) h.loadIssue

theorem engineStore {who mgmt addr be data poison ilen} (h : s.Canonical) :
    (s.engineStore who mgmt addr be data poison ilen).Canonical := by
  unfold State.engineStore
  split
  · exact ite h.storeIssue (ite h (onCore (ite (ite h.doorbellWrite h) (foldl h fun _ _ h => h.setupWriteAt))))
  · exact h.storeIssue

-- The functions of Machine/Mgmt ---------------------------------------------------------------------------------------

theorem mgOp {op addr len aop data sink} (h : s.Canonical) : (s.mgOp op addr len aop data sink).Canonical := h.issueAny

theorem mgStores {a data} (h : s.Canonical) : (s.mgStores a data).Canonical := foldl h fun _ _ h => h.mgOp

theorem pushTasks {ts} (h : s.Canonical) : (s.pushTasks ts).Canonical := elsewhere h

theorem sendMissing {child} (h : s.Canonical) : (s.sendMissing child).Canonical := by
  unfold State.sendMissing
  split
  · exact h
  · exact pushTasks (elsewhere h)

theorem noteNotice {child i} (h : s.Canonical) : (s.noteNotice child i).Canonical := by
  unfold State.noteNotice
  split
  · exact h
  · exact elsewhere h

theorem mgLoad {a len} (h : s.Canonical) : (s.mgLoad a len).2.2.Canonical := by
  unfold State.mgLoad
  split
  · exact elsewhere h
  · exact iteThird h (mgOp (elsewhere h))

theorem mgStep {t} (h : s.Canonical) (ht : s.mgStep = some t) : t.Canonical := by
  unfold State.mgStep at ht
  split at ht
  · exact nomatch ht
  next rest _ =>
    have hpop : ({ s with mg := { s.mg with tasks := rest } } : State).Canonical := elsewhere h
    dsimp only at ht
    split at ht
    · exact Option.some.inj ht ▸ hpop.mgStores
    · exact Option.some.inj ht ▸ mgStores (elsewhere h.readLocal)
    · split at ht
      · exact nomatch ht
      · exact Option.some.inj ht ▸ hpop
    · split at ht
      next e =>
        have hl := h.mgLoad.of_third e
        split at ht
        · exact Option.some.inj ht ▸ elsewhere hl
        · exact Option.some.inj ht ▸ hl.mgLoad
      next e =>
        have hl := h.mgLoad.of_third e
        split at ht
        · exact Option.some.inj ht ▸ hl
        · exact nomatch ht
    · split at ht
      next e =>
        exact Option.some.inj ht ▸ elsewhere (h.mgLoad.of_third e)
      next e =>
        have hl := h.mgLoad.of_third e
        split at ht
        · exact Option.some.inj ht ▸ hl
        · exact nomatch ht
    · exact Option.some.inj ht ▸ hpop.mgOp
    · exact Option.some.inj ht ▸ hpop.sendMissing
    · exact Option.some.inj ht ▸ hpop.noteNotice

theorem mgRun : ∀ {fuel} {s : State}, s.Canonical → (State.mgRun fuel s).Canonical
  | 0, _, h => h
  | _ + 1, _, h => by
    unfold State.mgRun
    split
    · exact h
    · exact (h.mgStep ‹_›).mgRun

theorem mgPump (h : s.Canonical) : s.mgPump.Canonical := h.mgRun

theorem frameIn {i} (h : s.Canonical) : (s.frameIn i).2.Canonical := by
  dsimp only [State.frameIn]
  with_reducible exact iteThird h.readLocal.readLocal.readLocal h.readLocal

theorem takeSlot {i} (h : s.Canonical) : (s.takeSlot i).Canonical := h.writeLocal

theorem acceptFrame {f} (h : s.Canonical) : (s.acceptFrame f).Canonical := countWrap (elsewhere h)

theorem intake {type node act} (h : s.Canonical) (hact : ∀ t f, t.Canonical → (act t f).Canonical) :
    (s.intake type node act).Canonical := by
  unfold State.intake
  refine ite h ?_
  split
  · exact h
  · split
    next e =>
      refine ite h ?_
      extract_lets -underBinder u
      have ht : u.Canonical := (h.frameIn.of_snd e).takeSlot
      split
      · exact ht.mgmtRefused
      · exact (hact _ _ ht).mgPump

theorem sendFrame {node off session key type payload} (h : s.Canonical) : (s.sendFrame node off session key type payload).Canonical :=
  pushTasks (elsewhere h)

theorem reply {type payload} (h : s.Canonical) : (s.reply type payload).Canonical := by
  unfold State.reply
  split
  · exact h
  · exact h.sendFrame

theorem askReport {nonce offer} (h : s.Canonical) : (s.askReport nonce offer).Canonical := ite h (setFlag (elsewhere h))

theorem helloFrame {node f} (h : s.Canonical) : (s.helloFrame node f).Canonical := by
  dsimp only [State.helloFrame]
  with_reducible exact ite h (ite h.mgmtRefused (askReport (elsewhere h.acceptFrame.takeFree)))

theorem hello {node} (h : s.Canonical) : (s.hello node).Canonical :=
  h.intake fun _ _ h => h.helloFrame

theorem attestSigned (h : s.Canonical) : s.attestSigned.Canonical := by
  unfold State.attestSigned
  split
  · exact h
  · refine ite (mgPump (reply (countWrap (setFlag (elsewhere h))))) ?_
    split
    · exact countWrap (setFlag (elsewhere h))
    · exact mgPump (sendFrame (elsewhere (countWrap (setFlag (elsewhere h)))))

theorem acceptShake {node f} (h : s.Canonical) : (s.acceptShake node f).Canonical := by
  unfold State.acceptShake
  split
  · exact h
  · exact ite h.mgmtRefused (setFlag (elsewhere h.acceptFrame.sendFrame))

theorem accept {node} (h : s.Canonical) : (s.accept node).Canonical :=
  h.intake fun _ _ h => h.acceptShake

theorem attest {node} (h : s.Canonical) : (s.attest node).Canonical :=
  h.intake fun _ _ h => h.acceptFrame.askReport

theorem setWrites : ∀ {ws n code addr} {s : State}, s.Canonical → (State.setWrites ws n code addr s).2.Canonical
  | [], _, _, _, _, h => h
  | _ :: _, _, _, _, _, h => by
    unfold State.setWrites
    dsimp only
    split
    · exact h.setupWriteAt.setWrites
    · exact iteSnd h.setupWriteAt.setWrites h.setupWriteAt.setWrites

theorem setFrame {node} (h : s.Canonical) : (s.setFrame node).Canonical :=
  h.intake fun _ _ h => h.acceptFrame.setWrites.reply

theorem getFrame {node} (h : s.Canonical) : (s.getFrame node).Canonical :=
  h.intake fun _ _ h => h.acceptFrame.reply

theorem timeAnnounce {node} (h : s.Canonical) : (s.timeAnnounce node).Canonical :=
  h.intake fun _ _ h => h.acceptFrame.timeAnnounced

theorem startJob {j} (h : s.Canonical) : (s.startJob j).Canonical :=
  ite h (resumeJob (elsewhere (foldl (setFld (applyCanon (setFlag (setFld (elsewhere h))))) fun _ _ h => h.writeLocal)))

theorem start {node} (h : s.Canonical) : (s.start node).Canonical :=
  h.intake fun _ _ h => reply (ite h.acceptFrame.setFlag.setReg256.setFlag.extendMeas.startJob h.acceptFrame.setFlag)

theorem setTear {t} (h : s.Canonical) : (s.setTear t).Canonical := elsewhere h

theorem tearQuiesce {j} (h : s.Canonical) : (s.tearQuiesce j).Canonical :=
  ite (elsewhere (stopIssue (foldl h fun _ _ h => ite h.commit h))) (foldl h fun _ _ h => ite h.commit h)

theorem tearNext (h : s.Canonical) : s.tearNext.Canonical := by
  unfold State.tearNext
  split
  · exact h
  · extract_lets -underBinder t1
    have ht : t1.Canonical := ite h.setTear.tearQuiesce h
    split
    · refine ite (elsewhere (setTear ?_)) ht
      exact ite ht.setFlag ht
    · exact ht

theorem quiesce {node} (h : s.Canonical) : (s.quiesce node).Canonical :=
  h.intake fun _ _ h => ite h.acceptFrame h.acceptFrame.setTear.tearNext

theorem tearScrub (h : s.Canonical) : s.tearScrub.Canonical :=
  ⟨State.tearScrub_mem_wf h.mem, h.cmem⟩

theorem teardownEnd {ranges} (h : s.Canonical) : (s.teardownEnd ranges).Canonical := by
  unfold State.teardownEnd
  split
  · exact h
  · refine ite h (mgPump (reply (setTear (setFlag (setFld (foldl (tearScrub (elsewhere h)) fun _ _ h => ?_))))))
    exact ⟨memZero_wf _ _ h.mem, h.cmem⟩

-- The functions of Machine/Launch -------------------------------------------------------------------------------------

theorem setLaunch {l} (h : s.Canonical) : (s.setLaunch l).Canonical := elsewhere h

theorem zeroRange {a n} (h : s.Canonical) : (s.zeroRange a n).Canonical :=
  ite h ⟨memZero_wf _ _ h.mem, h.cmem⟩

theorem launch {node} (h : s.Canonical) : (s.launch node).Canonical :=
  h.intake fun _ _ h => ite h.acceptFrame h.acceptFrame.setReg.zeroRange.setLaunch

theorem launchCommit (h : s.Canonical) : s.launchCommit.Canonical := by
  unfold State.launchCommit
  split
  · exact h
  · exact ite h.extendMeas.setFlag.reply h

theorem launchAck {l i} (h : s.Canonical) : (s.launchAck l i).Canonical := by
  dsimp only [State.launchAck]
  with_reducible exact ite h h.takeFree.pushTasks

theorem launchHave {l i} (h : s.Canonical) : (s.launchHave l i).Canonical :=
  h.setLaunch.countSat.writeLocal.launchAck.pushTasks.launchCommit

theorem launchNotice {i} (h : s.Canonical) : (s.launchNotice i).Canonical := by
  refine of_def (f := @State.launchNotice) (fun f => (f s i).Canonical) (by delta State.launchNotice; exact rfl) ?_
  obtain ⟨read, hread⟩ : ∃ f, f = @State.readLocal := ⟨_, rfl⟩
  have hr {s : State} {who a n} (h : s.Canonical) : (read s who a n).2.2.Canonical := hread ▸ h.readLocal
  rw [← hread]
  split
  · exact h
  · extract_lets -underBinder list
    split
    next e =>
      have ht := (hr h).of_third e
      refine ite ht (ite (ite ht ?_) (ite ht.launchAck.mgPump ?_))
      · split
        next e =>
          have ht := (hr ht).of_third e
          exact ite ht.mgmtRefused ht.setLaunch.pushTasks.launchCommit.mgPump
      · split
        next e =>
          have ht := (hr ht).of_third e
          exact ite ht.mgmtRefused ht.launchHave.mgPump

theorem ackTimeout {child i} (h : s.Canonical) : (s.ackTimeout child i).Canonical := by
  unfold State.ackTimeout
  split
  · exact h
  · split
    · exact h
    · exact ite h (ite h.setLaunch.pushTasks.mgPump (ite h.setLaunch.reply.mgPump h))

theorem launchChild {node} (h : s.Canonical) : (s.launchChild node).Canonical := by
  refine h.intake fun _ _ h => ?_
  dsimp only
  split
  · exact h.acceptFrame
  · exact ite h.acceptFrame h.acceptFrame.setLaunch.pushTasks

theorem reparent {node} (h : s.Canonical) : (s.reparent node).Canonical := by
  refine h.intake fun _ _ h => ?_
  dsimp only
  split
  · exact h.acceptFrame
  · exact ite h.acceptFrame h.acceptFrame.setLaunch

theorem launchAbort {node} (h : s.Canonical) : (s.launchAbort node).Canonical :=
  h.intake fun _ _ h => h.acceptFrame.setLaunch.setReg

-- The functions of Machine/Switched -----------------------------------------------------------------------------------

theorem sendDrift {window bytes} (h : s.Canonical) : (s.sendDrift window bytes).Canonical := ite h.issueOp h

-- The functions of Machine/Operands -----------------------------------------------------------------------------------

theorem keep {w} {t : State} (h : t.Canonical) (hs : s.Canonical) : (s.keep w t).Canonical := by
  constructor
  · show Memory.wf (if Part.mem ∈ w then t.mem else s.mem) = true
    split
    · exact h.mem
    · exact hs.mem
  · show Memory.wf (if Part.tl ∈ w then t.tl else s.tl).cmem = true
    split
    · exact h.cmem
    · exact hs.cmem

theorem rowWrite {src ok a v} (h : s.Canonical) : (s.rowWrite src ok a v).Canonical := ite h.setupWriteAt h

theorem windowClose (h : s.Canonical) : s.windowClose.Canonical :=
  ite (elsewhere h) (ite (ite (sendDrift (elsewhere h.closeWindow)) (elsewhere h.closeWindow)) h)

-- The functions of Machine/ColProgram ---------------------------------------------------------------------------------

theorem onRun {f} (h : s.Canonical) : (s.onRun f).Canonical := elsewhere h

theorem colPoison {cause} (h : s.Canonical) : (s.colPoison cause).Canonical := h.onRun

theorem colQueue {peer t k phase data poison src} (h : s.Canonical) : (s.colQueue peer t k phase data poison src).Canonical := by
  unfold State.colQueue
  exact h.onRun

theorem colEdit {x f} (h : s.Canonical) : (s.colEdit x f).Canonical := by
  unfold State.colEdit
  exact h.onRun

theorem colDma {n crc} (h : s.Canonical) : (s.colDma n crc).Canonical := by
  unfold State.colDma
  split
  · exact h.setFld.dmaDone
  · exact h.dmaDone

theorem colStore {who addr data poison sink} (h : s.Canonical) : (s.colStore who addr data poison sink).Canonical :=
  foldl h fun _ _ h => h.issueOp

theorem colRead {who off n} (h : s.Canonical) : (s.colRead who off n).Canonical := by
  unfold State.colRead
  refine ite (foldl h fun _ _ h => h.issueOp) ?_
  split
  · exact h.companionLoad
  · exact h.readLocal.colGot

theorem writeResult {k off data} (h : s.Canonical) : (s.writeResult k off data).Canonical := by
  unfold State.writeResult
  exact onRun (colDma (ite h.colStore h.writeData))

theorem ownDone {k data} (h : s.Canonical) : (s.ownDone k data).Canonical := ite h.writeResult.colQueue h.writeResult

theorem sumChunk {j} (h : s.Canonical) : (s.sumChunk j).Canonical := ite h (ite h.colPoison h.ownDone.onRun)

theorem queueSrc {peer t k phase off} (h : s.Canonical) : (s.queueSrc peer t k phase off).Canonical := h.colQueue

theorem beginReduce (h : s.Canonical) : s.beginReduce.Canonical :=
  ite (foldl h fun _ _ h => ite h.colPoison h.ownDone) (ite (foldl h fun _ _ h => foldl h fun _ _ h => h.queueSrc)
      (foldl h fun _ _ h => h.queueSrc))

theorem beginGive {phase chunks} (h : s.Canonical) : (s.beginGive phase chunks).Canonical :=
  foldl h fun _ _ h => foldl (ite h.colPoison h.writeResult) fun _ _ h => h.queueSrc

theorem colBegin (h : s.Canonical) : s.colBegin.Canonical := by
  dsimp only [State.colBegin]
  split
  · exact h.beginReduce
  · exact h.beginReduce
  · exact h.beginGive
  · exact ite h.beginGive h
  · exact h

theorem useChunk {x t data} (h : s.Canonical) : (s.useChunk x t data).Canonical :=
  ite (ite h.onRun.sumChunk (ite h.colPoison (ite h.ownDone h.colQueue))) (ite h.onRun (ite h.writeResult.colQueue h.writeResult))

theorem colTake {x} (h : s.Canonical) : (s.colTake x).Canonical := by
  refine of_def (f := @State.colTake) (fun f => (f s x).Canonical) (by delta State.colTake; exact rfl) ?_
  obtain ⟨read, hread⟩ : ∃ f, f = @State.readLocal := ⟨_, rfl⟩
  have hr {s : State} {who a n} (h : s.Canonical) : (read s who a n).2.2.Canonical := hread ▸ h.readLocal
  rw [← hread]
  extract_lets -underBinder d
  split
  refine ite h ?_
  split
  extract_lets -underBinder n a
  split
  next e =>
    have ht := (hr h).of_third e
    exact colDma (colStore (ite ht.colDma.onRun.useChunk (ite ht.colDma.onRun.colPoison ht.colDma.onRun)))

theorem sendData {x} (h : s.Canonical) : (s.sendData x).Canonical := by
  unfold State.sendData
  exact h.colStore.colDma

theorem sendChunkAgain {x attempt} (h : s.Canonical) : (s.sendChunkAgain x attempt).Canonical := h.colEdit.onRun.sendData

theorem attemptFailed {x} (h : s.Canonical) : (s.attemptFailed x).Canonical := by
  unfold State.attemptFailed
  refine ite h.colPoison.colEdit (ite (colEdit (colPoison (?_))) (sendChunkAgain (?_)))
  · split
    · exact h.readLocal
    · exact h
  · split
    · exact h.readLocal
    · exact h

theorem sendHeader {x} (h : s.Canonical) : (s.sendHeader x).Canonical :=
  countWrap (ite h.colEdit.colStore.colDma.countWrap.countWrap h.colEdit.colStore.colDma.countWrap)

theorem colSend {x} (h : s.Canonical) : (s.colSend x).Canonical :=
  ite (ite h.colEdit.onRun.sendData h) (ite h (ite h.sendChunkAgain (ite h.attemptFailed (ite h.sendHeader (ite h
      (ite h.attemptFailed h.colEdit))))))

theorem sendClosings (h : s.Canonical) : s.sendClosings.Canonical := foldl h fun _ _ h => h.onRun.colDma.colStore

theorem colReport (h : s.Canonical) : s.colReport.Canonical := foldl h.colFinishRes fun _ _ h => h.colFinish

theorem colPass (h : s.Canonical) : s.colPass.Canonical := by
  unfold State.colPass
  refine ite h.colEnter ?_
  split
  · exact foldl h.colEnter.onRun fun _ _ h => h.colRead
  · exact ite h.colEnter h.colEnter.onRun.colBegin
  · refine ite (sendClosings (onRun (foldl (foldl h.colEnter fun _ _ h => h.colTake) fun _ _ h => ?_))) (foldl
        (foldl h.colEnter fun _ _ h => h.colTake) fun _ _ h => ?_)
    · split
      · exact h.colSend
      · exact h
    · split
      · exact h.colSend
      · exact h
  · exact ite h.colEnter.sendClosings.colReport h.colEnter.sendClosings

theorem idle (h : s.Canonical) : s.idle.Canonical := by
  unfold State.idle
  exact ite (h.colPass.afterClose.keep h) h

-- Commands and steps ---------------------------------------------------------------------------------------------------

theorem keep_of_notMem {w} {t : State} (h : s.Canonical) (hm : Part.mem ∉ w) (htl : Part.tl ∉ w) : (s.keep w t).Canonical := by
  constructor
  · show Memory.wf (if Part.mem ∈ w then t.mem else s.mem) = true
    rw [if_neg hm]
    exact h.mem
  · show Memory.wf (if Part.tl ∈ w then t.tl else s.tl).cmem = true
    rw [if_neg htl]
    exact h.cmem

/-- Every next state of an outcome is canonical. -/
def Leads (o : Host.Outcome State Fault Refusal) : Prop := ∀ t, o = .next t → t.Canonical

section
variable {w : List Part} {f : State → State}

theorem answer (h : s.Canonical) (hf : ∀ {s : State}, s.Canonical → (f s).Canonical) : Leads (State.answer w f s) := by
  rintro _ ⟨⟩
  exact (hf h).keep h

theorem act (h : s.Canonical) (hf : ∀ {s : State}, s.Canonical → (f s).Canonical) : Leads (State.act w f s) := by
  unfold State.act
  split
  · exact answer h hf
  · rintro _ ⟨⟩
    exact h

/-- A command whose parts hold no memory keeps both, whatever it does. -/
theorem answerOff (h : s.Canonical) (hm : Part.mem ∉ w) (htl : Part.tl ∉ w) : Leads (State.answer w f s) := by
  rintro _ ⟨⟩
  exact h.keep_of_notMem hm htl

theorem actOff (h : s.Canonical) (hm : Part.mem ∉ w) (htl : Part.tl ∉ w) : Leads (State.act w f s) := by
  unfold State.act
  split
  · exact h.answerOff hm htl
  · rintro _ ⟨⟩
    exact h
end

theorem exec {i} (h : s.Canonical) : Leads (exec i s) := by
  unfold Machine.exec
  cases i with
  | setupWrite => exact h.act setupWriteAt
  | reservoirAccess => exact h.act reservoirAccess
  | sealSignal => exact h.act sealSignal
  | varveRecordWrite => exact h.act varveRecordWrite
  | rsvRegionWrite | clCoreRunWrite | tlRingWrite => exact h.act rowWrite
  | push | pop | peek | dropPacket | count => exact h.act sluiceCommand
  | sluiceStorageDone => exact h.act storageDone
  | fenceMarkersAcked => exact h.act fenceAcked
  | ftTick => exact h.act ticks
  | turnBoundary => exact h.act turnBoundary
  | counterWindowClose => exact h.act windowClose
  | scrubRead => exact h.act scrubRead
  | routeDecision => exact h.act routeDecision
  | sortAndDispatch => exact h.act sortAndDispatch
  | shapeRecords => exact h.act shapeRecords
  | gatewayRelay => exact h.act gatewayRelay
  | doneItem => exact h.act doneItem
  | combine => exact h.act combine
  | exchangeDeadline => exact h.act exchangeDeadline
  | placeLoadDone => exact h.act placeLoadDone
  | fence => exact h.act fence
  | amo => exact h.act amo
  | lrSc => exact h.act lrSc
  | clAtomCtrlWrite => exact h.act atomCtrl
  | matmul => exact h.act matmul
  | tileRetire => exact h.act tileRetire
  | tileBoundary => exact h.act fun h => h.tileBoundary.tearNext.mgPump
  | dmaStart => exact h.act dmaStart
  | dmaComplete => exact h.act dmaComplete
  | add | mul | axpy | scaleBias | exp | siluMul | rmsnorm | softmax | rope | convert | quantRow | rowSum | rowMax | sample =>
    exact h.act vecIssue
  | vecRetire => exact h.act vecRetire
  | gather | compact | mask | check | merge => exact h.act flmIssue
  | flumeComplete => exact h.act flmComplete
  | loadIssue => exact h.act engineLoad
  | storeIssue => exact h.act engineStore
  | atomicIssue => exact h.act atomicIssue
  | load => exact h.act fun h => ite h.serveLoadCell h
  | store => exact h.act fun h => ite h.serveStoreCell h
  | atomicAdd | atomicMin | atomicMax | atomicAnd | atomicOr | atomicXor | atomicSwap | atomicCas | atomicFadd | atomicBadd2 =>
    exact h.act fun h => ite h.serveAtomicCell h
  | loadRsp => exact h.act fun h => ite h.takeLoadRsp.mgPump h
  | atomicRsp => exact h.act fun h => ite h.takeAtomicRsp.mgPump h
  | ack => exact h.act fun h => ite h.takeAck.mgPump h
  | tDeadExpire => exact h.act fun h => h.deadExpire.mgPump
  | collectiveInterrupt => exact h.act colInterrupt
  | colFinish => exact h.act colFinish
  | collectiveDeadline => exact h.act colDeadline
  | travoFlitReceive => exact h.act travoReceive
  | snpShared => exact h.act snoopShared
  | snpInv => exact h.act snoopInv
  | line => exact h.act lineData
  | grant => exact h.act grantLine
  | ucRd => exact h.act ucRead
  | ucWr => exact h.act ucWrite
  | dbTail => exact h.act fun h => ite h h.dbTail
  | dbHead => exact h.act fun h => ite h h.dbHead
  | poll => exact h.act fun h => ite h h.poll
  | prefill => exact h.act prefill
  | generate => exact h.act generate
  | sessionSet => exact h.act sessionSetRequest
  | sessionClose => exact h.act sessionCloseRequest
  | abort => exact h.act abortRequestEntry
  | call => exact h.act callRequest
  | callReturn => exact h.act callReturn
  | stepBoundary => exact h.act stepBoundary
  | commit => exact h.act commitNext
  | eventRecordWrite => exact h.act eventRecordWrite
  | switchSaveDone => exact h.act fun h => h.switchSaveDone.tearNext.mgPump
  | switchReady => exact h.act fun h => h.switchReady.tearNext.mgPump
  | resumePoint => exact h.act fun h => h.resumePoint.tearNext.mgPump
  | swapDone => exact h.act swapDone
  | heartbeat => exact h.act heartbeat
  | resetRelease => exact h.answer resetRelease
  | hello => exact h.act hello
  | accept => exact h.act accept
  | set => exact h.act setFrame
  | get => exact h.act getFrame
  | attest => exact h.act attest
  | attestSigned => exact h.act attestSigned
  | quiesce => exact h.act quiesce
  | timeAnnounce => exact h.act timeAnnounce
  | start => exact h.act start
  | launch => exact h.act launch
  | launchNotice => exact h.act launchNotice
  | launchAckTimeout => exact h.act ackTimeout
  | launchChild => exact h.act launchChild
  | reparent => exact h.act reparent
  | launchAbort => exact h.act launchAbort
  | powerReset => exact h.answer powerReset
  | hbmAccess => exact h.act hbmAccess
  | teardownDrainEnd => exact h.act teardownEnd
  | topSetupLockWrite | flitReceive | regionSeal | regionRelease | varveMark | slcChanWrite | resetChannel | ptpSample | ppsEdge
  | sampleTimeout | holdoverLimit | ftSrcWrite | ftTurnOriginWrite | ftTurnLenWrite | ftEpochTaiWrite | layerDescriptorWrite | rankRound
  | hgZoneWrite | placeLoad | placeCopyDone | tileCmdPush | fillBegin | fillEnd | free | clBufWrite | dmaPush | vecPush | flumeCmdPush
  | portEnableWrite | cmTestDone | trainDone | laneIdDone | alignDone | lldpSend | lldpReceive | identityExpire | cdrLoss
  | retrainTimeout | linkMcuReload | cellFrameReceive | pauseReceive | forwardingSlot | swPacketReceive | swAckReceive | swPacketSend
  | swAckSend | rtoExpire | neighborSolicitation | ptpEventMessage | ackDelayExpire | allReduce | reduceScatter | allGather | broadcast
  | barrier | jobBoundary | drainPoint | drainEnd | quiesceOverrun | canonWrite | wmReproWrite | wmRecover | retireCluster
  | eccRsvRetireWrite | recoveryGo | secSvnBurnWrite | governorInterval | voltageWriteDone | railFault | senseCheck | tempRefresh
  | avsbusError => exact h.actOff (by decide) (by decide)
  | smbPartRead | smbBootRead | smbThermalRead | smbPowerRead | smbFaultRead | bmcCapWWrite | alertResponse =>
    exact h.answerOff (by decide) (by decide)

theorem step (h : s.Canonical) : Leads (step s) := by
  unfold Machine.step
  split
  · rintro _ ⟨⟩
    exact h.idle
  · exact exec (elsewhere h)
end State.Canonical

/-- Settles O59: no command writes memory but through the table operations that keep the canonical form, so each function of the model
that carries the state keeps it, and a step is built from those. -/
theorem memoryStaysCanonical : Obligations.MemoryStaysCanonical := by
  unfold Obligations.MemoryStaysCanonical
  intro s t hm hc hstep
  have ht : t.Canonical := State.Canonical.step ⟨hm, hc⟩ t hstep
  exact ⟨ht.mem, ht.cmem⟩

end Sys2Proof.Machine
end

section
namespace Sys2Proof.Machine

-- What storage accesses, Sluice commands and fabric operations leave alone ---------------------------------------------

/-- From `s` to `t` nothing has changed but what an access to storage, a Sluice command or a fabric operation can reach: time,
the fuses, the lock, the switch, boot, power and the queue stand as they were, and in the Headgate the placement, the step
number, the steps at the owner and the parities whose deadline was missed. -/
structure State.Framed (s t : State) : Prop where
  fuses : t.fuses = s.fuses
  clock : t.clock = s.clock
  tb : t.tb = s.tb
  lock : t.lock = s.lock
  present : t.present = s.present
  sw : t.sw = s.sw
  boot : t.boot = s.boot
  pwr : t.pwr = s.pwr
  pending : t.pending = s.pending
  placeIn : t.hg.placeIn = s.hg.placeIn
  placeSh : t.hg.placeSh = s.hg.placeSh
  load : t.hg.load = s.hg.load
  waitLoads : t.hg.waitLoads = s.hg.waitLoads
  copying : t.hg.copying = s.hg.copying
  nextStep : t.hg.nextStep = s.hg.nextStep
  owners : t.hg.owners = s.hg.owners
  missed : t.hg.missed = s.hg.missed

namespace State.Framed
open State.Canonical (of_def scanMarks_succ)
variable {s₀ s : State}

theorem refl (s : State) : s.Framed s := by constructor <;> rfl

/-- The state an answer `r` carries. The projection stays a name of its own here, as in `State.Canonical.Yields`. -/
def Yields {α : Type} (s₀ : State) (out : α → State) (r : α) : Prop := s₀.Framed (out r)

-- How a proof follows a definition -------------------------------------------------------------------------------------

/-- A record update of parts that the frame does not speak of. -/
theorem elsewhere (h : s₀.Framed s) {regs mem marks ecc rsv banks chans fab ports cores cls col tl mg flt out free} :
    s₀.Framed (State.mk s.fuses s.clock s.tb s.lock s.present regs mem marks ecc rsv banks chans s.hg fab ports cores cls col tl s.sw
      s.boot s.pwr mg flt out free s.pending) := by
  cases h
  constructor <;> assumption

/-- An update of the Headgate's steps and of what has landed. -/
theorem inHeadgate (h : s₀.Framed s) {steps landings faulted swapDue landReset retired} :
    s₀.Framed { s with hg := { s.hg with
      steps := steps, landings := landings, faulted := faulted, swapDue := swapDue, landReset := landReset, retired := retired } } := by
  cases h
  constructor <;> assumption

section
variable {α β γ : Type} {c : Prop} [Decidable c] {t : State}

theorem ite {a b : State} (ha : s₀.Framed a) (hb : s₀.Framed b) : s₀.Framed (if c then a else b) := by
  split
  · exact ha
  · exact hb

theorem iteSnd {a b : α × State} (ha : s₀.Framed a.2) (hb : s₀.Framed b.2) : s₀.Framed (if c then a else b).2 := by
  split
  · exact ha
  · exact hb

theorem iteThird {a b : α × β × State} (ha : s₀.Framed a.2.2) (hb : s₀.Framed b.2.2) :
    s₀.Framed (if c then a else b).2.2 := by
  split
  · exact ha
  · exact hb

theorem iteYields {out : α → State} {a b : α} (ha : Yields s₀ out a) (hb : Yields s₀ out b) :
    Yields s₀ out (if c then a else b) := by
  split
  · exact ha
  · exact hb

theorem of_snd {p : α × State} {a : α} (h : s₀.Framed p.2) (e : p = (a, t)) : s₀.Framed t := by
  rw [e] at h
  exact h

theorem of_third {p : α × β × State} {a : α} {b : β} (h : s₀.Framed p.2.2) (e : p = (a, b, t)) : s₀.Framed t := by
  rw [e] at h
  exact h

theorem yieldsSnd {a : α} (h : s₀.Framed t) : Yields s₀ (·.2) (a, t) := h

theorem foldl {f : State → α → State} {l : List α} (h : s₀.Framed s) (hf : ∀ s x, s₀.Framed s → s₀.Framed (f s x)) :
    s₀.Framed (l.foldl f s) :=
  List.foldlRecOn l f h fun s h x _ => hf s x h

theorem foldlSnd {f : β × State → α → β × State} {l : List α} {r : β × State} (h : s₀.Framed r.2)
    (hf : ∀ r x, s₀.Framed r.2 → s₀.Framed (f r x).2) : s₀.Framed (l.foldl f r).2 :=
  List.foldlRecOn (motive := fun r => s₀.Framed r.2) l f h fun r h x _ => hf r x h

theorem foldlThird {f : β × γ × State → α → β × γ × State} {l : List α} {r : β × γ × State} (h : s₀.Framed r.2.2)
    (hf : ∀ r x, s₀.Framed r.2.2 → s₀.Framed (f r x).2.2) : s₀.Framed (l.foldl f r).2.2 :=
  List.foldlRecOn (motive := fun r => s₀.Framed r.2.2) l f h fun r h x _ => hf r x h

theorem foldlYields {out : β → State} {f : β → α → β} {l : List α} {r : β} (h : Yields s₀ out r)
    (hf : ∀ r x, s₀.Framed (out r) → Yields s₀ out (f r x)) : Yields s₀ out (l.foldl f r) :=
  List.foldlRecOn l f h fun r h x _ => hf r x h
end

-- The functions of Machine/Ops ----------------------------------------------------------------------------------------

theorem setReg {a v} (h : s₀.Framed s) : s₀.Framed (s.setReg a v) := elsewhere h

theorem setFld {a f v} (h : s₀.Framed s) : s₀.Framed (s.setFld a f v) := h.setReg

theorem setFlag {a f b} (h : s₀.Framed s) : s₀.Framed (s.setFlag a f b) := h.setFld

theorem countSat {a f n} (h : s₀.Framed s) : s₀.Framed (s.countSat a f n) := h.setFld

theorem countWrap {a f n} (h : s₀.Framed s) : s₀.Framed (s.countWrap a f n) := h.setFld

theorem emit {o} (h : s₀.Framed s) : s₀.Framed (s.emit o) := elsewhere h

theorem takeFree {k} (h : s₀.Framed s) : s₀.Framed (s.takeFree k).2 := elsewhere h

theorem setCore {i c} (h : s₀.Framed s) : s₀.Framed (s.setCore i c) := elsewhere h

theorem onCore {i f} (h : s₀.Framed s) : s₀.Framed (s.onCore i f) := h.setCore

theorem loadsReturn {n val} (h : s₀.Framed s) : s₀.Framed (s.loadsReturn n val) := foldl h fun _ _ h => h.onCore

theorem faultFor {job unit code addr detail} (h : s₀.Framed s) : s₀.Framed (s.faultFor job unit code addr detail) := elsewhere h

theorem fault {unit code addr detail} (h : s₀.Framed s) : s₀.Framed (s.fault unit code addr detail) := h.faultFor

theorem faultOncePerWindow {key unit code addr detail} (h : s₀.Framed s) : s₀.Framed (s.faultOncePerWindow key unit code addr detail) :=
  ite h (fault (elsewhere h))

theorem unmapped {who a k} (h : s₀.Framed s) : s₀.Framed (s.unmapped who a k) := h.fault

theorem sendFlit {f} (h : s₀.Framed s) : s₀.Framed (s.sendFlit f) := ite (emit (elsewhere h)) h

theorem requestLine {line own whole} (h : s₀.Framed s) : s₀.Framed (s.requestLine line own whole) :=
  ite h (sendFlit (elsewhere h))

theorem performWrites : ∀ {ws blocked} {s : State}, s₀.Framed s → s₀.Framed (performWrites ws blocked s)
  | [], _, _, h => h
  | _ :: _, _, _, h =>
    ite (performWrites (elsewhere h))
      (performWrites (ite (elsewhere h) (requestLine (elsewhere h))))

theorem drainWrites (h : s₀.Framed s) : s₀.Framed s.drainWrites := performWrites (elsewhere h)

theorem companionWrite {who a bs} (h : s₀.Framed s) : s₀.Framed (s.companionWrite who a bs) :=
  ite (drainWrites (elsewhere h)) h.unmapped

-- The functions of Machine/PortBase -----------------------------------------------------------------------------------

theorem setPort {p x} (h : s₀.Framed s) : s₀.Framed (s.setPort p x) := elsewhere h

theorem onPort {p f} (h : s₀.Framed s) : s₀.Framed (s.onPort p f) := h.setPort

theorem setStatus {p f v} (h : s₀.Framed s) : s₀.Framed (s.setStatus p f v) := foldl h fun _ _ h => h.setFld

theorem setLanes {p n} (h : s₀.Framed s) : s₀.Framed (s.setLanes p n) := h.setStatus.setStatus

theorem setLaneMask {p f v} (h : s₀.Framed s) : s₀.Framed (s.setLaneMask p f v) := foldl h fun _ _ h => h.setFld

theorem showLanes {p} (h : s₀.Framed s) : s₀.Framed (s.showLanes p) := h.setLaneMask.setLaneMask

theorem addLanes {p open_ short} (h : s₀.Framed s) : s₀.Framed (s.addLanes p open_ short) := h.onPort.showLanes

theorem portRecord {p} (h : s₀.Framed s) : s₀.Framed (s.portRecord p) := by
  dsimp only [State.portRecord]
  with_reducible exact h.takeFree.fault

theorem enterPort {p st} (h : s₀.Framed s) : s₀.Framed (s.enterPort p st) := by
  unfold State.enterPort
  exact h.setStatus.onPort

theorem dropHeld {p} (h : s₀.Framed s) : s₀.Framed (s.dropHeld p) := by
  unfold State.dropHeld
  exact h.countWrap.onPort

theorem portFenced {p} (h : s₀.Framed s) : s₀.Framed (s.portFenced p) := ite h h.dropHeld.enterPort.setLanes.portRecord

theorem portRetrain {p} (h : s₀.Framed s) : s₀.Framed (s.portRetrain p) := h.enterPort.onPort.portRecord

theorem fencePortDie {die} (h : s₀.Framed s) : s₀.Framed (s.fencePortDie die) := foldl h.setFld fun _ _ h => ite h h.portFenced

theorem laneOpen {port lane} (h : s₀.Framed s) : s₀.Framed (s.laneOpen port lane) := ite (ite h.addLanes.portRetrain h.addLanes) h

-- The functions of Machine/Ecc ----------------------------------------------------------------------------------------

theorem setCluster {n c} (h : s₀.Framed s) : s₀.Framed (s.setCluster n c) := elsewhere h

theorem stopIssue (h : s₀.Framed s) : s₀.Framed s.stopIssue := elsewhere h

theorem requestRetire {n} (h : s₀.Framed s) : s₀.Framed (s.requestRetire n) := ite h.setReg.stopIssue h.setReg

theorem retireEngines {die} (h : s₀.Framed s) : s₀.Framed (s.retireEngines die) := setFld (inHeadgate h)

theorem setBucket {key b} (h : s₀.Framed s) : s₀.Framed (s.setBucket key b) := elsewhere h

theorem linkLasting {cls idx rsv} (h : s₀.Framed s) : s₀.Framed (s.linkLasting cls idx rsv) := by
  unfold State.linkLasting
  split
  · refine foldl h.emit.setFld fun _ _ h => ?_
    split
    · exact h.requestRetire
    · exact h
  · exact h.emit.setFld.retireEngines
  · exact h.emit.setFld.fencePortDie
  · exact h.emit.setFld

theorem classAction {cls unit lane} (h : s₀.Framed s) : s₀.Framed (s.classAction cls unit lane) := by
  unfold State.classAction
  split
  · split
    · exact h.requestRetire
    · exact h
  · split
    · exact h.requestRetire
    · exact h
  · exact h.retireEngines
  · exact h.fencePortDie
  · refine ite ?_ (ite h h.linkLasting)
    exact ite h.linkLasting (ite h.linkLasting (ite h.linkLasting (ite h.linkLasting h.linkLasting)))
  · exact h.laneOpen
  · exact h

theorem markLasting {cls unit lane addr} (h : s₀.Framed s) : s₀.Framed (s.markLasting cls unit lane addr) :=
  ite h (ite h.fault.setBucket.countSat.classAction h.fault.setBucket.countSat)

theorem eccEvent {cls unit lane uncorr addr} (h : s₀.Framed s) : s₀.Framed (s.eccEvent cls unit lane uncorr addr) :=
  ite h.setBucket.markLasting h.setBucket

theorem logEntry {addr unit type source bit} (h : s₀.Framed s) : s₀.Framed (s.logEntry addr unit type source bit) :=
  ite h (ite h.countSat (ite (countSat (elsewhere h)) (companionWrite (setFld (companionWrite (elsewhere h))))))

theorem uncorrectableDetail {structure_ source} (h : s₀.Framed s) : s₀.Framed (s.uncorrectableDetail structure_ source).2 := by
  dsimp only [State.uncorrectableDetail]
  with_reducible exact h.takeFree

-- The functions of Machine/Memory -------------------------------------------------------------------------------------

theorem clearMark {k} (h : s₀.Framed s) : s₀.Framed (s.clearMark k) := elsewhere h

theorem poisonWord {k} (h : s₀.Framed s) : s₀.Framed (s.poisonWord k) := elsewhere h

theorem reportUncorrectable {k source named} (h : s₀.Framed s) : s₀.Framed (s.reportUncorrectable k source named) := by
  dsimp only [State.reportUncorrectable]
  with_reducible exact eccEvent (fault (uncorrectableDetail (logEntry (ite h.countWrap h.countWrap))))

theorem checkWord {k source named} (h : s₀.Framed s) : s₀.Framed (s.checkWord k source named).2 := by
  unfold State.checkWord
  split
  · exact h
  · dsimp only
    split
    · exact h
    · with_reducible exact eccEvent (logEntry (ite h.clearMark.countWrap h.clearMark.countWrap))
    · with_reducible exact h.reportUncorrectable
    · with_reducible exact h.logEntry
    · with_reducible exact iteSnd h.takeFree.reportUncorrectable (elsewhere h.takeFree.takeFree.clearMark)

theorem checkWords : ∀ {keys source} {s : State}, s₀.Framed s → s₀.Framed (s.checkWords source keys).2
  | [], _, _, h => h
  | _ :: _, _, _, h => h.checkWord.checkWords

theorem readStore {c n source} (h : s₀.Framed s) : s₀.Framed (s.readStore c n source).2.2 := h.checkWords

theorem writeWord {k be data poison} (h : s₀.Framed s) : s₀.Framed (s.writeWord k be data poison) := by
  unfold State.writeWord
  with_reducible exact ite h (ite (ite h.poisonWord (elsewhere h))
    (ite h.uncorrectableDetail.fault.poisonWord
      (ite h.checkWord.poisonWord (elsewhere h.checkWord))))

theorem writeStoreBe : ∀ {fuel c be data poison} {s : State}, s₀.Framed s → s₀.Framed (s.writeStoreBe fuel c be data poison)
  | 0, _, _, _, _, _, h => h
  | _ + 1, _, _, _, _, _, h => ite h h.writeWord.writeStoreBe

theorem writeStore {c data poison} (h : s₀.Framed s) : s₀.Framed (s.writeStore c data poison) := h.writeStoreBe

theorem sealLate {die region layer kind node source layer2 addr} (h : s₀.Framed s) :
    s₀.Framed (s.sealLate die region layer kind node source layer2 addr) :=
  h.fault

theorem setVarveAcc {region die v} (h : s₀.Framed s) : s₀.Framed (s.setVarveAcc region die v) := elsewhere h

theorem foldTerm {region die o be data poison} (h : s₀.Framed s) : s₀.Framed (s.foldTerm region die o be data poison) :=
  h.setVarveAcc

theorem foldTerms : ∀ {fuel region die o be data poison} {s : State}, s₀.Framed s →
    s₀.Framed (s.foldTerms fuel region die o be data poison)
  | 0, _, _, _, _, _, _, _, h => h
  | _ + 1, _, _, _, _, _, _, _, h => ite h (foldTerms (ite h h.foldTerm))

theorem rsvWrite {who node sluice seen die x region be data poison} (h : s₀.Framed s) :
    s₀.Framed (s.rsvWrite who node sluice seen die x region be data poison).2 := by
  unfold State.rsvWrite
  split
  · exact h.writeStoreBe
  · refine iteSnd h.unmapped ?_
    split
    · exact h.sealLate
    · exact ite h.writeStoreBe.foldTerms h.writeStoreBe

theorem takeBank {die x age hold} (h : s₀.Framed s) : s₀.Framed (s.takeBank die x age hold) := countWrap (elsewhere h)

theorem bankRead {c n age} (h : s₀.Framed s) : s₀.Framed (s.bankRead c n age) := ite (foldl h fun _ _ h => h.takeBank) h

theorem bankWrite {die x n be age} (h : s₀.Framed s) : s₀.Framed (s.bankWrite die x n be age) :=
  foldl h fun _ _ h => ite h (ite h.takeBank.countWrap h.takeBank)

theorem fetch {c n source age} (h : s₀.Framed s) : s₀.Framed (s.fetch c n source age).2.2 := h.bankRead.readStore

theorem rsvStore {age who node sluice seen die x region be data poison} (h : s₀.Framed s) :
    s₀.Framed (s.rsvStore age who node sluice seen die x region be data poison).2 :=
  ite h.rsvWrite.bankWrite h.rsvWrite

theorem chargeHbm {who n} (h : s₀.Framed s) : s₀.Framed (s.chargeHbm who n) := by
  dsimp only [State.chargeHbm]
  split
  · exact ite h.countWrap h
  · exact h

theorem writeLocalBe : ∀ {fuel who node a be data poison} {s : State}, s₀.Framed s →
    s₀.Framed (s.writeLocalBe fuel who node a be data poison).2
  | 0, _, _, _, _, _, _, _, h => h
  | _ + 1, _, _, _, _, _, _, _, h => by
    unfold State.writeLocalBe
    refine iteSnd h (writeLocalBe ?_)
    split
    · exact h.chargeHbm.writeStoreBe
    · exact h.writeStoreBe
    · exact h.rsvStore
    · exact h.unmapped

theorem writeLocal {who a data poison} (h : s₀.Framed s) : s₀.Framed (s.writeLocal who a data poison).2 := h.writeLocalBe

theorem readLocalAux : ∀ {fuel who source a n} {s : State}, s₀.Framed s → s₀.Framed (s.readLocalAux fuel who source a n).2.2
  | 0, _, _, _, _, _, h => h
  | _ + 1, _, _, _, _, _, h => by
    unfold State.readLocalAux
    refine iteThird h (readLocalAux ?_)
    split
    · exact fetch (ite h.chargeHbm h)
    · exact h.unmapped

theorem readLocal {who a n} (h : s₀.Framed s) : s₀.Framed (s.readLocal who a n).2.2 := h.readLocalAux

-- The functions of Machine/Reservoir ----------------------------------------------------------------------------------

theorem markDone {region layer explicit v} (h : s₀.Framed s) : s₀.Framed (s.markDone region layer explicit v) :=
  ite (elsewhere h) h

theorem snapVarve {region die} (h : s₀.Framed s) : s₀.Framed (s.snapVarve region die).2 := h.setVarveAcc

theorem sealMark {region layer} (h : s₀.Framed s) : s₀.Framed (s.sealMark region layer) :=
  ite (markDone (foldl h fun _ _ h => h.snapVarve)) h

theorem sealOnDie {who region layer die} (h : s₀.Framed s) : s₀.Framed (s.sealOnDie who region layer die) := by
  unfold State.sealOnDie
  split
  · exact h
  · exact ite h.sealLate (ite h.sealLate (ite h.sealLate (ite (sealMark (elsewhere h)) (elsewhere h))))

theorem sealAll {who region layer} (h : s₀.Framed s) : s₀.Framed (s.sealAll who region layer) := foldl h fun _ _ h => h.sealOnDie

-- The functions of Machine/Sluice -------------------------------------------------------------------------------------

theorem setChan {c x} (h : s₀.Framed s) : s₀.Framed (s.setChan c x) := elsewhere h

theorem sluiceReset {q cause} (h : s₀.Framed s) : s₀.Framed (s.sluiceReset q cause).2 := h.fault.setChan

theorem readMark {c p} (h : s₀.Framed s) : s₀.Framed (s.readMark c p).2 := by
  refine of_def (f := @State.readMark) (fun f => Yields s₀ (·.2) (f s c p)) (by delta State.readMark; exact rfl) ?_
  extract_lets -underBinder
  split
  next e =>
    have ht := h.bankRead.checkWord.of_snd e
    exact iteYields ht ht

theorem scanMarks {n c p seen} (h : s₀.Framed s) : s₀.Framed (s.scanMarks c n p seen).2 := by
  induction n generalizing s p seen with
  | zero => exact h
  | succ n ih =>
    rw [scanMarks_succ]
    split
    have ht := h.readMark.of_snd ‹_›
    split
    · exact ht
    · exact ht
    · exact ih ht

theorem sluiceApply {q} (h : s₀.Framed s) : s₀.Framed (s.sluiceApply q).2.2 := by
  refine of_def (f := @State.sluiceApply) (fun f => Yields s₀ (·.2.2) (f s q)) (by delta State.sluiceApply; exact rfl) ?_
  refine iteYields h (iteYields ?_ ?_)
  · split
    dsimp only
    split
    · exact h.setChan
    · exact h.setChan.unmapped
    · exact h.setChan.unmapped
    · exact h.setChan.unmapped
  · split
    · split
      exact h.sluiceReset.of_snd ‹_›
    · split
      split
      · exact h
      · refine iteYields h.setChan (iteYields h.setChan ?_)
        split
        have ht := h.readMark.of_snd ‹_›
        split
        · split
          exact ht.sluiceReset.of_snd ‹_›
        · extract_lets -underBinder
          split
          exact (ht.rsvStore.of_snd ‹_›).writeStore.setChan
      · refine iteYields h.setChan ?_
        split
        have ht := h.scanMarks.of_snd ‹_›
        split
        · split
          exact ht.sluiceReset.of_snd ‹_›
        · exact ht.setChan
      · refine iteYields h.setChan ?_
        split
        have ht := h.readMark.of_snd ‹_›
        obtain ⟨fetch, hfetch⟩ : ∃ f, f = @State.fetch := ⟨_, rfl⟩
        have hf {s : State} {k n c o} (h : s₀.Framed s) : s₀.Framed (fetch s k n c o).2.2 := hfetch ▸ h.fetch
        rw [← hfetch]
        split
        · split
          exact ht.sluiceReset.of_snd ‹_›
        · split
          exact ((hf ht).of_third ‹_›).setChan

theorem onSlcPort {who f} (h : s₀.Framed s) : s₀.Framed (s.onSlcPort who f) := by
  unfold State.onSlcPort
  split
  · exact h.onCore
  · exact h

theorem sluiceAnswer {a item} (h : s₀.Framed s) : s₀.Framed (s.sluiceAnswer a item) := by
  dsimp only [State.sluiceAnswer]
  split
  · exact h.emit.onSlcPort.loadsReturn
  · exact h.emit.onSlcPort

theorem sluiceTake {q} (h : s₀.Framed s) : s₀.Framed (s.sluiceTake q) :=
  ite h.setChan (ite h.sluiceApply.setChan h.sluiceApply.sluiceAnswer)

theorem sluiceSend {q} (h : s₀.Framed s) : s₀.Framed (s.sluiceSend q) := ite h.onSlcPort.setChan h.onSlcPort.sluiceTake

theorem slcPortNext : ∀ {fuel who} {s : State}, s₀.Framed s → s₀.Framed (s.slcPortNext who fuel)
  | 0, _, _, h => h
  | _ + 1, _, _, h => by
    unfold State.slcPortNext
    split
    · exact ite h h.onCore.sluiceSend.slcPortNext
    · exact h

theorem sluiceRelease : ∀ {fuel c} {s : State}, s₀.Framed s → s₀.Framed (State.sluiceRelease c fuel s)
  | 0, _, _, h => h
  | _ + 1, _, _, h => by
    unfold State.sluiceRelease
    dsimp only
    split
    · exact h
    · exact ite h h.setChan.sluiceTake.sluiceRelease

theorem storageDone {c} (h : s₀.Framed s) : s₀.Framed (s.storageDone c) := by
  dsimp only [State.storageDone]
  split
  · exact h
  · exact foldl h.setChan.sluiceAnswer.sluiceRelease fun _ _ h => h.slcPortNext

theorem sluiceSettle : ∀ {fuel c} {s : State}, s₀.Framed s → s₀.Framed (State.sluiceSettle c fuel s)
  | 0, _, _, h => h
  | _ + 1, _, _, h => ite h.storageDone.sluiceSettle h

theorem sluiceNow {q} (h : s₀.Framed s) : s₀.Framed (s.sluiceNow q).2 := h.sluiceSettle.sluiceApply

theorem pushNow {who c pktEnd data} (h : s₀.Framed s) : s₀.Framed (s.pushNow who c pktEnd data).2 := h.sluiceNow

-- The functions of Machine/Cores --------------------------------------------------------------------------------------

theorem fetchAt {i} (h : s₀.Framed s) : s₀.Framed (s.fetchAt i) := ite h.unmapped h

theorem trapCore {i cause tval} (h : s₀.Framed s) : s₀.Framed (s.trapCore i cause tval) := h.onCore.fetchAt

theorem setBufPoison {n b p} (h : s₀.Framed s) : s₀.Framed (s.setBufPoison n b p) := h.setFlag

theorem poisonBufs {n off len} (h : s₀.Framed s) : s₀.Framed (s.poisonBufs n off len) := foldl h fun _ _ h => h.setBufPoison

theorem poisonReached {a len poison} (h : s₀.Framed s) : s₀.Framed (s.poisonReached a len poison) := ite h.poisonBufs h

theorem writeData {who a data poison} (h : s₀.Framed s) : s₀.Framed (s.writeData who a data poison).2 :=
  iteSnd h.companionWrite h.writeLocal.poisonReached

-- The functions of Machine/HgScore and Machine/HgSelect ---------------------------------------------------------------

theorem poisonRow {l p slot} (h : s₀.Framed s) : s₀.Framed (s.poisonRow l p slot) := h.writeLocal

theorem enginesSeal {region layer} (h : s₀.Framed s) : s₀.Framed (s.enginesSeal region layer) := foldl h fun _ _ h => h.sealAll

theorem failStep {l p layer} (h : s₀.Framed s) : s₀.Framed (s.failStep l p layer) :=
  inHeadgate (enginesSeal (countWrap (foldl h fun _ _ h => h.poisonRow)))

theorem setStep {p} (h : s₀.Framed s) : s₀.Framed (s.setStep p) := inHeadgate h

theorem abandonStep {p} (h : s₀.Framed s) : s₀.Framed (s.abandonStep p) := h.failStep.setStep

theorem zoneOverflow {zone kind layer peer} (h : s₀.Framed s) : s₀.Framed (s.zoneOverflow zone kind layer peer) :=
  h.countSat.fault

-- The functions of Machine/HgLanding ----------------------------------------------------------------------------------

theorem setLanding {k x} (h : s₀.Framed s) : s₀.Framed (s.setLanding k x) := inHeadgate h

theorem readEntry {par z i} (h : s₀.Framed s) : s₀.Framed (s.readEntry par z i).2 := by
  refine of_def (f := @State.readEntry) (fun f => Yields s₀ (·.2) (f s par z i)) (by delta State.readEntry; exact rfl) ?_
  split
  exact h.readLocal.of_third ‹_›

theorem readEntries {par z n} (h : s₀.Framed s) : s₀.Framed (s.readEntries par z n).2 := by
  refine of_def (f := @State.readEntries) (fun f => Yields s₀ (·.2) (f s par z n)) (by delta State.readEntries; exact rfl) ?_
  refine foldlYields h fun r x h => ?_
  split
  exact h.readEntry.of_snd ‹_›

theorem writeRun {par z es rowsLine k slot start} (h : s₀.Framed s) : s₀.Framed (s.writeRun par z es rowsLine k slot start).2 :=
  yieldsSnd h.writeLocal.writeLocal

theorem buildRuns {par z x} (h : s₀.Framed s) : s₀.Framed (s.buildRuns par z x) := by
  unfold State.buildRuns
  refine ite ?_ (foldlSnd h.readEntries fun _ _ h => h.writeRun)
  split
  · exact ite h h.zoneOverflow.abandonStep
  · exact h.zoneOverflow

theorem zoneCheck {z ret par} (h : s₀.Framed s) : s₀.Framed (s.zoneCheck z ret par) :=
  ite (ite h.setLanding (ite (inHeadgate h.setLanding.countWrap.buildRuns) h.setLanding.countWrap.buildRuns)) h

theorem landSeal {z ret par die region data} (h : s₀.Framed s) : s₀.Framed (s.landSeal z ret par die region data) :=
  zoneCheck (ite (sealLate (ite h.setLanding.zoneOverflow h.setLanding)) (ite h.setLanding.zoneOverflow h.setLanding))

theorem landRefusal {node die x region o carries r} (h : s₀.Framed s)
    (hr : s.landRefusal node die x region o carries = some r) : s₀.Framed r.2 := by
  unfold State.landRefusal at hr
  split at hr
  · dsimp only at hr
    split at hr
    · exact Option.some.inj hr ▸ h.countSat
    · split at hr
      · exact Option.some.inj hr ▸ h.sealLate
      · split at hr
        · split at hr
          · exact Option.some.inj hr ▸ h.sealLate
          · split at hr
            · exact Option.some.inj hr ▸ h.sealLate
            · exact nomatch hr
        · exact nomatch hr
  · exact nomatch hr

theorem landCount {region o} (h : s₀.Framed s) : s₀.Framed (s.landCount region o) := by
  unfold State.landCount
  split
  · exact h.setLanding.zoneCheck
  · exact h

theorem landStore {who node die x region o be data poison isSeal} (h : s₀.Framed s) :
    s₀.Framed (s.landStore who node die x region o be data poison isSeal).2 := by
  unfold State.landStore
  split
  next hr => exact h.landRefusal hr
  next =>
    split
    next e =>
      have ht := h.rsvStore.of_snd e
      refine iteSnd ht (iteSnd ?_ ht.landCount)
      split
      · exact ht.landSeal
      · exact ht

-- The functions of Machine/FabricBase ---------------------------------------------------------------------------------

theorem windowViolation {q t} (h : s₀.Framed s) : s₀.Framed (s.windowViolation q t) := h.countWrap.faultFor

theorem atomicAt {who node land a len aop signed opnd swap} (h : s₀.Framed s) :
    s₀.Framed (s.atomicAt who node land a len aop signed opnd swap).2.2 := by
  unfold State.atomicAt
  refine iteThird h ?_
  extract_lets -underBinder w run
  have hrun {s : State} {c put} (h : s₀.Framed s) (hp : ∀ {s : State} {v}, s₀.Framed s → s₀.Framed (put s v).2) :
      s₀.Framed (run c put s).2.2 := by
    dsimp only [run]
    exact iteThird h.readStore (iteThird h.readStore (hp h.readStore))
  clear_value run
  split
  · refine hrun h.chargeHbm.chargeHbm ?_
    exact fun h => h.writeStore
  · extract_lets -underBinder c apply
    have ha {s : State} (h : s₀.Framed s) : s₀.Framed (apply s).2.2 := by
      dsimp only [apply]
      refine hrun h.takeBank ?_
      exact fun h => h.rsvWrite
    split
    · exact ha h
    · refine iteThird h.unmapped ?_
      split
      · exact h.sealLate
      · refine iteThird (ha h) ?_
        split
        next e => exact (h.landRefusal e :)
        next =>
          split
          next e => 
          have ht := (ha h).of_third e
          exact ite ht.landCount ht
  · exact h.unmapped

theorem serveLoad {off len} (h : s₀.Framed s) : s₀.Framed (s.serveLoad off len).2.2 := by
  unfold State.serveLoad
  split
  · exact fetch (ite h.chargeHbm h)
  · exact h

theorem serveStore {who node off be data poison isSeal} (h : s₀.Framed s) :
    s₀.Framed (s.serveStore who node off be data poison isSeal).2 := by
  unfold State.serveStore
  split
  · exact h.chargeHbm.writeStoreBe
  · exact h.landStore
  · exact h.rsvStore
  · exact h

theorem fenceCheck {who} (h : s₀.Framed s) : s₀.Framed (s.fenceCheck who) := by
  unfold State.fenceCheck
  split
  · exact h
  · refine ite ?_ h
    split
    · exact h.setCore.trapCore
    · exact h.setCore

theorem dmaData {n e dst off data poison} (h : s₀.Framed s) : s₀.Framed (s.dmaData n e dst off data poison) := by
  dsimp only [State.dmaData]
  split
  · exact h
  · exact ite h.setCluster h.setCluster.writeData

theorem colGot {off bad data} (h : s₀.Framed s) : s₀.Framed (s.colGot off bad data) := elsewhere h

theorem colLost {peer t} (h : s₀.Framed s) : s₀.Framed (s.colLost peer t) := elsewhere h

theorem colClosed {slot ok} (h : s₀.Framed s) : s₀.Framed (s.colClosed slot ok) := elsewhere h

theorem deliver {o status data} (h : s₀.Framed s) : s₀.Framed (s.deliver o status data) := by
  unfold State.deliver
  refine fenceCheck (?_)
  split
  · split
    · exact ite h.dmaData (ite h.dmaData h.dmaData.setBufPoison)
    · exact h.colGot
    · exact ite h.colLost h
    · exact h.colClosed
    · exact h
  · split
    · exact elsewhere h
    · exact h
  · exact ite h h.countSat
  · split
    · exact h
    · split
      · exact ite h.onCore h.onCore.trapCore
      · exact ite h.setReg.setReg.loadsReturn h.setReg.setReg
      · exact ite h h.onCore

theorem closeOp {tag status data} (h : s₀.Framed s) : s₀.Framed (s.closeOp tag status data) := by
  unfold State.closeOp
  split
  · exact h
  · exact deliver (elsewhere h)

theorem opRecord {who code node detail} (h : s₀.Framed s) : s₀.Framed (s.opRecord who code node detail) := h.faultOncePerWindow

theorem refusedRecord {who node tag status} (h : s₀.Framed s) : s₀.Framed (s.refusedRecord who node tag status) :=
  ite h h.opRecord

theorem injectCell {die c} (h : s₀.Framed s) : s₀.Framed (s.injectCell die c) := elsewhere h

theorem acceptOp {die c o} (h : s₀.Framed s) : s₀.Framed (s.acceptOp die c o) := by
  unfold State.acceptOp
  obtain ⟨job, hjob⟩ : ∃ f, f = State.job := ⟨_, rfl⟩
  rw [← hjob]
  split
  · exact elsewhere h
  next i _ =>
    extract_lets -underBinder tag o s1 s2 g s3
    have h2 : s₀.Framed s2 := by
      have h1 : s₀.Framed s1 := h.countWrap
      unfold s2
      split
      · exact ite h1 h1.countWrap
      · exact h1
    have h3 : s₀.Framed s3 := elsewhere h2
    refine ite h3.countWrap.opRecord.closeOp (ite (ite ?_ (ite ?_ ?_)) (injectCell (elsewhere h3)))
    · split
      next e => exact (h3.serveLoad.of_third e).refusedRecord.closeOp
    · split
      next e => exact (h3.serveStore.of_snd e).refusedRecord.closeOp
    · split
      next e => exact (h3.atomicAt.of_third e).refusedRecord.closeOp

theorem issueOp {q} (h : s₀.Framed s) : s₀.Framed (s.issueOp q) := by
  unfold State.issueOp
  split
  · exact h.unmapped.deliver
  · exact ite h.unmapped.deliver (ite h.windowViolation.deliver h.acceptOp)

-- The functions of Machine/HgDispatch ---------------------------------------------------------------------------------

theorem sendLine {e node region o data poison isSeal} (h : s₀.Framed s) : s₀.Framed (s.sendLine e node region o data poison isSeal) :=
  ite h.landStore h.issueOp

theorem sendLines {e node region o data poison} (h : s₀.Framed s) : s₀.Framed (s.sendLines e node region o data poison) :=
  foldl h fun _ _ h => h.sendLine

theorem boardSwaps {par} (h : s₀.Framed s) : s₀.Framed (s.boardSwaps par) := by
  dsimp only [State.boardSwaps]
  split
  · exact h
  · exact foldl (foldlSnd h fun _ _ h => h.readEntries) fun _ _ h => ite h (foldl h fun _ _ h => ite h.writeLocal (ite h.issueOp h))

theorem runSwaps (h : s₀.Framed s) : s₀.Framed s.runSwaps := foldl (inHeadgate h) fun _ _ h => h.boardSwaps

theorem sendReturn {o z i row poison} (h : s₀.Framed s) : s₀.Framed (s.sendReturn o z i row poison) := h.sendLines.countWrap

theorem sendReturnSeal {o z n} (h : s₀.Framed s) : s₀.Framed (s.sendReturnSeal o z n) := sendLine (ite h.sendLines h)

theorem slotUnknown {slot sender kind layer} (h : s₀.Framed s) : s₀.Framed (s.slotUnknown slot sender kind layer) :=
  h.countSat.fault

end State.Framed
end Sys2Proof.Machine
end

section
namespace Sys2Proof.Machine

-- Sorted lists, folds and sparse tables ---------------------------------------------------------------------------------

theorem insertBy_perm {α : Type} (le : α → α → Bool) (x : α) (xs : List α) : (insertBy le x xs).Perm (x :: xs) := by
  induction xs with
  | nil => exact .refl _
  | cons y ys ih =>
    rw [insertBy]
    split
    · exact (ih.cons y).trans (.swap x y ys)
    · exact .refl _

/-- Sorting only orders a list anew. -/
theorem sortBy_perm {α : Type} (le : α → α → Bool) (xs : List α) : (sortBy le xs).Perm xs := by
  have hfold (acc : List α) : (xs.foldl (fun acc x => insertBy le x acc) acc).Perm (xs ++ acc) := by
    induction xs generalizing acc with
    | nil => exact .refl _
    | cons x xs ih => exact ((ih _).trans ((insertBy_perm le x acc).append_left xs)).trans List.perm_middle
  simpa [sortBy] using hfold []

/-- Where each step of a fold appends one value to its list, the list gains an image of each element, in order. -/
theorem foldl_map_append {α β γ δ : Type} {f : List β × γ → α → List β × γ} {g : β → δ} {h : α → δ}
    (hf : ∀ acc x, ∃ y, (f acc x).1 = acc.1 ++ [y] ∧ g y = h x) (xs : List α) (acc : List β × γ) :
    (xs.foldl f acc).1.map g = acc.1.map g ++ xs.map h := by
  induction xs generalizing acc with
  | nil => simp
  | cons x xs ih =>
    obtain ⟨y, hy, hg⟩ := hf acc x
    simp [ih, hy, hg]

/-- A key that a filter takes out of a sparse table reads as the default. -/
theorem tblGetD_filter_of_not {α : Type} {k : Nat} {keep : Nat → Bool} (h : keep k = false) (d : α) (t : List (Nat × α)) :
    tblGetD k d (t.filter fun e => keep e.1) = d := by
  rw [tblGetD, tblFind_eq_none]
  · rfl
  · rintro e he rfl
    simp [h] at he

-- Parts that a command can change ---------------------------------------------------------------------------------------

theorem State.hg_keep {w : List Part} (h : Part.hg ∈ w) (s t : State) : (s.keep w t).hg = t.hg := by simp [h]

theorem State.flt_keep {w : List Part} (h : Part.flt ∈ w) (s t : State) : (s.keep w t).flt = t.flt := by simp [h]

-- Zones -----------------------------------------------------------------------------------------------------------------

theorem State.zonesByNode_perm (s : State) : s.zonesByNode.Perm s.zones := sortBy_perm _ _

/-- No node is late exactly when every return zone is complete. -/
theorem State.lateNodes_isEmpty (s : State) (p : HgStep) : (s.lateNodes p).isEmpty = s.allComplete true p.parity := by
  rw [Bool.eq_iff_iff]
  simp [State.lateNodes, State.allComplete, s.zonesByNode_perm.mem_iff]

-- A step at the owner -----------------------------------------------------------------------------------------------------

/-- The parts of a slot's work that its shape record's leaving does not touch: its rows, and whether its done item is in. -/
def SlotWork.left (w : SlotWork) : List (Nat × Nat) × Bool := (w.rows, w.done)

/-- Does a slot of a step at the owner have tokens and no done item yet? -/
def OwnerStep.working (o : OwnerStep) : Bool := o.slots.any fun w => !w.rows.isEmpty && !w.done

theorem OwnerStep.working_iff (o : OwnerStep) : o.working = true ↔ ∃ w ∈ o.slots, w.rows ≠ [] ∧ w.done = false := by
  simp [OwnerStep.working]

theorem OwnerStep.working_congr {o q : OwnerStep} (h : o.slots.map SlotWork.left = q.slots.map SlotWork.left) :
    o.working = q.working := by
  have hany (o : OwnerStep) : o.working = (o.slots.map SlotWork.left).any fun x => !x.1.isEmpty && !x.2 := by
    rw [List.any_map]
    rfl
  rw [hany, hany, h]

/-- A step with work left does not end (R68). -/
theorem State.finishOwner_of_working {o : OwnerStep} (h : o.working = true) (s : State) : s.finishOwner o = s := by
  obtain ⟨w, hw, hrows, hdone⟩ := o.working_iff.mp h
  have hall : o.slots.all (fun w => w.pushed && (w.done || w.rows.isEmpty)) = false :=
    List.all_eq_false.mpr ⟨w, hw, by simp [hrows, hdone]⟩
  rw [State.finishOwner, hall]
  rfl

/-- Ending a step takes no other step up. -/
theorem State.finishOwner_owners_subset (s : State) (o : OwnerStep) : (s.finishOwner o).hg.owners ⊆ s.hg.owners := by
  unfold State.finishOwner
  split
  · exact List.Subset.refl _
  · extract_lets -underBinder counts gone hg u
    have hsend : State.Framed u (counts.foldl (fun s c => if c.1.relaySrc then s else s.sendReturnSeal o c.1 c.2) u) :=
      State.Framed.foldl (.refl u) fun _ _ h => .ite h h.sendReturnSeal
    rw [hsend.owners]
    exact List.filter_subset_self _

theorem State.finishOwners_owners_subset (s : State) : s.finishOwners.hg.owners ⊆ s.hg.owners :=
  List.foldlRecOn (motive := fun t : State => t.hg.owners ⊆ s.hg.owners) _ _ (List.Subset.refl _)
    fun t h o _ => List.Subset.trans (t.finishOwner_owners_subset o) h

theorem State.finishOwners_of_nil {s : State} (h : s.hg.owners = []) : s.finishOwners = s := by
  rw [State.finishOwners, h]
  rfl

theorem State.finishOwners_of_working {s : State} {o : OwnerStep} (h : s.hg.owners = [o]) (ho : o.working = true) :
    s.finishOwners = s := by
  rw [State.finishOwners, h]
  exact s.finishOwner_of_working ho

/-- The load-board swaps leave the steps at the owner as they are. -/
theorem State.runSwaps_owners (s : State) : s.runSwaps.hg.owners = s.hg.owners := (State.Framed.refl s).runSwaps.owners

theorem State.runSwaps_of_nil {s : State} (h : s.hg.swapDue = []) : s.runSwaps = s := by
  simp only [State.runSwaps, h, List.foldl_nil]
  rw [← h]

-- Taking a step up --------------------------------------------------------------------------------------------------------

/-- Taking up adds one step at the owner, of the parity taken up, with the layer and number of the first zone's seal. -/
theorem State.takeOwner_owners (s : State) (par : Nat) {z0 : Zone} {zs : List Zone} (hz : s.zonesByNode = z0 :: zs) :
    ∃ o : OwnerStep, (s.takeOwner par).hg.owners = s.hg.owners ++ [o] ∧ o.parity = par ∧
      o.layer = (s.landing (landKey z0.z false par)).layer ∧ o.number = (s.landing (landKey z0.z false par)).step := by
  generalize ht : s.takeOwner par = t
  unfold State.takeOwner at ht
  extract_lets -underBinder zones at ht
  have hzones : zones = z0 :: zs := hz
  clear_value zones
  subst hzones
  dsimp -zeta only at ht
  extract_lets -underBinder x layer own slots rowsOf fits o hg u v at ht
  have hread : u.hg.owners = s.hg.owners ++ [o] := by
    refine congrArg (· ++ [o]) (State.Framed.owners (s := s) ?_)
    exact .foldlSnd (r := ([], s)) (.refl s) fun _ _ h => h.readEntries
  have hsend : u.Framed t := by
    subst ht
    refine .foldl (.ite (.refl u) (.zoneOverflow (.refl u))) fun _ _ h => .foldl h fun _ _ h => ?_
    split
    · exact .sendReturn (.ite h.slotUnknown h)
    · exact .ite h h.sendReturn
  exact ⟨o, hsend.owners.trans hread, rfl, rfl, rfl⟩

/-- The shape records that leave mark their slots as pushed and change no other work. -/
theorem State.pushShapes_owners {s : State} {o : OwnerStep} (h : s.hg.owners = [o]) :
    ∃ ws, (s.pushShapes o).hg.owners = [{ o with slots := ws }] ∧ ws.map SlotWork.left = o.slots.map SlotWork.left := by
  generalize ht : s.pushShapes o = t
  unfold State.pushShapes at ht
  extract_lets -underBinder r u at ht
  subst ht
  refine ⟨r.1, ?_, ?_⟩
  · have hu : s.Framed u := by
      refine .foldlThird (r := ([], false, s)) (.refl s) fun _ _ h => .iteThird h ?_
      split
      next e => exact h.pushNow.of_snd e
    show (u.hg.setOwner _).owners = _
    rw [HgState.setOwner, hu.owners, h]
    simp
  · have hleft : r.1.map SlotWork.left = o.slots.zipIdx.map fun e => e.1.left := by
      refine foldl_map_append (fun acc e => ?_) _ _
      split
      · exact ⟨_, rfl, rfl⟩
      · split
        exact ⟨_, rfl, rfl⟩
    rw [hleft, ← o.slots.zipIdx_map_fst 0, List.map_map, List.zipIdx_map_fst]
    rfl

/-- The parities whose step SHAPE_RECORDS takes up. -/
def State.readyParities (s : State) : List Nat :=
  [0, 1].filter fun par =>
    !s.hgHeld && !s.zones.isEmpty && s.allComplete false par && !(s.hg.owners.any fun o => o.parity == par)

/-- The shape records still to leave are pushed, unless the Headgate is held. -/
def State.leaveShapes (s : State) : State := if s.hgHeld then s else s.hg.owners.foldl State.pushShapes s

theorem State.shapeRecords_eq (s : State) : ∃ le,
    s.shapeRecords = ((sortBy le s.readyParities).foldl State.takeOwner s).leaveShapes.finishOwners.runSwaps := ⟨_, rfl⟩

theorem State.leaveShapes_of_nil {s : State} (h : s.hg.owners = []) : s.leaveShapes = s := by
  simp [State.leaveShapes, h]

theorem State.leaveShapes_owners {s : State} {o : OwnerStep} (h : s.hg.owners = [o]) :
    ∃ ws, s.leaveShapes.hg.owners = [{ o with slots := ws }] ∧ ws.map SlotWork.left = o.slots.map SlotWork.left := by
  unfold State.leaveShapes
  split
  · exact ⟨o.slots, h, rfl⟩
  · rw [h]
    exact State.pushShapes_owners h

/-- Nothing to take up, nothing at work and no swap called for: SHAPE_RECORDS does nothing. -/
theorem State.shapeRecords_of_none {s : State} (howners : s.hg.owners = []) (hswap : s.hg.swapDue = [])
    (h : s.hgHeld = true ∨ s.zones = [] ∨ (s.allComplete false 0 = false ∧ s.allComplete false 1 = false)) :
    s.shapeRecords = s := by
  have hready : s.readyParities = [] := by
    rcases h with h | h | ⟨h0, h1⟩
    · simp [State.readyParities, h]
    · simp [State.readyParities, h]
    · simp [State.readyParities, h0, h1]
  obtain ⟨le, heq⟩ := s.shapeRecords_eq
  calc
    s.shapeRecords = s.leaveShapes.finishOwners.runSwaps := by rw [heq, hready]; rfl
    _ = s := by rw [State.leaveShapes_of_nil howners, State.finishOwners_of_nil howners, State.runSwaps_of_nil hswap]

/-- One parity is ready: its step is taken up, its shape records leave, and it stays while a slot of it has work left. -/
theorem State.shapeRecords_of_ready {s : State} {par : Nat} (hready : s.readyParities = [par]) {o : OwnerStep}
    (htake : (s.takeOwner par).hg.owners = [o]) (hwork : o.working = true) :
    ∃ ws, s.shapeRecords.hg.owners = [{ o with slots := ws }] ∧ { o with slots := ws }.working = true := by
  obtain ⟨ws, howner, hleft⟩ := State.leaveShapes_owners htake
  have hstill : { o with slots := ws }.working = true := (OwnerStep.working_congr hleft).trans hwork
  obtain ⟨le, heq⟩ := s.shapeRecords_eq
  refine ⟨ws, ?_, hstill⟩
  calc
    s.shapeRecords.hg.owners = (s.takeOwner par).leaveShapes.finishOwners.runSwaps.hg.owners := by rw [heq, hready]; rfl
    _ = (s.takeOwner par).leaveShapes.hg.owners := by
      rw [State.runSwaps_owners, State.finishOwners_of_working howner hstill]
    _ = [{ o with slots := ws }] := howner

/-- R66, R199. -/
theorem shapeRecordsTakesTheStepUp : Claims.ShapeRecordsTakesTheStepUp := by
  intro s hlive howners
  have hexec : exec .shapeRecords s = .next (s.keep (scopeFabric ++ [.chans]) s.shapeRecords) := State.act_live hlive _ _
  refine ⟨fun hswap h => ?_, fun par hheld hpar hzones hdone hother hany => ?_⟩
  · rw [hexec, State.shapeRecords_of_none howners hswap h, State.keep_self]
  · have hne : s.zonesByNode ≠ [] := fun h => hzones (List.perm_nil.mp (h ▸ s.zonesByNode_perm.symm))
    obtain ⟨z0, zs, hz⟩ := List.exists_cons_of_ne_nil hne
    obtain ⟨o, htake, hparity, hlayer, hnumber⟩ := s.takeOwner_owners par hz
    rw [howners, List.nil_append] at htake
    have hwork : o.working = true := by
      rw [htake] at hany
      simpa [OwnerStep.working] using hany
    have hready : s.readyParities = [par] := by
      obtain rfl | rfl : par = 0 ∨ par = 1 := by omega
      · simp [State.readyParities, howners, hheld, hzones, hdone, show s.allComplete false 1 = false from hother]
      · simp [State.readyParities, howners, hheld, hzones, hdone, show s.allComplete false 0 = false from hother]
    obtain ⟨ws, howner, hstill⟩ := State.shapeRecords_of_ready hready htake hwork
    refine ⟨_, { o with slots := ws }, hexec, ?_, hparity, (OwnerStep.working_iff _).mp hstill, ?_, ?_⟩
    · rw [State.hg_keep (by decide), howner]
      exact List.mem_singleton_self _
    · simpa [hz] using hlayer
    · simpa [hz] using hnumber

-- Done items --------------------------------------------------------------------------------------------------------------

/-- Sending a slot's rows back gathers scales, and changes neither the step's number nor its slots. -/
theorem State.returnRows_owner (s : State) (o : OwnerStep) (w : SlotWork) (fault : Bool) :
    (s.returnRows o w fault).1.number = o.number ∧ (s.returnRows o w fault).1.slots = o.slots := by
  refine List.foldlRecOn (motive := fun r : OwnerStep × State => r.1.number = o.number ∧ r.1.slots = o.slots) _ _ ⟨rfl, rfl⟩ ?_
  intro r h e _
  dsimp only
  split
  · exact h
  · exact h

/-- The record of R202 carries its kind. -/
theorem State.slotUnknown_record (s : State) (slot kind layer : Nat) (hkind : kind < 16) :
    ∃ r ∈ (s.slotUnknown slot s.node kind layer).flt.fresh,
      r.code = BitVec.ofNat 8 Code.slotUnknown ∧ bitsOf r.detail.toNat 28 4 = kind := by
  obtain ⟨r, hr, hd⟩ := State.fault_reports (s.countSat Reg.HG_CNT_FAULTS Fld.HG_CNT_FAULTS_SLOT_UNKNOWNS 1)
    (engineUnit (s.countSat Reg.HG_CNT_FAULTS Fld.HG_CNT_FAULTS_SLOT_UNKNOWNS 1).firstEngine 2) Code.slotUnknown none
    (slot % 4096 + s.node * 2 ^ 12 + kind * 2 ^ 28 + layer * 2 ^ 32)
  refine ⟨r, ?_, hd.code, ?_⟩
  · rw [State.slotUnknown, hr]
    exact List.mem_append_right _ (List.mem_singleton_self r)
  · have hnode : s.node < 2 ^ 16 := bitsOf_lt _ _ _
    rw [hd.detail, BitVec.toNat_ofNat, bitsOf, Nat.shiftRight_eq_div_pow]
    omega

/-- The slot, the row count and the step number that a done item names (R201). -/
def itemSlot (bs : List Byte) : Nat := leNat (sliceOf bs 0 2) % 4096
def itemRows (bs : List Byte) : Nat := leNat (sliceOf bs 4 4)
def itemNumber (bs : List Byte) : Nat := leNat (sliceOf bs 8 8)

/-- The Headgate pops its done channel. -/
def State.popDone (s : State) : Option (List Byte × Bool × Bool) × State :=
  s.popNow (.engine s.firstEngine 2) (s.fld Reg.HG_XCH_WORK Fld.HG_XCH_WORK_DONE_CHANNEL)

/-- The work that a done item names: the slot at work, with rows and its shape record out, of the step at the owner. -/
def State.doneWork (s : State) (bs : List Byte) : Option SlotWork :=
  (s.hg.owners.find? fun o => o.number == itemNumber bs).bind fun o =>
    o.slots.find? fun w => w.slot == itemSlot bs && w.pushed && !w.done && !w.rows.isEmpty

/-- A slot's work ended in a step at the owner. -/
def OwnerStep.endSlot (o : OwnerStep) (slot : Nat) : OwnerStep :=
  { o with slots := o.slots.map fun v => if v.slot == slot then { v with done := true } else v }

theorem OwnerStep.endSlot_done (o : OwnerStep) (slot : Nat) : ∀ w ∈ (o.endSlot slot).slots, w.slot = slot → w.done = true := by
  intro w hw hslot
  obtain ⟨v, -, rfl⟩ := List.mem_map.mp hw
  by_cases hv : v.slot = slot
  · simp [hv]
  · simp [hv] at hslot

theorem HgState.mem_setOwner {h : HgState} {o q : OwnerStep} (hq : q ∈ (h.setOwner o).owners) (hn : q.number = o.number) : q = o := by
  obtain ⟨p, -, rfl⟩ := List.mem_map.mp hq
  by_cases hp : p.number = o.number
  · simp [hp]
  · simp [hp] at hn

theorem State.doneItem_of_stopped {s : State} (h : s.sw.stopped = true) : s.doneItem = s := by
  simp [State.doneItem, h]

section
variable {s u : State} {bs : List Byte} {fin bad : Bool}

theorem State.doneItem_of_none (h : s.sw.stopped = false) (hpop : s.popDone = (none, u)) : s.doneItem = u := by
  rw [State.popDone] at hpop
  simp only [State.doneItem, h, hpop, Bool.false_eq_true, if_false]

/-- An item that names no slot at work, reads bad or miscounts is discarded (R202). -/
theorem State.doneItem_of_stray (h : s.sw.stopped = false) (hpop : s.popDone = (some (bs, fin, bad), u))
    (hstray : ¬ ∃ w, u.doneWork bs = some w ∧ bad = false ∧ itemRows bs = w.rows.length) :
    ∃ layer, s.doneItem = u.slotUnknown (itemSlot bs) u.node 2 layer := by
  rw [State.popDone] at hpop
  simp only [State.doneItem, h, hpop, Bool.false_eq_true, if_false]
  split
  · exact ⟨_, rfl⟩
  next o ho =>
    split
    · exact ⟨_, rfl⟩
    next w hw =>
      have hwork : u.doneWork bs = some w := (congrArg (Option.bind · _) ho).trans hw
      have hbad : (bad || itemRows bs != w.rows.length) = true := by
        by_contra hgood
        simp only [Bool.or_eq_true, bne_iff_ne, not_or, Bool.not_eq_true, ne_eq, Decidable.not_not] at hgood
        exact hstray ⟨w, hwork, hgood⟩
      exact ⟨o.layer, if_pos hbad⟩

/-- A counted item's rows are sent back and its slot's work ends (R201). -/
theorem State.doneItem_of_counted (h : s.sw.stopped = false) (hpop : s.popDone = (some (bs, fin, bad), u)) {w : SlotWork}
    (hwork : u.doneWork bs = some w) (hbad : bad = false) (hrows : itemRows bs = w.rows.length) :
    ∃ (o : OwnerStep) (v : State), o.number = itemNumber bs ∧
      s.doneItem = State.runSwaps (State.finishOwners { v with hg := v.hg.setOwner (o.endSlot (itemSlot bs)) }) := by
  obtain ⟨o, ho, hw⟩ := Option.bind_eq_some_iff.mp hwork
  have hnumber : o.number = itemNumber bs := by simpa using List.find?_some ho
  rw [State.popDone] at hpop
  rw [itemNumber] at ho
  rw [itemSlot] at hw
  rw [itemRows] at hrows
  refine ⟨(u.returnRows o w (bitAt (leNat (sliceOf bs 16 1)) 0)).1, (u.returnRows o w (bitAt (leNat (sliceOf bs 16 1)) 0)).2,
    (u.returnRows_owner o w _).1.trans hnumber, ?_⟩
  simp only [State.doneItem, h, hpop, ho, hw, hbad, hrows, Bool.false_eq_true, if_false, bne_self_eq_false, Bool.or_self]
  rfl
end

/-- R201, R202. -/
theorem doneItemEndsItsSlot : Claims.DoneItemEndsItsSlot := by
  intro s hlive
  have hexec : exec .doneItem s = .next (s.keep (scopeFabric ++ [.chans]) s.doneItem) := State.act_live hlive _ _
  refine ⟨fun hstop => by rw [hexec, State.doneItem_of_stopped hstop, State.keep_self], fun u item hstop hpop => ⟨_, hexec, ?_, ?_⟩⟩
  · rintro rfl
    rw [State.doneItem_of_none hstop hpop]
    exact ⟨State.hg_keep (by decide) s u, State.flt_keep (by decide) s u⟩
  · rintro bs fin bad rfl slot number owner work counted
    refine ⟨?_, fun hstray => ?_⟩
    · rintro ⟨w, hwork, hbad, hrows⟩ q hq hnumber
      obtain ⟨o, v, ho, heq⟩ := State.doneItem_of_counted hstop hpop hwork hbad hrows
      rw [State.hg_keep (by decide), heq, State.runSwaps_owners] at hq
      obtain rfl := HgState.mem_setOwner (State.finishOwners_owners_subset _ hq) (hnumber.trans ho.symm)
      exact o.endSlot_done slot
    · obtain ⟨layer, heq⟩ := State.doneItem_of_stray hstop hpop hstray
      rw [State.hg_keep (by decide), State.flt_keep (by decide), heq]
      exact ⟨(State.Framed.refl u).slotUnknown.owners, u.slotUnknown_record slot 2 layer (by decide)⟩

-- The combine and the deadline ----------------------------------------------------------------------------------------------

/-- A step that ends leaves the list of steps, and what has landed in its return zones is forgotten. -/
theorem State.endStep_ends (s : State) (p : HgStep) (hpar : p.parity < 2) :
    (∀ q ∈ (s.endStep p).hg.steps, q.number ≠ p.number) ∧
      ∀ z, (s.endStep p).landing (landKey z true p.parity) = ⟨0, none, false, false⟩ := by
  constructor
  · intro q hq
    simpa using (List.mem_filter.mp hq).2
  · intro z
    refine tblGetD_filter_of_not (keep := fun k => !(k % 2 == p.parity && k / 2 % 2 == 1)) ?_ _ _
    have hmod : landKey z true p.parity % 2 = p.parity := by simp only [landKey]; omega
    have hret : landKey z true p.parity / 2 % 2 = 1 := by simp only [landKey, b2n, if_true]; omega
    simp [hmod, hret]

theorem State.combine_of_none {s : State}
    (h : s.hgHeld = true ∨ s.hg.steps.find? (fun p => p.stage = .dispatched && s.allComplete true p.parity) = none) :
    s.combine = s := by
  unfold State.combine
  split
  · rfl
  next hp =>
    obtain hheld | hnone := h
    · exact if_pos hheld
    · cases hnone.symm.trans hp

theorem State.combine_of_complete {s : State} {p : HgStep} (hheld : s.hgHeld = false)
    (h : s.hg.steps.find? (fun p => p.stage = .dispatched && s.allComplete true p.parity) = some p) :
    ∃ u : State, s.combine = u.endStep p := by
  simp only [State.combine, h, hheld, Bool.false_eq_true, if_false]
  exact ⟨_, rfl⟩

/-- While fabric time is valid, a step has missed its deadline when that has passed and its return zones are not complete. -/
theorem State.stepMissed_eq {s : State} (h : s.timeValid = true) (at_ : Nat) :
    s.stepMissed at_ = fun p => p.stage != .failed && decide (p.deadline ≤ at_) &&
      !(decide (p.stage = .dispatched) && s.allComplete true p.parity) := by
  funext p
  simp only [State.stepMissed, h, s.lateNodes_isEmpty, Bool.and_true]
  rfl

theorem State.missDeadline_of_none {s : State} {at_ : Nat} (h : s.sw.stopped = true ∨ s.hg.steps.find? (s.stepMissed at_) = none) :
    s.missDeadline at_ = s := by
  unfold State.missDeadline
  split
  · rfl
  next hp =>
    obtain hstop | hnone := h
    · exact if_pos hstop
    · cases hnone.symm.trans hp

/-- The oldest step that has missed its deadline is recorded and over, and no step starts until the LAND regions are reset (R70). -/
theorem State.missDeadline_of_missed {s : State} {at_ : Nat} {p : HgStep} (hstop : s.sw.stopped = false)
    (h : s.hg.steps.find? (s.stepMissed at_) = some p) :
    ∃ (u : State) (unit detail : Nat), ∃ v, v = (u.fault unit Code.deadlineMissed none detail).endStep p ∧
      s.missDeadline at_ = { v with hg := { v.hg with
        faulted := true, missed := (p.parity :: v.hg.missed).eraseDups, landReset := [] } } := by
  simp only [State.missDeadline, h, hstop, Bool.false_eq_true, if_false]
  exact ⟨_, _, _, _, rfl, rfl⟩

/-- R69, R70, R204. -/
theorem combineOrDeadlineEndsTheStep : Claims.CombineOrDeadlineEndsTheStep := by
  intro s hlive ended complete missed
  have hcombine : exec .combine s = .next (s.keep scopeFabric s.combine) := State.act_live hlive _ _
  have hdeadline : exec .exchangeDeadline s = .next (s.keep scopeReservoir (s.missDeadline s.now)) := State.act_live hlive _ _
  refine ⟨fun h => ?_, fun p hpar hheld hp => ?_, fun h => ?_, fun p hpar hstop htime hp => ?_⟩
  · rw [hcombine, State.combine_of_none h, State.keep_self]
  · obtain ⟨u, heq⟩ := State.combine_of_complete hheld hp
    refine ⟨_, hcombine, ?_⟩
    rw [heq]
    exact u.endStep_ends p hpar
  · have hnone : s.sw.stopped = true ∨ s.hg.steps.find? (s.stepMissed s.now) = none := by
      obtain hstop | htime | hnone := h
      · exact .inl hstop
      · exact .inr (List.find?_eq_none.mpr fun p _ => by simp [State.stepMissed, htime])
      · cases htime : s.timeValid
        · exact .inr (List.find?_eq_none.mpr fun p _ => by simp [State.stepMissed, htime])
        · exact .inr (by rw [State.stepMissed_eq htime]; exact hnone)
    rw [hdeadline, State.missDeadline_of_none hnone, State.keep_self]
  · rw [show missed = s.stepMissed s.now from (State.stepMissed_eq htime s.now).symm] at hp
    obtain ⟨u, unit, detail, v, hv, heq⟩ := State.missDeadline_of_missed hstop hp
    obtain ⟨r, hr, hd⟩ := u.fault_reports unit Code.deadlineMissed none detail
    refine ⟨_, r, hdeadline, ?_⟩
    rw [heq]
    refine ⟨?_, rfl, ?_, rfl, ?_, hd.code⟩
    · rw [hv]
      exact State.endStep_ends _ p hpar
    · exact List.mem_eraseDups.mpr List.mem_cons_self
    · show r ∈ v.flt.fresh
      rw [hv]
      show r ∈ (u.fault unit Code.deadlineMissed none detail).flt.fresh
      rw [hr]
      exact List.mem_append_right _ (List.mem_singleton_self r)

/-- Settles O26: storage, Sluice and fabric operations leave the steps at the owner as they stand (`State.Framed`), so SHAPE_RECORDS, the
done items and the end of a step change them only where their own rules do; the combine and the deadline end their step last. -/
theorem stepsEndAndCombine : Obligations.StepsEndAndCombine :=
  ⟨shapeRecordsTakesTheStepUp, doneItemEndsItsSlot, combineOrDeadlineEndsTheStep⟩

end Sys2Proof.Machine
end

section
namespace Sys2Proof.Machine

-- The end of a cycle ------------------------------------------------------------------------------------------------------

/-- From `s` to `t` nothing has changed but Travo Link, the fault records and what the block has sent: what writing the fault records of a
cycle can reach. (`State.Framed` leaves the registers open, and the time that passes reads the clock step there.) -/
def State.Recorded (s t : State) : Prop := ∃ tl flt out, t = { s with tl := tl, flt := flt, out := out }

namespace State.Recorded
variable {s₀ s : State}

theorem refl (s : State) : s.Recorded s := ⟨_, _, _, rfl⟩

/-- A record update of those parts, written out as it stands in a definition. -/
theorem change (h : s₀.Recorded s) {tl flt out} :
    s₀.Recorded (State.mk s.fuses s.clock s.tb s.lock s.present s.regs s.mem s.marks s.ecc s.rsv s.banks s.chans s.hg s.fab s.ports s.cores
      s.cls s.col tl s.sw s.boot s.pwr s.mg flt out s.free s.pending) := by
  obtain ⟨_, _, _, rfl⟩ := h
  exact ⟨_, _, _, rfl⟩

theorem ite {c : Prop} [Decidable c] {a b : State} (ha : s₀.Recorded a) (hb : s₀.Recorded b) : s₀.Recorded (if c then a else b) := by
  split
  · exact ha
  · exact hb

theorem sendFlit {f} (h : s₀.Recorded s) : s₀.Recorded (s.sendFlit f) := ite h.change h

theorem requestLine {line own whole} (h : s₀.Recorded s) : s₀.Recorded (s.requestLine line own whole) := ite h (sendFlit h.change)

theorem performWrites : ∀ {ws blocked} {s : State}, s₀.Recorded s → s₀.Recorded (performWrites ws blocked s)
  | [], _, _, h => h
  | _ :: _, _, _, h => ite (performWrites h.change) (performWrites (ite h.change (requestLine h.change)))

theorem companionWrite {who a bs} (h : s₀.Recorded s) : s₀.Recorded (s.companionWrite who a bs) := ite (performWrites h.change) h.change

theorem ringAppend {r entry} (h : s₀.Recorded s) : s₀.Recorded (s.ringAppend r entry) := h.companionWrite.change

theorem eventToRing {r} (h : s₀.Recorded s) : s₀.Recorded (s.eventToRing r) := h.ringAppend.companionWrite

theorem writeRecord {r} (h : s₀.Recorded s) : s₀.Recorded (s.writeRecord r) := ite (eventToRing h.change) (ite h.change h.change)

theorem writeFaults (h : s₀.Recorded s) : s₀.Recorded s.writeFaults :=
  List.foldlRecOn _ _ h.change fun _ h _ _ => h.writeRecord

end State.Recorded

theorem State.Framed.chargeCycles {s₀ s : State} {n : Nat} (h : s₀.Framed s) : s₀.Framed (s.chargeCycles n) := by
  unfold State.chargeCycles
  split
  · exact h
  · have hcl := fun a f k => h.ite (c := k = 0) (h.countWrap (a := a) (f := f) (n := k))
    exact .ite (hcl ..) (hcl ..).countWrap

theorem State.job_lt {s : State} {j : Nat} (h : s.job = some j) : j < 256 := by
  unfold State.job at h
  split at h
  · cases h
    exact bitsOf_lt ..
  · cases h

/-- The accounts of the jobs lie apart from the clock's registers (R464, R551). -/
theorem State.chargeCycles_clockStep (s : State) (n : Nat) : (s.chargeCycles n).clockStep = s.clockStep := by
  have haccount {u : State} {a : Nat} (ha : Reg.PWR_STATUS ≠ a) (f : BitField) (k : Nat) :
      (if k = 0 then u else u.countWrap a f k).clockStep = u.clockStep := by
    split
    · rfl
    · exact State.fld_setFld_ne ha u _ _ _
  unfold State.chargeCycles
  split
  · rfl
  next j hj =>
    have hlt := State.job_lt hj
    have h0 : Reg.PWR_STATUS ≠ Reg.WM_ACCT0 j := by unfold Reg.PWR_STATUS Reg.WM_ACCT0; omega
    have h1 : Reg.PWR_STATUS ≠ Reg.WM_ACCT1 j := by unfold Reg.PWR_STATUS Reg.WM_ACCT1; omega
    exact (haccount h1 ..).trans (haccount h0 ..)

/-- The end of a cycle writes records and charges the running job; then the time passes. -/
theorem State.runTicks_eq (s : State) (n : Nat) :
    ∃ u : State, s.runTicks n = u.tick n ∧ u.clock = s.clock ∧ u.tb = s.tb ∧ u.pwr = s.pwr ∧ u.clockStep = s.clockStep := by
  let cycles := (s.tick n).clock.cycles - s.clock.cycles
  obtain ⟨tl, flt, out, hw⟩ : s.Recorded (if cycles = 0 then s else s.writeFaults) := .ite (.refl s) (State.Recorded.refl s).writeFaults
  have hf := (State.Framed.refl (if cycles = 0 then s else s.writeFaults)).chargeCycles (n := cycles)
  refine ⟨_, rfl, hf.clock.trans ?_, hf.tb.trans ?_, hf.pwr.trans ?_, (State.chargeCycles_clockStep _ _).trans ?_⟩
  all_goals rw [hw]
  rfl

-- Ticks -------------------------------------------------------------------------------------------------------------------

/-- From `s` to `t`, `n` ticks have passed (R72, R75). -/
structure State.Passed (s : State) (n : Nat) (t : State) : Prop where
  tb : t.tb = { s.tb with acc := s.tb.acc + BitVec.ofNat 96 (n * s.tb.rate.toNat) }
  elapsed : t.clock.elapsedNs = s.clock.elapsedNs + (s.tb.acc.toNat % 2 ^ 32 + n * s.tb.rate.toNat) / 2 ^ 32
  ticks : t.clock.ticks = s.clock.ticks + n

/-- Ticks in two runs add up: the fraction of a nanosecond that the first run leaves counts in the second. -/
theorem State.Passed.trans {s t u : State} {m n : Nat} (h : s.Passed m t) (k : t.Passed n u) : s.Passed (m + n) u := by
  obtain ⟨htb, hns, hticks⟩ := h
  obtain ⟨ktb, kns, kticks⟩ := k
  refine ⟨?_, ?_, by omega⟩
  · rw [ktb, htb, Nat.add_mul, BitVec.ofNat_add, ← BitVec.add_assoc]
  · rw [kns, hns, htb, Nat.add_mul]
    simp only [BitVec.toNat_add, BitVec.toNat_ofNat]
    omega

theorem State.runTicks_passed (s : State) (n : Nat) : s.Passed n (s.runTicks n) := by
  obtain ⟨u, heq, hclock, htb, -, -⟩ := s.runTicks_eq n
  rw [heq]
  exact ⟨by rw [← htb]; rfl, by rw [← htb, ← hclock]; rfl, by rw [← hclock]; rfl⟩

/-- A run of ticks with no clock change in it. -/
theorem State.runTicks_cycles (s : State) (n : Nat) :
    (s.runTicks n).clock.cycles = s.clock.cycles + (s.clock.frac + n * stepMhz s.clockStep) / 1250 ∧ (s.runTicks n).pwr = s.pwr := by
  obtain ⟨u, heq, hclock, -, hpwr, hstep⟩ := s.runTicks_eq n
  rw [heq, ← hclock, ← hstep]
  exact ⟨rfl, hpwr⟩

theorem State.ticks_of_steady {s : State} (h : s.pwr.clockAt = none) (n : Nat) : s.ticks n = s.runTicks n := by
  rw [State.ticks, h]

/-- The ticks before and after a clock change that falls due inside them are all counted. -/
theorem State.ticks_passed (s : State) (n : Nat) : s.Passed n (s.ticks n) := by
  unfold State.ticks
  split
  next due step _ =>
    extract_lets d t pwr u
    split
    next hdue =>
      obtain ⟨htb, hns, hticks⟩ := s.runTicks_passed d
      have hfirst : s.Passed d u := ⟨htb, hns, hticks⟩
      have hall := hfirst.trans (u.runTicks_passed (n - d))
      rwa [Nat.add_sub_cancel' hdue] at hall
    · exact s.runTicks_passed n
  · exact s.runTicks_passed n

/-- A command whose meaning is an update within a scope answers that update while the device is live. -/
theorem exec_act {i : Instr} {s : State} {w : List Part} {f : State → State} (h : exec i s = State.act w f s) (hlive : s.live = true) :
    exec i s = .next (s.keep w (f s)) := h.trans (State.act_live hlive w f)

/-- R72, R75, R541. -/
theorem tickAdvancesTime : Claims.TickAdvancesTime := by
  intro s n hlive
  have hexec : exec (.ftTick n) s = .next (s.keep (scopeOf (.ftTick n)) (s.ticks n)) :=
    exec_act (f := fun s => s.ticks n) rfl hlive
  obtain ⟨htb, hns, hticks⟩ := s.ticks_passed n
  refine ⟨_, hexec, htb, hns, hticks, fun hsteady => ?_⟩
  have hrun := s.runTicks_cycles n
  rw [← State.ticks_of_steady hsteady] at hrun
  exact hrun

/-- Settles O18: the records and charges at the end of a cycle leave the time and the clock step alone (`State.runTicks_eq`), and the ticks
on both sides of a clock change add up (`State.Passed.trans`). -/
theorem ticksAdvanceTime : Obligations.TicksAdvanceTime := tickAdvancesTime

end Sys2Proof.Machine
end

section
namespace Sys2Proof.Machine

-- Counting and reporting ----------------------------------------------------------------------------------------------------

/-- A saturating counter of a register word reads one count up. -/
theorem State.fld_countSat_self (s : State) (a : Nat) {f : BitField} (h : f.lo + f.w ≤ 64) (n : Nat) :
    (s.countSat a f n).fld a f = satAdd f.w (s.fld a f) n := by
  have hlt : satAdd f.w (s.fld a f) n < 2 ^ f.w := by
    have hpos := Nat.two_pow_pos f.w
    unfold satAdd
    omega
  rw [State.countSat, State.fld_setFld_self s a f _ h, Nat.mod_eq_of_lt hlt]

theorem State.regsBut_countSat (s : State) (a : Nat) (f : BitField) (n : Nat) : RegsBut s (s.countSat a f n) [a] :=
  fun _ hb => State.reg_setReg_ne (fun e => hb (List.mem_singleton.mpr e)) s _

/-- Counting writes no part but the registers. -/
theorem State.keep_countSat {w : List Part} (h : Part.regs ∈ w) (s : State) (a : Nat) (f : BitField) (n : Nat) :
    s.keep w (s.countSat a f n) = s.countSat a f n := by
  refine State.keep_same (fun p hp => ?_) rfl
  cases p
  case regs => exact absurd h hp
  all_goals rfl

theorem State.job_congr {s t : State} (h : s.regs = t.regs) : s.job = t.job := by
  unfold State.job State.flag
  rw [State.fld_congr h, State.fld_congr h]

/-- The running job stands in another register than the counts of fabric time. -/
theorem State.job_countSat (s : State) (f : BitField) (n : Nat) : (s.countSat Reg.FT_COUNT f n).job = s.job := by
  have hne : Reg.WM_SCHED ≠ Reg.FT_COUNT := by decide
  have hfld (g : BitField) : (s.countSat Reg.FT_COUNT f n).fld Reg.WM_SCHED g = s.fld Reg.WM_SCHED g := State.fld_setFld_ne hne ..
  unfold State.job State.flag
  rw [hfld, hfld]

/-- TIME_UNLOCKED is recorded and raised with the offset as it stands (R83). -/
theorem State.timeUnlocked_unlocked (s : State) (code : Nat) : TimeUnlocked s (s.timeUnlocked code) code :=
  ⟨s.fault_reports _ _ _ _, rfl⟩

/-- A record in detection speaks of its state by the job, the stamp and the records before it only, so a change of the timebase that moves
neither time nor its validity makes no difference. -/
theorem TimeUnlocked.rebase {s s' t : State} {code : Nat} (h : TimeUnlocked s' t code) (hflt : s'.flt = s.flt) (hout : s'.out = s.out)
    (hjob : s'.job = s.job) (hvalid : s'.timeValid = s.timeValid) (hnow : s'.now = s.now) (hclock : s'.clock = s.clock) :
    TimeUnlocked s t code := by
  obtain ⟨⟨r, hr, hd⟩, hevent⟩ := h
  refine ⟨⟨r, hflt ▸ hr, hd.code, hd.unit, hd.addrValid, hd.address, hd.detail, hjob ▸ hd.jobValid, hjob ▸ hd.job,
    hvalid ▸ hd.timeValid, ?_⟩, hout ▸ hevent⟩
  rw [← hvalid, ← hnow, ← hclock]
  exact hd.time

-- Changes of state ----------------------------------------------------------------------------------------------------------

/-- From `s` to `t` fabric time and the rate word stand: nothing has changed but the rest of the timebase, the registers listed, the fault
records and what the block has sent. -/
structure State.TimeHeld (s t : State) (as : List Nat) : Prop where
  parts : ∃ tb regs flt out, t = { s with tb := tb, regs := regs, flt := flt, out := out }
  acc : t.tb.acc = s.tb.acc
  rate : t.tb.rate = s.tb.rate
  regs : RegsBut s t as

/-- The scope of the commands that change the state of the timebase discards nothing. -/
theorem State.TimeHeld.keep {s t : State} {as : List Nat} (h : s.TimeHeld t as) : s.keep [.tb, .regs, .flt, .out] t = t := by
  obtain ⟨tb, regs, flt, out, rfl⟩ := h.parts
  rfl

theorem State.TimeHeld.trans {s t u : State} {as bs : List Nat} (h : s.TimeHeld t as) (k : t.TimeHeld u bs) : s.TimeHeld u (as ++ bs) := by
  refine ⟨?_, k.acc.trans h.acc, k.rate.trans h.rate, fun b hb => ?_⟩
  · obtain ⟨_, _, _, _, rfl⟩ := h.parts
    obtain ⟨_, _, _, _, rfl⟩ := k.parts
    exact ⟨_, _, _, _, rfl⟩
  · rw [List.mem_append, not_or] at hb
    exact (k.regs b hb.2).trans (h.regs b hb.1)

/-- A change of the timebase that is counted in a field of FT_COUNT and reported with TIME_UNLOCKED. -/
def State.reportChange (s : State) (tb : Timebase) (f : BitField) (code : Nat) : State :=
  State.timeUnlocked ({ s with tb := tb } |>.countSat Reg.FT_COUNT f 1) code

section
variable {s : State} {tb : Timebase} {f : BitField} {code : Nat}

theorem State.reportChange_regs : (s.reportChange tb f code).regs = (s.countSat Reg.FT_COUNT f 1).regs := rfl

theorem State.reportChange_timeHeld (hacc : tb.acc = s.tb.acc) (hrate : tb.rate = s.tb.rate) :
    s.TimeHeld (s.reportChange tb f code) [Reg.FT_COUNT] :=
  ⟨⟨_, _, _, _, rfl⟩, hacc, hrate, fun b hb => (State.reg_congr State.reportChange_regs b).trans (s.regsBut_countSat _ f 1 b hb)⟩

theorem State.reportChange_unlocked (hvalid : tb.mode.valid = s.timeValid) (hacc : tb.acc = s.tb.acc) :
    TimeUnlocked s (s.reportChange tb f code) code :=
  (State.timeUnlocked_unlocked _ code).rebase rfl rfl (State.job_countSat ..) hvalid (by simp [State.now, hacc]) rfl

theorem State.reportChange_fld (h : f.lo + f.w ≤ 64) :
    (s.reportChange tb f code).fld Reg.FT_COUNT f = satAdd f.w (s.fld Reg.FT_COUNT f) 1 :=
  (State.fld_congr State.reportChange_regs _ f).trans (s.fld_countSat_self _ h 1)

end

theorem State.enterHoldover_eq (s : State) : s.enterHoldover =
    s.reportChange { s.tb with mode := .holdover, holdStart := s.clock.elapsedNs, inlierRun := 0, outlierRun := 0 }
      Fld.FT_COUNT_HOLDOVER_ENTRIES 3 := rfl

theorem State.enterHoldover_tb (s : State) :
    s.enterHoldover.tb = { s.tb with mode := .holdover, holdStart := s.clock.elapsedNs, inlierRun := 0, outlierRun := 0 } := rfl

theorem State.enterHoldover_timeHeld (s : State) : s.TimeHeld s.enterHoldover [Reg.FT_COUNT] :=
  s.enterHoldover_eq ▸ State.reportChange_timeHeld rfl rfl

theorem State.enterHoldover_unlocked {s : State} (h : s.timeValid = true) : TimeUnlocked s s.enterHoldover 3 :=
  s.enterHoldover_eq ▸ State.reportChange_unlocked h.symm rfl

theorem State.returnLocked_tb (s : State) :
    s.returnLocked.tb = { s.tb with mode := .locked, inlierRun := 0, outlierRun := 0 } := rfl

theorem State.returnLocked_timeHeld (s : State) (as : List Nat) : s.TimeHeld s.returnLocked as :=
  ⟨⟨_, _, _, _, rfl⟩, rfl, rfl, fun _ _ => rfl⟩

theorem State.returnLocked_unlocked {s : State} (h : s.timeValid = true) : TimeUnlocked s s.returnLocked 2 :=
  (State.timeUnlocked_unlocked _ 2).rebase rfl rfl rfl h.symm rfl rfl

/-- Has a timebase in LOCKED waited too long for a sample (R80)? -/
def State.sampleLate (s : State) : Prop :=
  s.tb.mode = .locked ∧ s.ftSrc < 2 ∧ s.tb.lastSample + 1500000000 ≤ s.clock.elapsedNs

/-- Is the error bound of HOLDOVER above its limit (R80, R82)? -/
def State.boundPassed (s : State) : Prop :=
  s.tb.mode = .holdover ∧ s.fld Reg.FT_CTRL Fld.FT_CTRL_HOLD_LIMIT * 1000000000 <
    s.fld Reg.FT_CTRL Fld.FT_CTRL_LOCK_NS * 1000000000 + s.fld Reg.FT_CTRL Fld.FT_CTRL_HOLD_DRIFT * (s.clock.elapsedNs - s.tb.holdStart)

theorem State.sampleTimeout_of_late {s : State} (h : s.sampleLate) : s.sampleTimeout = s.enterHoldover := by
  obtain ⟨hmode, hsrc, hlate⟩ := h
  simp [State.sampleTimeout, hmode, hsrc, hlate]

theorem State.sampleTimeout_of_not {s : State} (h : ¬ s.sampleLate) : s.sampleTimeout = s := by
  rw [State.sampleTimeout, if_neg]
  simpa [State.sampleLate, and_assoc] using h

theorem State.holdoverLimit_of_passed {s : State} (h : s.boundPassed) :
    s.holdoverLimit = s.reportChange { s.tb with mode := .lost } Fld.FT_COUNT_LOST_ENTRIES 4 := by
  obtain ⟨hmode, hbound⟩ := h
  simp [State.holdoverLimit, State.reportChange, hmode, hbound]

theorem State.holdoverLimit_of_not {s : State} (h : ¬ s.boundPassed) : s.holdoverLimit = s := by
  dsimp only [State.holdoverLimit]
  rw [if_neg]
  simpa [State.boundPassed] using h

/-- R80, R82, R83. -/
theorem silenceMeansHoldoverThenLost : Claims.SilenceMeansHoldoverThenLost := by
  intro s hlive entered silent bound lost
  have hsilence : exec .sampleTimeout s = .next (s.keep [.tb, .regs, .flt, .out] s.sampleTimeout) :=
    exec_act (f := State.sampleTimeout) rfl hlive
  have hlimit : exec .holdoverLimit s = .next (s.keep [.tb, .regs, .flt, .out] s.holdoverLimit) :=
    exec_act (f := State.holdoverLimit) rfl hlive
  have hvalid {m : TbMode} (h : s.tb.mode = m) (hm : m.valid = true) : s.timeValid = true := by rw [State.timeValid, h, hm]
  refine ⟨fun h => ?_, fun h => ?_, fun h => ?_, fun h => ?_⟩
  · rw [hsilence, State.sampleTimeout_of_late h, s.enterHoldover_timeHeld.keep]
    obtain ⟨hrec, hevent⟩ := State.enterHoldover_unlocked (hvalid h.1 rfl)
    exact ⟨_, rfl, rfl, rfl, ⟨rfl, rfl, hrec, hevent⟩, s.enterHoldover_eq ▸ State.reportChange_fld (by decide)⟩
  · rw [hsilence, State.sampleTimeout_of_not h, State.keep_self]
  · obtain ⟨hrec, hevent⟩ := State.reportChange_unlocked (s := s) (tb := { s.tb with mode := .lost })
      (f := Fld.FT_COUNT_LOST_ENTRIES) (code := 4) (hvalid h.1 rfl).symm rfl
    have hheld := State.reportChange_timeHeld (s := s) (tb := { s.tb with mode := .lost }) (f := Fld.FT_COUNT_LOST_ENTRIES) (code := 4)
      rfl rfl
    rw [hlimit, State.holdoverLimit_of_passed h, hheld.keep]
    exact ⟨_, rfl, rfl, rfl, ⟨rfl, rfl, hrec, hevent⟩, State.reportChange_fld (by decide)⟩
  · rw [hlimit, State.holdoverLimit_of_not h, State.keep_self]

-- A write of FT_CTRL ----------------------------------------------------------------------------------------------------------

/-- A write leaves the bits outside its fields. -/
theorem bitsOf_foldl_writeField {lo w : Nat} (lock : Bool) (new : Nat) {fields : List FieldDesc}
    (h : ∀ f ∈ fields, lo + w ≤ f.lo ∨ f.lo + f.w ≤ lo) (old : Nat) :
    bitsOf (fields.foldl (writeField lock new) old) lo w = bitsOf old lo w := by
  induction fields generalizing old with
  | nil => rfl
  | cons f fields ih =>
    have hput (x : Nat) : bitsOf (putBits old f.lo f.w x) lo w = bitsOf old lo w := bitsOf_putBits_ne (h f List.mem_cons_self) old x
    rw [List.foldl_cons, ih fun g hg => h g (List.mem_cons_of_mem _ hg)]
    unfold writeField
    split
    case h_4 =>
      split
      · rfl
      · exact hput _
    all_goals simp only [hput]

/-- FT_CTRL accepts every source, and SRC, the first of its fields, is locked by TOP_SETUP_LOCK (R95). -/
theorem regDescAt_ftCtrl : ∃ d rest, regDescAt Reg.FT_CTRL = some d ∧ (∀ src, d.src.accepts src = true) ∧
    d.fields = ⟨0, 2, .rwl, 0, none⟩ :: rest ∧ ∀ f ∈ rest, 2 ≤ f.lo :=
  ⟨_, _, rfl, fun _ => rfl, rfl, by decide⟩

/-- A field-by-field write changes its register, and at most reports a locked field besides (R13). -/
theorem State.writeFields_eq (s : State) (a : Nat) (d : RegDesc) (new : Nat) : ∃ flt,
    s.writeFields a d new = State.setReg { s with flt := flt } a (d.fields.foldl (writeField s.lock new) (s.reg a)) := by
  dsimp only [State.writeFields]
  split
  · exact ⟨_, rfl⟩
  · exact ⟨_, rfl⟩

/-- The field-by-field write of FT_CTRL: SRC takes the value written unless it is locked. -/
theorem State.writePlain_ftCtrl (s : State) (v : Nat) :
    s.TimeHeld (s.writePlain Reg.FT_CTRL v) [Reg.FT_CTRL] ∧ (s.writePlain Reg.FT_CTRL v).tb = s.tb ∧
      (s.writePlain Reg.FT_CTRL v).out = s.out ∧ (s.writePlain Reg.FT_CTRL v).ftSrc = if s.lock then s.ftSrc else v % 4 := by
  obtain ⟨d, rest, hd, -, hfields, hrest⟩ := regDescAt_ftCtrl
  obtain ⟨flt, heq⟩ := s.writeFields_eq Reg.FT_CTRL d v
  have hwrite : s.writePlain Reg.FT_CTRL v = s.writeFields Reg.FT_CTRL d v := by rw [State.writePlain, hd]
  rw [hwrite, heq]
  refine ⟨⟨⟨_, _, _, _, rfl⟩, rfl, rfl, fun b hb => ?_⟩, rfl, rfl, ?_⟩
  · exact State.reg_setReg_ne (fun e => hb (List.mem_singleton.mpr e)) _ _
  · rw [State.ftSrc, State.fld, State.reg_setReg_self, bitsOf_mod _ _ _ _ (by decide), hfields, List.foldl_cons,
      bitsOf_foldl_writeField _ _ fun f hf => Or.inl (hrest f hf)]
    unfold writeField
    dsimp only
    split
    · rfl
    · exact (bitsOf_putBits_self _ 0 2 _).trans (Nat.mod_mod v 4)

theorem State.rowWrite_ftCtrl {s : State} {src : Source} (h : s.hears src = true) (v : Word) :
    s.rowWrite src true Reg.FT_CTRL v =
      (s.writePlain Reg.FT_CTRL v.toNat).sourceChanged s.ftSrc (s.writePlain Reg.FT_CTRL v.toNat).ftSrc := by
  obtain ⟨d, _, hd, haccepts, _⟩ := regDescAt_ftCtrl
  rw [State.rowWrite_found h (by decide) (by decide) (by decide) hd (haccepts src)]
  rfl

/-- A change of SRC moves neither fabric time nor the rate word (R79). -/
theorem State.sourceChanged_timeHeld (s : State) (old new : Nat) : s.TimeHeld (s.sourceChanged old new) [Reg.FT_COUNT] := by
  have hforget (tb : Timebase) (hacc : tb.acc = s.tb.acc) (hrate : tb.rate = s.tb.rate) : s.TimeHeld { s with tb := tb } [] :=
    ⟨⟨_, _, _, _, rfl⟩, hacc, hrate, fun _ _ => rfl⟩
  have hstay {t : State} (h : s.TimeHeld t []) : s.TimeHeld t [Reg.FT_COUNT] := ⟨h.parts, h.acc, h.rate, fun b _ => h.regs b (by simp)⟩
  unfold State.sourceChanged
  split
  · exact hstay (hforget s.tb rfl rfl)
  split
  · exact hstay (hforget _ rfl rfl)
  extract_lets tb u
  have hu : s.TimeHeld u [] := hforget _ rfl rfl
  split
  · split
    · exact hstay hu
    · exact hu.trans (u.returnLocked_timeHeld _)
  · split
    · exact hu.trans u.enterHoldover_timeHeld
    · exact hstay hu

section
variable {s : State} {old new : Nat}

theorem State.sourceChanged_of_eq (h : new = old) : s.sourceChanged old new = s := by rw [State.sourceChanged, if_pos h.symm]

theorem State.sourceChanged_of_invalid (hne : new ≠ old) (h : s.timeValid = false) : (s.sourceChanged old new).tb.mode = .unset := by
  simp [State.sourceChanged, hne.symm, h]

theorem State.sourceChanged_of_locked (hne : new ≠ old) (h : s.tb.mode = .locked) :
    (s.sourceChanged old new).tb.mode = if new < 2 then .holdover else .locked := by
  have hvalid : s.timeValid = true := by rw [State.timeValid, h, TbMode.valid]
  by_cases hnew : new < 2
  · simp [State.sourceChanged, hne.symm, hvalid, h, hnew, Nat.not_le.mpr hnew, State.enterHoldover_tb]
  · simp [State.sourceChanged, hne.symm, hvalid, h, hnew, Nat.not_lt.mp hnew]

theorem State.sourceChanged_of_held (hne : new ≠ old) (h : s.tb.mode = .holdover ∨ s.tb.mode = .lost) :
    (s.sourceChanged old new).tb.mode = (if new < 2 then s.tb.mode else .locked) ∧
      (new < 2 → (s.sourceChanged old new).tb.holdStart = s.tb.holdStart ∧ (s.sourceChanged old new).out = s.out) := by
  have hvalid : s.timeValid = true := by
    obtain h | h := h
    all_goals rw [State.timeValid, h, TbMode.valid]
  by_cases hnew : new < 2
  · obtain h | h := h
    all_goals simp [State.sourceChanged, hne.symm, hvalid, h, hnew, Nat.not_le.mpr hnew]
  · obtain h | h := h
    all_goals simp [State.sourceChanged, hne.symm, hvalid, h, hnew, Nat.not_lt.mp hnew, State.returnLocked_tb]

end

/-- R79. -/
theorem sourceChangeNeverStepsTime : Claims.SourceChangeNeverStepsTime := by
  intro s src v hlive hhears
  have hexec : exec (.ftSrcWrite src v) s = .next (s.keep [.tb, .regs, .flt, .out] (s.rowWrite src true Reg.FT_CTRL v)) :=
    exec_act (f := fun s => s.rowWrite src true Reg.FT_CTRL v) rfl hlive
  obtain ⟨hheld, htb, hout, hsrc⟩ := s.writePlain_ftCtrl v.toNat
  rw [State.rowWrite_ftCtrl hhears v] at hexec
  generalize s.writePlain Reg.FT_CTRL v.toNat = u at *
  have hchange := u.sourceChanged_timeHeld s.ftSrc u.ftSrc
  have hall := hheld.trans hchange
  have htsrc : (u.sourceChanged s.ftSrc u.ftSrc).ftSrc = u.ftSrc := congrArg (bitsOf · 0 2) (hchange.regs Reg.FT_CTRL (by decide))
  have hvalid : u.timeValid = s.timeValid := by rw [State.timeValid, htb, State.timeValid]
  rw [hall.keep] at hexec
  refine ⟨_, hexec, hall.acc, hall.rate, htsrc.trans hsrc, hall.regs, ?_⟩
  rw [htsrc, ← hvalid, ← htb, ← hout]
  refine ⟨fun heq => ?_, fun hne => ⟨?_, ?_, ?_⟩⟩
  · rw [State.sourceChanged_of_eq heq]
  · exact State.sourceChanged_of_invalid hne
  · exact State.sourceChanged_of_locked hne
  · exact State.sourceChanged_of_held hne

/-- Settles O21: each change of state of the timebase leaves the accumulator and the rate word (`State.TimeHeld`), and is counted, recorded
and raised from the state before it. -/
theorem timeNeverSteps : Obligations.TimeNeverSteps := ⟨silenceMeansHoldoverThenLost, sourceChangeNeverStepsTime⟩

end Sys2Proof.Machine
end

section
namespace Sys2Proof.Machine

-- The servo -----------------------------------------------------------------------------------------------------------------

/-- SLEW_MAX has 16 bits, so the rate word stays within 32 bits and above 0 (R72). -/
theorem State.maxSlew_le (s : State) : s.maxSlew ≤ 225176545 := by
  have hslew : s.fld Reg.FT_CTRL Fld.FT_CTRL_SLEW_MAX < 65536 := bitsOf_lt ..
  unfold State.maxSlew Config.nominalRate
  omega

/-- Is a rate word within SLEW_MAX of nominal (R72)? -/
def State.slewAllows (s : State) (rate : Int) : Prop :=
  (Config.nominalRate : Int) - s.maxSlew ≤ rate ∧ rate ≤ Config.nominalRate + s.maxSlew

theorem State.servoRange_slewAllows (s : State) (source : Nat) (off : Int) :
    s.slewAllows (s.servoRange source off).1 ∧ s.slewAllows (s.servoRange source off).2 := by
  have hslew : (0 : Int) ≤ s.maxSlew := Int.natCast_nonneg _
  unfold State.servoRange
  extract_lets m least most hold lock
  have hhold (x : Int) : s.slewAllows (hold x) :=
    ⟨le_max_left .., max_le (by unfold least m; omega) (min_le_left ..)⟩
  split
  · exact ⟨hhold _, hhold _⟩
  · unfold State.slewAllows least most m
    repeat' split
    all_goals omega

/-- A rate word that SLEW_MAX allows fits its register. -/
theorem State.rate_of_slewAllows {s : State} {rate : Int} (h : s.slewAllows rate) :
    Config.nominalRate - s.maxSlew ≤ (BitVec.ofInt 32 rate).toNat ∧ (BitVec.ofInt 32 rate).toNat ≤ Config.nominalRate + s.maxSlew := by
  have hslew := s.maxSlew_le
  unfold State.slewAllows Config.nominalRate at h
  rw [BitVec.toNat_ofInt, Config.nominalRate]
  omega

/-- Whatever word the servo takes between two allowed ones is allowed. -/
theorem State.slewAllows_between {s : State} {lo hi : Int} (hlo : s.slewAllows lo) (hhi : s.slewAllows hi) (k : Int) :
    s.slewAllows (lo + k % (max lo hi - lo + 1)) := by
  have hpos : 0 < max lo hi - lo + 1 := by omega
  have hleast := Int.emod_nonneg k hpos.ne'
  have hmost := Int.emod_lt_of_pos k hpos
  unfold State.slewAllows at *
  omega

/-- The servo moves nothing but the rate word, and keeps it within SLEW_MAX of nominal (R72). -/
theorem State.servo_eq (s : State) (source : Nat) (off : Int) : ∃ rate : BitVec 32,
    s.servo source off = { s with free := s.free + 1, tb := { s.tb with rate := rate } } ∧
      Config.nominalRate - s.maxSlew ≤ rate.toNat ∧ rate.toNat ≤ Config.nominalRate + s.maxSlew := by
  obtain ⟨hlo, hhi⟩ := State.servoRange_slewAllows (s.takeFree .servoRate).2 source off
  exact ⟨_, rfl, State.rate_of_slewAllows (State.slewAllows_between (s := s) hlo hhi _)⟩

-- Samples -------------------------------------------------------------------------------------------------------------------

/-- A PPS edge notes its time and the edges missed before it, and then gives a sample. -/
def State.noteEdge (s : State) (missed : Nat) (edge announced : Option Nat) : State :=
  { s with tb := { s.tb with outlierRun := s.tb.outlierRun + missed, lastEdge := edge, announced := announced } }

/-- How far the source is ahead of fabric time. -/
def State.offsetOf (s : State) (source : Nat) : Int := (source : Int) - (s.now : Int)

/-- The offsets that a sample leaves in ACQUIRING (R80). -/
def State.offsetRun (s : State) (source : Nat) : List Int := (s.offsetOf source :: s.tb.acqOffsets).take 4

/-- Do four samples in a row, with this one, agree within 1 µs (R80)? -/
def State.offsetsSettled (s : State) (source : Nat) : Prop :=
  (s.offsetRun source).length = 4 ∧ ∀ a ∈ s.offsetRun source, ∀ b ∈ s.offsetRun source, (a - b).natAbs ≤ 1000

/-- A sample off by more than 1 µs in LOCKED is counted and not accepted (R80). -/
def State.rejectSample (s : State) (source : Nat) : State :=
  let t : State := State.countSat { s with tb := { s.tb with offset := s.offsetOf source } } Reg.FT_COUNT Fld.FT_COUNT_SAMPLES_REJECTED 1
  { t with tb := { t.tb with outlierRun := t.tb.outlierRun + 1 } }

/-- A sample that the servo follows (R72). -/
def State.trackSample (s : State) (source : Nat) : State :=
  (State.servo { s with tb := { s.tb with offset := s.offsetOf source } } source (s.offsetOf source)).acceptSample source

/-- A sample in HOLDOVER or LOST is followed, and counts toward the return to LOCKED when it is within LOCK_NS (R80). -/
def State.nearSample (s : State) (source : Nat) : State :=
  let t := s.trackSample source
  { t with tb := { t.tb with
    inlierRun := if decide ((s.offsetOf source).natAbs ≤ s.fld Reg.FT_CTRL Fld.FT_CTRL_LOCK_NS) then s.tb.inlierRun + 1 else 0 } }

theorem State.rejectSample_tb (s : State) (source : Nat) :
    (s.rejectSample source).tb = { s.tb with offset := s.offsetOf source, outlierRun := s.tb.outlierRun + 1 } := rfl

theorem State.rejectSample_regs (s : State) (source : Nat) :
    (s.rejectSample source).regs = (s.countSat Reg.FT_COUNT Fld.FT_COUNT_SAMPLES_REJECTED 1).regs := rfl

theorem State.rejectSample_fld (s : State) (source : Nat) :
    (s.rejectSample source).fld Reg.FT_COUNT Fld.FT_COUNT_SAMPLES_REJECTED =
      satAdd 16 (s.fld Reg.FT_COUNT Fld.FT_COUNT_SAMPLES_REJECTED) 1 :=
  (State.fld_congr (s.rejectSample_regs source) _ _).trans (s.fld_countSat_self _ (by decide) 1)

theorem State.rejectSample_job (s : State) (source : Nat) : (s.rejectSample source).job = s.job :=
  (State.job_congr (s.rejectSample_regs source)).trans (s.job_countSat ..)

/-- Entering HOLDOVER counts in a field of its own. -/
theorem State.enterHoldover_fld (s : State) :
    s.enterHoldover.fld Reg.FT_COUNT Fld.FT_COUNT_SAMPLES_REJECTED = s.fld Reg.FT_COUNT Fld.FT_COUNT_SAMPLES_REJECTED := by
  rw [State.enterHoldover_eq, State.fld_congr State.reportChange_regs]
  exact State.fld_setFld_other s _ _ _ _ (by decide) (by decide)

/-- The sample that makes fabric time valid counts as taken then. -/
def State.stampSample (s : State) : State := { s with tb := { s.tb with lastSample := s.clock.elapsedNs } }

theorem State.stampSample_tb (s : State) : s.stampSample.tb = { s.tb with lastSample := s.clock.elapsedNs } := rfl

theorem offsetsAgree_iff (xs : List Int) : offsetsAgree xs = true ↔ ∀ a ∈ xs, ∀ b ∈ xs, (a - b).natAbs ≤ 1000 := by
  simp [offsetsAgree]

section
variable {s : State} (source : Nat)

theorem State.takeSample_of_unset (h : s.tb.mode = .unset) : s.takeSample source =
    State.acceptSample { s with tb := { s.tb with mode := .acquiring, acqOffsets := [s.offsetOf source] } } source := by
  unfold State.takeSample
  rw [h]
  rfl

theorem State.takeSample_of_settled (h : s.tb.mode = .acquiring) (hrun : s.offsetsSettled source) :
    s.takeSample source = ((s.acceptSample source).becomeValid source).stampSample := by
  have hagree : (decide ((s.offsetRun source).length = 4) && offsetsAgree (s.offsetRun source)) = true := by
    simpa [State.offsetsSettled, offsetsAgree_iff] using hrun
  unfold State.takeSample
  rw [h]
  exact if_pos hagree

theorem State.takeSample_of_unsettled (h : s.tb.mode = .acquiring) (hrun : ¬ s.offsetsSettled source) : s.takeSample source =
    { s.acceptSample source with tb := { (s.acceptSample source).tb with acqOffsets := s.offsetRun source } } := by
  have hagree : ¬ (decide ((s.offsetRun source).length = 4) && offsetsAgree (s.offsetRun source)) = true := by
    simpa [State.offsetsSettled, offsetsAgree_iff] using hrun
  unfold State.takeSample
  rw [h]
  exact if_neg hagree

theorem State.takeSample_of_outlier (h : s.tb.mode = .locked) (hoff : ¬ (s.offsetOf source).natAbs ≤ 1000) : s.takeSample source =
    if 8 ≤ s.tb.outlierRun + 1 then (s.rejectSample source).enterHoldover else s.rejectSample source := by
  unfold State.takeSample
  rw [h]
  exact if_pos (Nat.not_le.mp hoff)

theorem State.takeSample_of_inlier (h : s.tb.mode = .locked) (hoff : (s.offsetOf source).natAbs ≤ 1000) : s.takeSample source =
    { s.trackSample source with tb := { (s.trackSample source).tb with outlierRun := 0 } } := by
  unfold State.takeSample
  rw [h]
  exact if_neg (Nat.not_lt.mpr hoff)

theorem State.takeSample_of_held (h : s.tb.mode = .holdover ∨ s.tb.mode = .lost) : s.takeSample source =
    if 16 ≤ (s.nearSample source).tb.inlierRun then (s.nearSample source).returnLocked else s.nearSample source := by
  unfold State.takeSample
  obtain h | h := h
  all_goals
    rw [h]
    rfl

end

/-- The timebase from the moment at which fabric time becomes valid (R79, R80). -/
def Timebase.validFrom (tb : Timebase) (acc : BitVec 96) (elapsed floor : Nat) (turn : Option Nat) : Timebase :=
  { tb with
    acc := acc, mode := .locked, acqOffsets := [], inlierRun := 0, outlierRun := 0, lastSample := elapsed, floor := floor, lastTurn := turn,
    flipArmed := floor, fwdArmed := floor, planArmed := floor, lenArmed := floor }

theorem State.becomeValid_eq (s : State) (v : Nat) : ∃ (turn : Option Nat) (window : Nat) (sw : SwitchState),
    let t : State := { s.closeWindow with
      tb := s.tb.validFrom (BitVec.ofNat 96 (v % 2 ^ 64 * 2 ^ 32)) s.clock.elapsedNs (v % 2 ^ 64) turn }
    s.becomeValid v = { t with tb := { t.tb with lastWindow := window }, sw := sw } :=
  ⟨_, _, _, rfl⟩

/-- Fabric time starts at the time given; the clock, and what a window and a turn say nothing of, go on. -/
theorem State.becomeValid_tb (s : State) (v : Nat) : ∃ (acc : BitVec 96) (turn : Option Nat) (window : Nat),
    (s.becomeValid v).tb = { s.tb.validFrom acc s.clock.elapsedNs (v % 2 ^ 64) turn with lastWindow := window } ∧
      (s.becomeValid v).clock = s.clock ∧ acc.toNat / 2 ^ 32 = v % 2 ^ 64 := by
  obtain ⟨turn, window, sw, heq⟩ := s.becomeValid_eq v
  have hacc : (BitVec.ofNat 96 (v % 2 ^ 64 * 2 ^ 32)).toNat / 2 ^ 32 = v % 2 ^ 64 := by
    rw [BitVec.toNat_ofNat]
    omega
  rw [heq]
  generalize BitVec.ofNat 96 _ = acc at *
  exact ⟨acc, turn, window, rfl, rfl, hacc⟩

/-- A sample leaves what the timebase knows of PPS edges. -/
theorem State.takeSample_edges (s : State) (source : Nat) :
    (s.takeSample source).tb.lastEdge = s.tb.lastEdge ∧ (s.takeSample source).tb.announced = s.tb.announced := by
  have hheld (h : s.tb.mode = .holdover ∨ s.tb.mode = .lost) :
      (s.takeSample source).tb.lastEdge = s.tb.lastEdge ∧ (s.takeSample source).tb.announced = s.tb.announced := by
    rw [State.takeSample_of_held source h]
    split
    · exact ⟨rfl, rfl⟩
    · exact ⟨rfl, rfl⟩
  cases h : s.tb.mode
  case unset =>
    rw [State.takeSample_of_unset source h]
    exact ⟨rfl, rfl⟩
  case acquiring =>
    by_cases hrun : s.offsetsSettled source
    · obtain ⟨acc, turn, window, htb, -⟩ := (s.acceptSample source).becomeValid_tb source
      rw [State.takeSample_of_settled source h hrun, State.stampSample_tb, htb]
      exact ⟨rfl, rfl⟩
    · rw [State.takeSample_of_unsettled source h hrun]
      exact ⟨rfl, rfl⟩
  case locked =>
    by_cases hoff : (s.offsetOf source).natAbs ≤ 1000
    · rw [State.takeSample_of_inlier source h hoff]
      exact ⟨rfl, rfl⟩
    · rw [State.takeSample_of_outlier source h hoff]
      split
      · rw [State.enterHoldover_tb, State.rejectSample_tb]
        exact ⟨rfl, rfl⟩
      · rw [State.rejectSample_tb]
        exact ⟨rfl, rfl⟩
  case holdover => exact hheld (.inl h)
  case lost => exact hheld (.inr h)

-- What a sample does, state by state ------------------------------------------------------------------------------------------

section
variable {s : State} (source : Nat)

theorem sampleOutcome_of_unset (h : s.tb.mode = .unset) : SampleOutcome s (s.takeSample source) source 0 := by
  rw [State.takeSample_of_unset source h]
  unfold SampleOutcome
  rw [h]
  exact ⟨rfl, rfl, rfl, rfl, rfl⟩

theorem sampleOutcome_of_acquiring (h : s.tb.mode = .acquiring) : SampleOutcome s (s.takeSample source) source 0 := by
  unfold SampleOutcome
  rw [h]
  by_cases hrun : s.offsetsSettled source
  · obtain ⟨acc, turn, window, htb, hclock, hacc⟩ := (s.acceptSample source).becomeValid_tb source
    have hnow : ((s.acceptSample source).becomeValid source).stampSample.now = source % 2 ^ 64 := by
      rw [State.now, State.stampSample_tb, htb]
      exact hacc
    rw [State.takeSample_of_settled source h hrun, hnow, State.stampSample_tb, htb, hclock]
    exact ⟨rfl, (if_pos hrun).mpr ⟨rfl, rfl, rfl⟩⟩
  · rw [State.takeSample_of_unsettled source h hrun]
    exact ⟨rfl, (if_neg hrun).mpr ⟨h, rfl, rfl, rfl⟩⟩

/-- The rate word that follows a sample is one that SLEW_MAX allows; nothing else of the state but the sample is new. -/
theorem State.trackSample_eq (s : State) : ∃ rate : BitVec 32,
    s.trackSample source = State.acceptSample { s with
      free := s.free + 1, tb := { s.tb with offset := s.offsetOf source, rate := rate } } source ∧
      Config.nominalRate - s.maxSlew ≤ rate.toNat ∧ rate.toNat ≤ Config.nominalRate + s.maxSlew := by
  obtain ⟨rate, heq, hrate⟩ := State.servo_eq { s with tb := { s.tb with offset := s.offsetOf source } } source (s.offsetOf source)
  exact ⟨rate, congrArg (·.acceptSample source) heq, hrate⟩

theorem State.nearSample_eq (s : State) : ∃ rate : BitVec 32,
    s.nearSample source = { s with free := s.free + 1, tb := { s.tb with
      offset := s.offsetOf source, rate := rate, samples := s.tb.samples + 1, lastSample := s.clock.elapsedNs,
      track := some (s.clock.ticks, source),
      inlierRun := if decide ((s.offsetOf source).natAbs ≤ s.fld Reg.FT_CTRL Fld.FT_CTRL_LOCK_NS) then s.tb.inlierRun + 1 else 0 } } ∧
      Config.nominalRate - s.maxSlew ≤ rate.toNat ∧ rate.toNat ≤ Config.nominalRate + s.maxSlew := by
  obtain ⟨rate, heq, hrate⟩ := s.trackSample_eq source
  refine ⟨rate, ?_, hrate⟩
  rw [State.nearSample, heq]
  rfl

theorem sampleOutcome_of_locked (h : s.tb.mode = .locked) : SampleOutcome s (s.takeSample source) source 0 := by
  have hvalid : s.timeValid = true := by rw [State.timeValid, h, TbMode.valid]
  unfold SampleOutcome
  rw [h]
  by_cases hoff : (s.offsetOf source).natAbs ≤ 1000
  · obtain ⟨rate, heq, hrate⟩ := s.trackSample_eq source
    rw [State.takeSample_of_inlier source h hoff, heq]
    exact ⟨rfl, rfl, (if_pos hoff).mpr ⟨h, rfl, rfl, rfl, hrate, rfl⟩⟩
  · rw [State.takeSample_of_outlier source h hoff]
    by_cases hrun : 7 ≤ s.tb.outlierRun + 0
    · have hreport : TimeUnlocked s (s.rejectSample source).enterHoldover 3 :=
        (State.enterHoldover_unlocked (s := s.rejectSample source) hvalid).rebase rfl rfl (s.rejectSample_job source) rfl rfl rfl
      rw [if_pos (Nat.succ_le_succ hrun), State.enterHoldover_fld, s.rejectSample_fld source, State.enterHoldover_tb,
        State.rejectSample_tb]
      exact ⟨rfl, rfl, (if_neg hoff).mpr ⟨rfl, rfl, rfl, (if_pos hrun).mpr ⟨rfl, rfl, hreport⟩⟩⟩
    · rw [if_neg (fun hlong => hrun (Nat.le_of_succ_le_succ hlong)), s.rejectSample_fld source, State.rejectSample_tb]
      exact ⟨rfl, rfl, (if_neg hoff).mpr ⟨rfl, rfl, rfl, (if_neg hrun).mpr ⟨h, rfl, rfl⟩⟩⟩

theorem sampleOutcome_of_held (h : s.tb.mode = .holdover ∨ s.tb.mode = .lost) : SampleOutcome s (s.takeSample source) source 0 := by
  have hvalid : s.timeValid = true := by
    obtain h | h := h
    all_goals rw [State.timeValid, h, TbMode.valid]
  obtain ⟨rate, heq, hrate⟩ := s.nearSample_eq source
  have hback : 16 ≤ (s.nearSample source).tb.inlierRun ↔
      (s.offsetOf source).natAbs ≤ s.fld Reg.FT_CTRL Fld.FT_CTRL_LOCK_NS ∧ 15 ≤ s.tb.inlierRun := by
    rw [heq]
    by_cases hlock : (s.offsetOf source).natAbs ≤ s.fld Reg.FT_CTRL Fld.FT_CTRL_LOCK_NS
    · simp [hlock]
    · simp [hlock]
  have hreport : TimeUnlocked s (s.nearSample source).returnLocked 2 :=
    (State.returnLocked_unlocked (s := s.nearSample source) hvalid).rebase rfl rfl rfl rfl rfl rfl
  rw [State.takeSample_of_held source h]
  unfold SampleOutcome
  obtain h | h := h
  all_goals
    rw [h]
    by_cases hnear : 16 ≤ (s.nearSample source).tb.inlierRun
    · rw [if_pos hnear]
      rw [heq] at hreport ⊢
      exact ⟨rfl, rfl, rfl, rfl, hrate, (if_pos (hback.mp hnear)).mpr ⟨rfl, hreport⟩⟩
    · rw [if_neg hnear, heq]
      exact ⟨rfl, rfl, rfl, rfl, hrate, (if_neg (mt hback.mpr hnear)).mpr ⟨h, rfl⟩⟩

theorem sampleOutcome (s : State) : SampleOutcome s (s.takeSample source) source 0 := by
  cases h : s.tb.mode
  case unset => exact sampleOutcome_of_unset source h
  case acquiring => exact sampleOutcome_of_acquiring source h
  case locked => exact sampleOutcome_of_locked source h
  case holdover => exact sampleOutcome_of_held source (.inl h)
  case lost => exact sampleOutcome_of_held source (.inr h)

end

/-- The states before and after a PPS edge is noted differ in nothing a report speaks of. -/
theorem timeUnlocked_noteEdge {s t : State} {missed code : Nat} {edge ann : Option Nat} :
    TimeUnlocked (s.noteEdge missed edge ann) t code ↔ TimeUnlocked s t code :=
  ⟨fun h => h.rebase rfl rfl rfl rfl rfl rfl, fun h => h.rebase rfl rfl rfl rfl rfl rfl⟩

/-- The edges missed before one count as outliers of the state it came in (R95). -/
theorem SampleOutcome.of_noteEdge {s t : State} {source missed : Nat} {edge ann : Option Nat}
    (h : SampleOutcome (s.noteEdge missed edge ann) t source 0) : SampleOutcome s t source missed := by
  have hmode : (s.noteEdge missed edge ann).tb.mode = s.tb.mode := rfl
  unfold SampleOutcome at *
  simp only [timeUnlocked_noteEdge] at h
  rw [hmode] at h
  split at h
  all_goals exact h

/-- An outcome speaks of the timebase, the registers, the fault records and what has been sent, so a scope that lets those through does not
change it. -/
theorem SampleOutcome.keep {s t : State} {source missed : Nat} {w : List Part} (htb : Part.tb ∈ w) (hregs : Part.regs ∈ w)
    (hflt : Part.flt ∈ w) (hout : Part.out ∈ w) (h : SampleOutcome s t source missed) : SampleOutcome s (s.keep w t) source missed := by
  unfold SampleOutcome TimeUnlocked Reports Silent State.rateHeld State.now at *
  simpa only [State.keep_tb, State.keep_flt, State.keep_out, State.fld_keep hregs, htb, hflt, hout, if_true] using h

-- PTP times and PPS edges -----------------------------------------------------------------------------------------------------

section
variable {s : State}

theorem State.ptpSample_of_other (h : s.ftSrc ≠ 0) (tai : Nat) : s.ptpSample tai = s := by
  simp [State.ptpSample, h]

theorem State.ptpSample_of_early (h : s.ftSrc = 0) {tai : Nat} (hepoch : tai < s.reg Reg.FT_EPOCH_TAI) :
    s.ptpSample tai = s.countSat Reg.FT_COUNT Fld.FT_COUNT_SAMPLES_REJECTED 1 := by
  simp [State.ptpSample, h, hepoch]

theorem State.ptpSample_of_epoch (h : s.ftSrc = 0) {tai : Nat} (hepoch : s.reg Reg.FT_EPOCH_TAI ≤ tai) :
    s.ptpSample tai = s.takeSample (tai - s.reg Reg.FT_EPOCH_TAI) := by
  simp [State.ptpSample, h, Nat.not_lt.mpr hepoch]

/-- Of the times whole seconds after the previous edge, the expected one is nearest (R78). -/
theorem expectedEdge_nearest (last now : Nat) : ∃ k, 0 < k ∧ expectedEdge last now = last + k * 1000000000 ∧
    ∀ j, 0 < j → absDiff now (last + k * 1000000000) ≤ absDiff now (last + j * 1000000000) := by
  refine ⟨max 1 ((now + 500000000 - last) / 1000000000), by omega, rfl, fun j hj => ?_⟩
  unfold absDiff
  omega

theorem State.edgeTime_of_lastEdge (hvalid : s.timeValid = true) {l : Nat} (h : s.tb.lastEdge = some l) :
    s.edgeTime = some (expectedEdge l s.now) := by
  simp [State.edgeTime, hvalid, h]

/-- Does a PPS edge that comes now lie outside PPS_WINDOW of its phase, under PTP with PPS_CHECK (R78)? -/
def State.edgeOffPhase (s : State) : Prop :=
  let away := absDiff (s.now % 1000000000) (s.fld Reg.FT_PPS_CFG Fld.FT_PPS_CFG_PPS_PHASE % 1000000000)
  s.timeValid = true ∧ s.flag Reg.FT_CTRL Fld.FT_CTRL_PPS_CHECK = true ∧
    s.fld Reg.FT_PPS_CFG Fld.FT_PPS_CFG_PPS_WINDOW < min away (1000000000 - away)

/-- A PPS edge that is counted and ignored. -/
def State.rejectEdge (s : State) : State := s.countSat Reg.FT_COUNT Fld.FT_COUNT_PPS_REJECTED 1

theorem State.ppsEdge_of_ptp_off (h : s.ftSrc = 0) (hoff : s.edgeOffPhase) : s.ppsEdge = s.rejectEdge := by
  obtain ⟨hvalid, hcheck, haway⟩ := hoff
  unfold State.ppsEdge
  rw [h]
  exact (if_pos (by rw [hvalid, hcheck]; rfl)).trans (if_pos haway)

theorem State.ppsEdge_of_ptp (h : s.ftSrc = 0) (hoff : ¬ s.edgeOffPhase) : s.ppsEdge = s := by
  unfold State.ppsEdge
  rw [h]
  refine ite_eq_right_iff.mpr fun hcheck => if_neg fun haway => ?_
  rw [Bool.and_eq_true] at hcheck
  exact hoff ⟨hcheck.1, hcheck.2, haway⟩

theorem State.ppsEdge_of_unknown (h : s.ftSrc = 1) (hedge : s.edgeTime = none) : s.ppsEdge = s := by
  simp only [State.ppsEdge, h, hedge]

theorem State.ppsEdge_of_late (h : s.ftSrc = 1) {e : Nat} (hedge : s.edgeTime = some e) (hmode : s.tb.mode = .locked)
    (hwindow : s.fld Reg.FT_PPS_CFG Fld.FT_PPS_CFG_PPS_WINDOW < absDiff s.now e) : s.ppsEdge = s.rejectEdge := by
  unfold State.ppsEdge
  rw [h, hedge]
  exact if_pos (by simp [hmode, hwindow])

theorem State.ppsEdge_of_edge (h : s.ftSrc = 1) {e : Nat} (hedge : s.edgeTime = some e)
    (hwindow : s.tb.mode ≠ .locked ∨ absDiff s.now e ≤ s.fld Reg.FT_PPS_CFG Fld.FT_PPS_CFG_PPS_WINDOW) :
    s.ppsEdge = (s.noteEdge s.missedEdges (some e) none).takeSample e := by
  unfold State.ppsEdge
  rw [h, hedge]
  refine if_neg ?_
  rw [Bool.and_eq_true, decide_eq_true_eq, decide_eq_true_eq]
  rintro ⟨hmode, hlate⟩
  exact hwindow.elim (· hmode) (Nat.not_le.mpr hlate)

theorem State.ppsEdge_of_freeRun (h : 2 ≤ s.ftSrc) : s.ppsEdge = s := by
  unfold State.ppsEdge
  split
  · omega
  · omega
  · rfl

end

/-- Settles O20: a PTP time and a PPS edge come down to one sample, which each state of the timebase takes in its own way (`sampleOutcome`);
the edge's own note of its time moves only the count of outliers (`SampleOutcome.of_noteEdge`). -/
theorem samplesMoveTheTimebase : Obligations.SamplesMoveTheTimebase := by
  unfold Obligations.SamplesMoveTheTimebase
  intro s hlive rejected window
  have hsample (tai : Nat) : exec (.ptpSample tai) s = .next (s.keep (scopeOf .ppsEdge) (s.ptpSample tai)) :=
    exec_act (f := fun s => s.ptpSample tai) rfl hlive
  have hpulse : exec .ppsEdge s = .next (s.keep (scopeOf .ppsEdge) s.ppsEdge) := exec_act (f := State.ppsEdge) rfl hlive
  have hreject (h : s.ppsEdge = s.rejectEdge) : ∃ t, exec .ppsEdge s = .next t ∧ rejected t := by
    rw [hpulse, h, State.rejectEdge, State.keep_countSat (by decide)]
    exact ⟨_, rfl, s.countSat_tb .., s.regsBut_countSat _ _ _, s.countSat_flt .., s.fld_countSat_self _ (by decide) 1⟩
  have hignore (h : s.ppsEdge = s) : exec .ppsEdge s = .next s := by rw [hpulse, h, State.keep_self]
  refine ⟨fun tai hsrc => ⟨fun hepoch => ?_, fun hepoch => ?_⟩, fun tai hsrc => ?_, fun e hsrc hedge => ⟨fun hwindow => ?_, ?_⟩,
    fun l hvalid hlast => ?_, ?_, fun hsrc => ⟨?_, ?_⟩, ?_⟩
  · rw [hsample, State.ptpSample_of_epoch hsrc hepoch]
    exact ⟨_, rfl, (sampleOutcome _ s).keep (by decide) (by decide) (by decide) (by decide)⟩
  · rw [hsample, State.ptpSample_of_early hsrc hepoch, State.keep_countSat (by decide)]
    exact ⟨_, rfl, s.countSat_tb .., s.regsBut_countSat _ _ _, s.fld_countSat_self _ (by decide) 1⟩
  · rw [hsample, State.ptpSample_of_other hsrc, State.keep_self]
  · have houtcome := (sampleOutcome e (s.noteEdge s.missedEdges (some e) none)).of_noteEdge
    obtain ⟨hlast, hannounced⟩ := (s.noteEdge s.missedEdges (some e) none).takeSample_edges e
    rw [hpulse, State.ppsEdge_of_edge hsrc hedge hwindow]
    refine ⟨_, rfl, ?_, ?_, houtcome.keep (by decide) (by decide) (by decide) (by decide)⟩
    · rw [State.keep_tb, if_pos (by decide), hlast]
      rfl
    · rw [State.keep_tb, if_pos (by decide), hannounced]
      rfl
  · exact fun hmode hwindow => hreject (State.ppsEdge_of_late hsrc hedge hmode hwindow)
  · rw [State.edgeTime_of_lastEdge hvalid hlast]
    obtain ⟨k, hk, heq, hnearest⟩ := expectedEdge_nearest l s.now
    exact ⟨k, hk, congrArg some heq, hnearest⟩
  · exact fun hsrc hedge => hignore (State.ppsEdge_of_unknown hsrc hedge)
  · exact fun hoff => hreject (State.ppsEdge_of_ptp_off hsrc hoff)
  · exact fun hoff => hignore (State.ppsEdge_of_ptp hsrc hoff)
  · exact fun hsrc => hignore (State.ppsEdge_of_freeRun hsrc)

end Sys2Proof.Machine
end

section
namespace Sys2Proof.Machine

-- Regions and their offsets -------------------------------------------------------------------------------------------------

/-- A region's die view: on `PIN_DIE` or, interleaved, on every die, the granules from BASE on (R104). -/
theorem Region.occupies_iff (r : Region) (d p : Nat) :
    r.occupies d p = true ↔ (r.pinned = true → d = r.pinDie) ∧ r.base ≤ p ∧ p < r.base + r.span := by
  unfold Region.occupies
  rw [Bool.and_eq_true, Bool.and_eq_true, decide_eq_true_eq, decide_eq_true_eq, and_assoc]
  cases r.pinned
  · exact and_congr_left' ⟨fun _ h => absurd h Bool.false_ne_true, fun _ => rfl⟩
  · exact and_congr_left' ⟨fun h _ => (eq_of_beq h).symm, fun h => beq_iff_eq.mpr (h rfl).symm⟩

/-- The granule of an offset within its region's granules on a die. -/
def Region.granule (r : Region) (o : Nat) : Nat := if r.pinned then o / 4096 else o / 4096 / 4

/-- The die of an offset (R104). -/
def Region.dieOf (r : Region) (n o : Nat) : Nat := if r.pinned then r.pinDie else (o / 4096 + n) % 4

theorem Region.place_eq (r : Region) (n o : Nat) : r.place n o = (r.dieOf n o, (r.base + r.granule o) * 4096 + o % 4096) := by
  unfold Region.place Region.dieOf Region.granule
  cases r.pinned <;> rfl

theorem Region.place_granule (r : Region) (n o : Nat) : (r.place n o).2 / 4096 = r.base + r.granule o := by
  rw [Region.place_eq]
  dsimp only
  omega

/-- R107 recovers an offset from its place. -/
theorem Region.offsetOf_place (r : Region) {n : Nat} (hn : n < 256) (o : Nat) :
    r.offsetOf n (r.place n o).1 (r.place n o).2 = o := by
  have hbyte : (r.place n o).2 % 4096 = o % 4096 := by
    rw [Region.place_eq]
    dsimp only
    omega
  unfold Region.offsetOf
  dsimp only
  rw [Region.place_granule, hbyte, Region.place_eq]
  unfold Region.dieOf Region.granule
  dsimp only
  split <;> omega

/-- An offset inside the region lies in its footprint. -/
theorem Region.occupies_place (r : Region) (n : Nat) {o : Nat} (ho : o < r.size * 4096) (hpin : r.pinned = true ∨ r.size % 4 = 0) :
    r.occupies (r.place n o).1 ((r.place n o).2 / 4096) = true := by
  rw [Region.occupies_iff, Region.place_granule, Region.place_eq]
  unfold Region.dieOf Region.granule Region.span
  cases hp : r.pinned <;> simp [hp] at hpin ⊢ <;> omega

/-- The region view decodes to the place of the offset (R35, R104). -/
theorem State.decode_regionAddr (s : State) {n o : Nat} (hn : n < 256) (htype : (s.region n).type ≠ 0)
    (ho : o < (s.region n).size * 4096) (hlt : o < 2 ^ 30) :
    s.decode (regionAddr n o) = .rsv ((s.region n).place n o).1 ((s.region n).place n o).2 (some (n, o)) := by
  have hindex : (regionAddr n o - rsvRegionBase) / 2 ^ 30 = n := by
    unfold regionAddr
    omega
  have hoffset : regionAddr n o % 2 ^ 30 = o := by
    unfold regionAddr rsvRegionBase
    omega
  have hbase : regionAddr n o = rsvRegionBase + n * 2 ^ 30 + o := rfl
  unfold State.decode
  rw [if_neg (by rw [hbase]; unfold rsvRegionBase; omega), if_neg (by rw [hbase]; unfold rsvRegionBase hbmSize; omega),
    if_neg (by rw [hbase]; unfold rsvRegionBase rsvBase; simp; omega),
    if_pos (by rw [hbase]; unfold rsvRegionBase; simp; omega)]
  dsimp only
  rw [hindex, hoffset, if_neg (by simp [htype, ho])]

/-- Settles O10: an offset's granule gives its die and, with BASE, its place (`Region.place_eq`), from which R107 finds it again
(`Region.offsetOf_place`). -/
theorem regionsPlaceTheirOffsets : Obligations.RegionsPlaceTheirOffsets := by
  unfold Obligations.RegionsPlaceTheirOffsets
  intro s n o hn htype ho hlt hpin r g die x
  have hplace : r.place n o = (die, x) := r.place_eq n o
  have hdecode := s.decode_regionAddr hn htype ho hlt
  have hoccupies := r.occupies_place n ho hpin
  have hoffset := r.offsetOf_place hn o
  rw [hplace] at hoccupies hoffset
  refine ⟨hdecode.trans (by rw [show (s.region n).place n o = (die, x) from hplace]), hoccupies, hoffset, fun hfirst hfree => ?_,
    r.occupies_iff⟩
  show (if r.pinned then r.pinDie else (o / 4096 + n) % 4) = n % 4
  rw [hfree, if_neg Bool.false_ne_true]
  omega

end Sys2Proof.Machine
end

section
namespace Sys2Proof.Machine

-- Writes of the Reservoir's and the Sluice control's registers --------------------------------------------------------------

/-- Does the row hold a register at set-up offset `a`? -/
def RegDesc.holds (d : RegDesc) (a : Nat) : Bool := decide (d.base ≤ a) && onInstance d.dims (a - d.base)

theorem RegDesc.holds_single {d : RegDesc} {count stride i : Nat} (hdims : d.dims = [(count, stride)]) (hi : i < count)
    (hstride : 0 < stride) : d.holds (d.base + i * stride) = true := by
  rw [RegDesc.holds, hdims, Nat.add_sub_cancel_left, onInstance, if_pos (by rwa [Nat.mul_div_cancel _ hstride]), Nat.mul_mod_left]
  simp [onInstance]

/-- A register of a block whose rows take every source. -/
theorem regDescAt_open {a : Nat} (hany : ∀ d ∈ regRows (a / 0x1000000), d.src = .any)
    (hrow : ∃ d ∈ regRows (a / 0x1000000), d.holds a = true) : ∃ d, regDescAt a = some d ∧ ∀ src, d.src.accepts src = true := by
  obtain ⟨d, hd⟩ := Option.isSome_iff_exists.mp (List.find?_isSome.mpr hrow)
  refine ⟨d, hd, fun src => ?_⟩
  rw [hany d (List.mem_of_find?_eq_some hd)]
  rfl

/-- The write of a row in the blocks of the Reservoir and of the Sluice control, which take every source. -/
theorem State.rowWrite_open {s : State} {src : Source} {block a : Nat} (hs : s.hears src = true) (hblock : block = 1 ∨ block = 2)
    (ha : a / 0x1000000 = block) (hrow : ∃ d ∈ regRows block, d.holds a = true) (v : Word) :
    s.rowWrite src true a v = s.writeBlock src a v.toNat [] [] := by
  have hany : ∀ d ∈ regRows (a / 0x1000000), d.src = .any := by
    rw [ha]
    rcases hblock with rfl | rfl <;> decide
  obtain ⟨d, hd, haccepts⟩ := regDescAt_open hany (ha ▸ hrow)
  exact State.rowWrite_found hs (by omega) (by omega) (by omega) hd (haccepts src) v

-- The region table ----------------------------------------------------------------------------------------------------------

theorem State.rowWrite_region {s : State} {src : Source} {n : Nat} (hs : s.hears src = true) (hn : n < 256) (v : Word) :
    s.rowWrite src (decide (n < 256)) (Reg.RSV_REGION n) v = (s.regionWrite n v.toNat).startHeld := by
  have hblock : Reg.RSV_REGION n / 0x1000000 = 1 := by unfold Reg.RSV_REGION; omega
  have hoffset : Reg.RSV_REGION n % 0x1000000 = 0x1000 + n * 8 := by unfold Reg.RSV_REGION; omega
  rw [decide_eq_true hn, State.rowWrite_open hs (Or.inl rfl) hblock ⟨regRows1[1], by decide, RegDesc.holds_single rfl hn (by decide)⟩,
    State.writeBlock]
  dsimp only
  rw [hblock, hoffset]
  refine (if_pos ?_).trans ?_
  · rw [Bool.and_eq_true, decide_eq_true_eq, decide_eq_true_eq]
    omega
  · rw [show (0x1000 + n * 8 - 0x1000) / 8 = n by omega]

theorem State.startHeld_of_nil {s : State} (h : s.col.seals = []) : s.startHeld = s := by
  rw [State.startHeld, h]
  rfl

theorem regionWord_lt (v : Word) : regionWord v < 2 ^ 64 := by
  have hmask : regionWord v ≤ v.toNat % 2 ^ 50 := Nat.and_le_left
  omega

theorem State.landFreed_eq (s : State) (n : Nat) : ∃ hg, s.landFreed n = { s with hg := hg } := by
  unfold State.landFreed
  dsimp only
  split
  · exact ⟨_, rfl⟩
  · exact ⟨s.hg, rfl⟩

theorem State.landBack_eq (s : State) : ∃ hg, s.landBack = { s with hg := hg } := by
  unfold State.landBack
  dsimp only
  split
  · exact ⟨_, rfl⟩
  · exact ⟨s.hg, rfl⟩

/-- Is nothing held of a region's seals and varves? -/
def RsvState.forgets (r : RsvState) (n : Nat) : Prop :=
  tblFind n r.sealed = none ∧
    ∀ d, d < 4 → tblGetD (n * 4 + d) ⟨0, 0⟩ r.sealBits = ⟨0, 0⟩ ∧ tblGetD (n * 4 + d) ⟨0, 0, false⟩ r.varve = ⟨0, 0, false⟩

/-- A write that no kind refuses stores the word; one of FREE forgets what was held of the region (R103, R106). -/
theorem State.regionWrite_of_taken {s : State} {n v : Nat} {w : Nat} (hw : w = v % 2 ^ 50 &&& (2 ^ 50 - 1 - 0x80))
    (h : s.regionRefusal n w = none) : ∃ rsv hg, s.regionWrite n v = { s.setReg (Reg.RSV_REGION n) w with rsv := rsv, hg := hg } ∧
      ((Region.ofWord w).type = 0 → rsv.forgets n) := by
  subst hw
  unfold State.regionWrite
  dsimp only
  rw [h]
  dsimp only
  split
  · obtain ⟨hg, heq⟩ := State.landFreed_eq _ n
    refine ⟨_, hg, heq, fun _ => ⟨tblFind_tblErase_self _ _, fun d hd => ?_⟩⟩
    have hkey : ((n * 4 + d) / 4 != n) = false := by
      rw [show (n * 4 + d) / 4 = n by omega]
      exact bne_self_eq_false n
    exact ⟨tblGetD_filter_of_not (keep := fun k => k / 4 != n) hkey _ _, tblGetD_filter_of_not (keep := fun k => k / 4 != n) hkey _ _⟩
  · obtain ⟨hg, heq⟩ := State.landBack_eq (s.setReg (Reg.RSV_REGION n) (v % 2 ^ 50 &&& (2 ^ 50 - 1 - 0x80)))
    exact ⟨_, hg, heq, fun htype => absurd htype ‹_›⟩

/-- A write that a kind refuses only reports it (R105). -/
theorem State.regionWrite_of_refused {s : State} {n v kind other : Nat}
    (h : s.regionRefusal n (v % 2 ^ 50 &&& (2 ^ 50 - 1 - 0x80)) = some (kind, other)) :
    s.regionWrite n v = s.fault 0x1050 Code.regionInvalid (some (setupBase + Reg.RSV_REGION n))
      (n + kind * 2 ^ 12 + (if kind = 0 then other * 2 ^ 16 else 0)) := by
  unfold State.regionWrite
  dsimp only
  rw [h]

/-- The Headgate has no signal to act on after a write of the region table with none waiting. -/
theorem State.exec_regionWrite {s : State} {src : Source} {n : Nat} {v : Word} (hlive : s.live = true) (hs : s.hears src = true)
    (hn : n < 256) (hseals : (s.regionWrite n v.toNat).col.seals = []) :
    exec (.rsvRegionWrite src n v) s = .next (s.keep (scopePort ++ [.col]) (s.regionWrite n v.toNat)) := by
  have hexec := exec_act (i := .rsvRegionWrite src n v)
    (f := fun s => s.rowWrite src (decide (n < 256)) (Reg.RSV_REGION n) v) rfl hlive
  rw [hexec, State.rowWrite_region hs hn, State.startHeld_of_nil hseals]

/-- R103, R105, R106. -/
theorem regionWriteIsTaken : Claims.RegionWriteIsTaken := by
  intro s src n v hlive hs hn hseals htaken
  obtain ⟨rsv, hg, heq, hfree⟩ := State.regionWrite_of_taken (v := v.toNat) rfl htaken
  refine ⟨_, State.exec_regionWrite hlive hs hn (by rw [heq]; exact hseals), ?_⟩
  rw [heq]
  refine ⟨?_, fun b hb => ?_, rfl, rfl, fun htype => ?_⟩
  · exact (State.reg_keep (by decide) _ _ _).trans ((State.reg_setReg_self _ _ _).trans (Nat.mod_eq_of_lt (regionWord_lt v)))
  · exact (State.reg_keep (by decide) _ _ _).trans (State.reg_setReg_ne (fun e => hb (List.mem_singleton.mpr e)) _ _)
  · exact hfree htype

-- Which writes are refused --------------------------------------------------------------------------------------------------

theorem mem_of_tblFind {α : Type} {k : Nat} {x : α} {t : List (Nat × α)} (h : tblFind k t = some x) : (k, x) ∈ t := by
  induction t with
  | nil => exact absurd h nofun
  | cons e t ih =>
    rw [tblFind_cons] at h
    split at h
    next hk =>
      rw [← Option.some.inj h, ← hk]
      exact List.mem_cons_self
    next => exact List.mem_cons_of_mem _ (ih h)

theorem regResetNat_of_zero {a : Nat} (h : ∀ d ∈ regRows (a / 0x1000000), d.resetNat = 0) : regResetNat a = 0 := by
  unfold regResetNat
  split
  next d hd => rw [h d (List.mem_of_find?_eq_some hd), Nat.zero_mod]
  next => rfl

/-- A region that is not FREE is among the listed ones: an entry that nothing has written is FREE. -/
theorem State.mem_regions {s : State} {m : Nat} (hm : m < 256) (htype : (s.region m).type ≠ 0) : (m, s.region m) ∈ s.regions := by
  have hblock : Reg.RSV_REGION m / 0x1000000 = 1 := by unfold Reg.RSV_REGION; omega
  have hreset : regResetNat (Reg.RSV_REGION m) = 0 := regResetNat_of_zero (by rw [hblock]; decide)
  cases hw : tblFind (Reg.RSV_REGION m) s.regs with
  | none =>
    rw [State.region, State.reg_none hw, hreset] at htype
    exact absurd rfl htype
  | some w =>
    have hword : s.region m = Region.ofWord w.toNat := by rw [State.region, State.reg_some hw]
    have hrange : (Reg.RSV_REGION m - Reg.RSV_REGION 0, w.toNat) ∈ s.regRange (Reg.RSV_REGION 0) 2048 := by
      refine List.mem_map.mpr ⟨_, List.mem_filter.mpr ⟨mem_of_tblFind hw, ?_⟩, rfl⟩
      rw [Bool.and_eq_true, decide_eq_true_eq, decide_eq_true_eq]
      unfold Reg.RSV_REGION
      omega
    refine List.mem_filter.mpr ⟨List.mem_map.mpr ⟨_, hrange, Prod.ext ?_ hword.symm⟩, bne_iff_ne.mpr htype⟩
    show (Reg.RSV_REGION m - Reg.RSV_REGION 0) / 8 = m
    unfold Reg.RSV_REGION
    omega

/-- Two regions that occupy one granule of a die overlap. -/
theorem Region.overlaps_of_occupies {a b : Region} {d p : Nat} (ha : a.occupies d p = true) (hb : b.occupies d p = true) :
    a.overlaps b = true := by
  obtain ⟨hda, hloa, hhia⟩ := (Region.occupies_iff _ _ _).mp ha
  obtain ⟨hdb, hlob, hhib⟩ := (Region.occupies_iff _ _ _).mp hb
  unfold Region.overlaps
  rw [decide_eq_true (Nat.lt_of_le_of_lt hloa hhib), decide_eq_true (Nat.lt_of_le_of_lt hlob hhia), Bool.and_true, Bool.and_true]
  cases hpa : a.pinned
  · rfl
  · cases hpb : b.pinned
    · rfl
    · exact beq_iff_eq.mpr ((hda hpa).symm.trans (hdb hpb))

/-- Kind 0 comes before the others (R105). -/
theorem State.regionRefusal_of_overlap {s : State} {n w m : Nat} (hm : m < 256) (hne : m ≠ n) (hr : (Region.ofWord w).type ≠ 0)
    (htype : (s.region m).type ≠ 0) (h : (s.region m).overlaps (Region.ofWord w) = true) :
    ∃ other, s.regionRefusal n w = some (0, other) := by
  have hfound : (s.regions.find? fun e => (Region.ofWord w).type != 0 && e.1 != n && e.2.overlaps (Region.ofWord w)).isSome := by
    refine List.find?_isSome.mpr ⟨_, State.mem_regions hm htype, ?_⟩
    simp [hr, hne, h]
  obtain ⟨e, he⟩ := Option.isSome_iff_exists.mp hfound
  refine ⟨e.1, ?_⟩
  unfold State.regionRefusal
  dsimp only
  rw [he]

/-- An entry in use takes no other value in use. -/
theorem State.regionRefusal_of_inUse {s : State} {n w : Nat} (hr : (Region.ofWord w).type ≠ 0) (htype : (s.region n).type ≠ 0) :
    s.regionRefusal n w ≠ none := by
  have hkind2 : ((Region.ofWord w).type != 0 && (s.region n).type != 0) = true := by simp [hr, htype]
  unfold State.regionRefusal
  dsimp only
  split
  · exact nofun
  · rw [hkind2, if_pos rfl]
    split <;> exact nofun

/-- R105. -/
theorem refusedRegionWriteChangesNothing : Claims.RefusedRegionWriteChangesNothing := by
  intro s src n v hlive hs hn hseals r
  refine ⟨fun kind other hrefused => ?_, fun m d p hm hne hr htype _ hnew hold => ?_, State.regionRefusal_of_inUse⟩
  · have heq := State.regionWrite_of_refused (v := v.toNat) hrefused
    refine ⟨_, State.exec_regionWrite hlive hs hn (by rw [heq]; exact hseals), ?_⟩
    rw [heq]
    exact ⟨rfl, rfl, (s.fault_reports _ _ _ _).congr rfl rfl rfl rfl rfl⟩
  · exact State.regionRefusal_of_overlap hm hne hr htype (Region.overlaps_of_occupies hold hnew)

/-- Settles O9: a write of the region table stores the word or reports its kind (`State.regionWrite_of_taken`,
`State.regionWrite_of_refused`), and every region in use is among those that a new footprint is held against (`State.mem_regions`). -/
theorem regionTableWrites : Obligations.RegionTableWrites := ⟨regionWriteIsTaken, refusedRegionWriteChangesNothing⟩

end Sys2Proof.Machine
end

section
namespace Sys2Proof.Machine

-- Seals and varve accumulators ----------------------------------------------------------------------------------------------

theorem tblFind_filter_of {α : Type} {k : Nat} {keep : Nat → Bool} (h : keep k = true) (t : List (Nat × α)) :
    tblFind k (t.filter fun e => keep e.1) = tblFind k t := by
  induction t with
  | nil => rfl
  | cons e t ih =>
    rw [List.filter_cons, tblFind_cons]
    split
    · rw [tblFind_cons, ih]
    next hdrop => rw [if_neg fun hk : e.1 = k => hdrop (by rwa [hk]), ih]

/-- A key that a filter leaves in a sparse table reads as before. -/
theorem tblGetD_filter_of {α : Type} {k : Nat} {keep : Nat → Bool} (h : keep k = true) (d : α) (t : List (Nat × α)) :
    tblGetD k d (t.filter fun e => keep e.1) = tblGetD k d t := by
  rw [tblGetD, tblFind_filter_of h, tblGetD]

/-- A scope that names the Reservoir dies lets an update of them through. -/
theorem State.keep_withRsv {w : List Part} (h : Part.rsv ∈ w) (s : State) (r : RsvState) :
    s.keep w { s with rsv := r } = { s with rsv := r } := by
  refine State.keep_same (fun p hp => ?_) rfl
  cases p
  case rsv => exact absurd h hp
  all_goals rfl

section
variable {s : State} {region die : Nat}

@[simp] theorem State.varveAcc_setVarveAcc_self (v : VarveAcc) : (s.setVarveAcc region die v).varveAcc region die = v :=
  tblGetD_tblPut_self _ _ _ _

/-- An accumulator of another region or another die. -/
theorem State.varveAcc_setVarveAcc_ne {r d : Nat} (hd : d < 4) (hdie : die < 4) (h : (r, d) ≠ (region, die)) (v : VarveAcc) :
    (s.setVarveAcc region die v).varveAcc r d = s.varveAcc r d := by
  refine tblGetD_tblPut_ne (fun hkey => h ?_) _ _ _ _
  rw [Prod.mk.injEq]
  omega

/-- The marks and records in waiting gain at most one record when a mark is complete (R129, R132). -/
theorem State.markDone_eq (s : State) (region layer : Nat) (explicit : Bool) (v : VarveAcc) : ∃ ready,
    s.markDone region layer explicit v = { s with rsv := { s.rsv with ready := ready } } ∧
      ready.length = s.rsv.ready.length + b2n (s.flag Reg.RSV_VARVE_CTRL Fld.RSV_VARVE_CTRL_RING_ENABLE) ∧
      (s.flag Reg.RSV_VARVE_CTRL Fld.RSV_VARVE_CTRL_RING_ENABLE = false → ready = s.rsv.ready) := by
  unfold State.markDone
  dsimp only
  split
  next hon =>
    refine ⟨_, rfl, ?_, fun hoff => absurd (hon.symm.trans hoff) (by decide)⟩
    rw [(insertBy_perm _ _ _).length_eq, hon]
    rfl
  next hoff =>
    rw [Bool.not_eq_true] at hoff
    exact ⟨_, rfl, by rw [hoff]; rfl, fun _ => rfl⟩

/-- Every die's accumulator of a region set to zero, as its seal mark takes them (R128). -/
def State.zeroVarve (s : State) (region : Nat) : State := (List.range 4).foldl (fun s d => (s.snapVarve region d).2) s

theorem State.zeroVarve_eq (s : State) (region : Nat) : ∃ varve, s.zeroVarve region = { s with rsv := { s.rsv with varve := varve } } ∧
    ∀ d, d < 4 → (s.zeroVarve region).varveAcc region d = ⟨0, 0, false⟩ := by
  refine ⟨_, rfl, fun d hd => ?_⟩
  have hzero (n : Nat) (hn : n ≤ 4) : ∀ d, d < n →
      ((List.range n).foldl (fun s d => (s.snapVarve region d).2) s).varveAcc region d = ⟨0, 0, false⟩ := by
    induction n with
    | zero => exact fun d hd => absurd hd (Nat.not_lt_zero d)
    | succ n ih =>
      intro d hd
      rw [List.range_succ, List.foldl_append]
      by_cases hlast : d = n
      · rw [hlast]
        exact State.varveAcc_setVarveAcc_self _
      · refine (State.varveAcc_setVarveAcc_ne (by omega) (by omega) (fun h => hlast (Prod.mk.inj h).2) _).trans ?_
        exact ih (by omega) d (by omega)
  exact hzero 4 (Nat.le_refl 4) d hd

/-- The seal mark moves accumulators and records in waiting alone; it zeroes the region's accumulators where it carries varves (R128). -/
theorem State.sealMark_eq (s : State) (region layer : Nat) : ∃ varve ready,
    s.sealMark region layer = { s with rsv := { s.rsv with varve := varve, ready := ready } } ∧
      ((s.region region).varve = true → ∀ d, d < 4 → tblGetD (region * 4 + d) ⟨0, 0, false⟩ varve = ⟨0, 0, false⟩) := by
  unfold State.sealMark
  split
  · obtain ⟨varve, heq, hzero⟩ := s.zeroVarve_eq region
    obtain ⟨ready, hdone, -⟩ := (s.zeroVarve region).markDone_eq region layer false
      ((List.range 4).foldl (fun (a : VarveAcc) d => a.add (s.varveAcc region d)) ⟨0, 0, false⟩)
    rw [heq] at hzero
    refine ⟨varve, ready, hdone.trans ?_, fun _ => hzero⟩
    rw [heq]
  next hoff => exact ⟨_, _, rfl, fun hon => absurd hon hoff⟩

-- Counting a seal ---------------------------------------------------------------------------------------------------------------

@[simp] theorem State.sealedLayer_mk (s : State) (r : RsvState) (region : Nat) :
    State.sealedLayer { s with rsv := r } region = tblFind region r.sealed := rfl

variable {who : Requester} {src layer : Nat}

/-- Why a seal counts, or is of kind 1 though its layer is the one held: the region is open to it, its source has not sealed yet, and the
die still waits for seals (R109). -/
theorem State.sealCounts_iff : s.sealCounts src region layer die = true ↔
    (sealable (s.region region).type = true ∧ (s.region region).seals ≠ 0) ∧
      ((s.sealCount region die).bits ≠ 0 → (s.sealCount region die).layer = layer) ∧
      s.sealedLayer region = none ∧ bitAt (s.sealCount region die).bits src = false ∧
      popCount 64 (s.sealCount region die).bits < (s.region region).seals := by
  simp only [State.sealCounts, Bool.and_eq_true, Option.isNone_iff_eq_none, bne_iff_ne, Bool.not_eq_true', Bool.or_eq_true, beq_iff_eq,
    decide_eq_true_eq]
  tauto

/-- A seal that counts is counted; with the last one of one layer the region is sealed and marked (R55, R109). -/
theorem State.sealOnDie_of_counts (hsrc : sealSource who = some src) (h : s.sealCounts src region layer die = true) :
    ∃ r : RsvState, s.sealOnDie who region layer die = { s with rsv := r } ∧
      r.sealBits = tblSet (region * 4 + die) ⟨(s.sealCount region die).bits ||| 2 ^ src, layer⟩ s.rsv.sealBits ∧
      (State.sealComplete { s with rsv := r } region = false → r.sealed = s.rsv.sealed) ∧
      (State.sealComplete { s with rsv := r } region = true → r.sealed = tblSet region layer s.rsv.sealed ∧
        ((s.region region).varve = true → ∀ d, d < 4 → tblGetD (region * 4 + d) ⟨0, 0, false⟩ r.varve = ⟨0, 0, false⟩)) := by
  obtain ⟨⟨hseal, hcount⟩, hlayer, hopen, hbit, hroom⟩ := State.sealCounts_iff.mp h
  unfold State.sealOnDie
  rw [hsrc]
  dsimp only
  rw [if_neg (by simp [hseal, hcount]), if_neg (by simp only [Bool.and_eq_true, bne_iff_ne]; tauto), if_neg (by simp [hopen, hbit]; omega)]
  split
  next hcomplete =>
    obtain ⟨varve, ready, heq, hzero⟩ := State.sealMark_eq { s with rsv := { s.rsv with
      sealBits := tblSet (region * 4 + die) ⟨(s.sealCount region die).bits ||| 2 ^ src, layer⟩ s.rsv.sealBits,
      sealed := tblSet region layer s.rsv.sealed, sealTimes := tblSet region s.now s.rsv.sealTimes } } region layer
    exact ⟨_, heq, rfl, fun hno => absurd (hcomplete.symm.trans hno) (by decide), fun _ => ⟨rfl, hzero⟩⟩
  next hcomplete => exact ⟨_, rfl, rfl, fun _ => rfl, fun hyes => absurd hyes hcomplete⟩

/-- A seal that does not count is reported and discarded: of kind 4 where the die holds another layer's, else of kind 1 (R58, R109). -/
theorem State.sealOnDie_of_late (hsrc : sealSource who = some src) (h : s.sealCounts src region layer die = false) :
    s.sealOnDie who region layer die =
      if sealable (s.region region).type && (s.region region).seals != 0 && (s.sealCount region die).bits != 0 &&
          (s.sealCount region die).layer != layer then
        s.sealLate die region (s.sealCount region die).layer 4 s.node src layer none
      else s.sealLate die region layer 1 s.node src 0 none := by
  unfold State.sealOnDie
  rw [hsrc]
  dsimp only
  by_cases hseal : sealable (s.region region).type = true ∧ (s.region region).seals ≠ 0
  · rw [if_neg (by simp [hseal])]
    by_cases hother : (s.sealCount region die).bits ≠ 0 ∧ (s.sealCount region die).layer ≠ layer
    · rw [if_pos (by simp [hother]), if_pos (by simp [hseal, hother])]
    · have hsame : ((s.sealCount region die).bits != 0 && (s.sealCount region die).layer != layer) = false := by simpa using hother
      have hwhy : (s.sealedLayer region).isSome || bitAt (s.sealCount region die).bits src ||
          decide ((s.region region).seals ≤ popCount 64 (s.sealCount region die).bits) := by
        by_contra hno
        simp only [Bool.or_eq_true, Option.isSome_iff_ne_none, decide_eq_true_eq] at hno
        exact Bool.eq_false_iff.mp h (State.sealCounts_iff.mpr ⟨hseal, by tauto, by tauto, by simp_all, by omega⟩)
      rw [hsame, Bool.and_assoc, hsame, Bool.and_false, if_neg Bool.false_ne_true, if_neg Bool.false_ne_true, if_pos hwhy]
  · rw [if_pos (by simpa [or_iff_not_imp_left] using hseal), if_neg (by simp; tauto)]

end

-- The statements ----------------------------------------------------------------------------------------------------------------

theorem State.exec_regionSeal {s : State} (hlive : s.live = true) (who : Requester) (region layer die : Nat) :
    exec (.regionSeal who region layer die) s = .next (s.keep [.rsv, .flt] (s.sealOnDie who region layer die)) :=
  exec_act (f := fun s => s.sealOnDie who region layer die) rfl hlive

/-- R55, R109. -/
theorem sealIsCounted : Claims.SealIsCounted := by
  intro s who region layer die hlive hdie hregion
  rw [State.exec_regionSeal hlive]
  refine ⟨fun hnone => ?_, fun src hsrc hcounts => ?_⟩
  · rw [State.sealOnDie, hnone, State.keep_self]
  · obtain ⟨r, heq, hbits, hshort, hfull⟩ := State.sealOnDie_of_counts hsrc hcounts
    obtain ⟨-, -, hopen, -, -⟩ := State.sealCounts_iff.mp hcounts
    rw [heq, State.keep_withRsv (by decide)]
    have hcount (k : Nat) : tblGetD k ⟨0, 0⟩ r.sealBits =
        tblGetD k ⟨0, 0⟩ (tblSet (region * 4 + die) ⟨(s.sealCount region die).bits ||| 2 ^ src, layer⟩ s.rsv.sealBits) := by
      rw [hbits]
    have hsealed : r.sealed = if State.sealComplete { s with rsv := r } region then tblSet region layer s.rsv.sealed else s.rsv.sealed := by
      split
      next hyes => exact (hfull hyes).1
      next hno => exact hshort (by simpa using hno)
    refine ⟨_, rfl, (hcount _).trans (tblGetD_tblSet_self _ _ _ _), fun n d hd hne => ?_, rfl, ?_, fun n hne => ?_, fun hyes => (hfull hyes).2⟩
    · refine (hcount _).trans (tblGetD_tblSet_ne (fun hkey => hne ?_) _ _ _)
      rw [Prod.mk.injEq]
      omega
    · rw [State.sealedLayer_mk, hsealed]
      split
      · exact tblFind_tblSet_self _ _ _
      · exact hopen
    · rw [State.sealedLayer_mk, hsealed]
      split
      · exact tblFind_tblSet_ne hne _ _
      · rfl

/-- R58, R109. -/
theorem lateSealIsDiscarded : Claims.LateSealIsDiscarded := by
  intro s who src region layer die hlive hsrc hdie hregion hlate r c other
  rw [State.exec_regionSeal hlive, State.sealOnDie_of_late hsrc hlate]
  refine ⟨_, rfl, ?_⟩
  cases hother : other
  · rw [if_neg (Bool.eq_false_iff.mp hother)]
    exact ⟨rfl, (s.fault_reports _ _ _ _).congr rfl rfl rfl rfl rfl⟩
  · rw [if_pos hother]
    exact ⟨rfl, (s.fault_reports _ _ _ _).congr rfl rfl rfl rfl rfl⟩

/-- R56, R109. -/
theorem releaseUnsealsTheRegion : Claims.ReleaseUnsealsTheRegion := by
  intro s region hlive
  have hexec : exec (.regionRelease region) s = .next (s.keep [.rsv] (s.regionRelease region)) :=
    exec_act (f := fun s => s.regionRelease region) rfl hlive
  rw [hexec, State.regionRelease]
  refine ⟨fun hsealed => ?_, fun hopen => ?_⟩
  · rw [if_pos hsealed, State.dropSeals, State.keep_withRsv (by decide)]
    have hkey (n d : Nat) (hd : d < 4) : ((n * 4 + d) / 4 != region) = (n != region) := by
      rw [show (n * 4 + d) / 4 = n by omega]
    refine ⟨_, rfl, tblFind_tblErase_self _ _, fun d hd => ?_, fun n hn => tblFind_tblErase_ne hn _, fun n d hd hn => ?_, rfl⟩
    · exact tblGetD_filter_of_not (keep := fun k => k / 4 != region) ((hkey region d hd).trans (bne_self_eq_false _)) _ _
    · exact tblGetD_filter_of (keep := fun k => k / 4 != region) ((hkey n d hd).trans (bne_iff_ne.mpr hn)) _ _
  · rw [if_neg (by simp [hopen]), State.keep_self]

end Sys2Proof.Machine
end

section
namespace Sys2Proof.Machine

-- Varve marks -------------------------------------------------------------------------------------------------------------------

/-- A mark with fewer than four dies joins the open marks. -/
theorem State.joinMark_of_open {s : State} {m : VarveMark} (h : m.dies.length ≠ 4) (rest : List VarveMark) :
    s.joinMark m rest = { s with rsv := { s.rsv with marks := rest ++ [m] } } := if_neg h

/-- A mark with its fourth die is complete, and waits as a record where records are enabled (R128, R132). -/
theorem State.joinMark_of_full {s : State} {m : VarveMark} (h : m.dies.length = 4) (rest : List VarveMark) : ∃ ready,
    s.joinMark m rest = { s with rsv := { s.rsv with marks := rest, ready := ready } } ∧
      ready.length = s.rsv.ready.length + b2n (s.flag Reg.RSV_VARVE_CTRL Fld.RSV_VARVE_CTRL_RING_ENABLE) ∧
      (s.flag Reg.RSV_VARVE_CTRL Fld.RSV_VARVE_CTRL_RING_ENABLE = false → ready = s.rsv.ready) := by
  obtain ⟨ready, heq, hmore⟩ := State.markDone_eq { s with rsv := { s.rsv with marks := rest } } m.region m.layer true m.sum
  exact ⟨ready, (if_pos h).trans heq, hmore⟩

theorem State.joinMark_eq (s : State) (m : VarveMark) (rest : List VarveMark) : ∃ marks ready,
    s.joinMark m rest = { s with rsv := { s.rsv with marks := marks, ready := ready } } := by
  by_cases h : m.dies.length = 4
  · obtain ⟨ready, heq, -⟩ := s.joinMark_of_full h rest
    exact ⟨_, ready, heq⟩
  · exact ⟨_, s.rsv.ready, s.joinMark_of_open h rest⟩

/-- Is `m` the open mark that a VARVE_MARK of these operands adds its die to (R128)? -/
def VarveMark.fits (who : Requester) (region layer die : Nat) (m : VarveMark) : Bool :=
  m.who == who && m.region == region && m.layer == layer && !m.dies.contains die

section
variable {s : State} {who : Requester} {region layer die : Nat}

theorem State.varveMark_of_off (h : (s.region region).varve = false) : s.varveMark who region layer die = s := by
  rw [State.varveMark, h]
  rfl

/-- The mark that a VARVE_MARK makes or adds its die to. -/
def State.markWith (s : State) (who : Requester) (region layer die : Nat) : VarveMark × List VarveMark :=
  match s.rsv.marks.find? (VarveMark.fits who region layer die) with
  | none => (⟨who, region, layer, [die], VarveAcc.add ⟨0, 0, false⟩ (s.varveAcc region die)⟩, s.rsv.marks)
  | some m => ({ m with dies := die :: m.dies, sum := m.sum.add (s.varveAcc region die) }, s.rsv.marks.erase m)

theorem State.markWith_of_none (h : s.rsv.marks.find? (VarveMark.fits who region layer die) = none) :
    s.markWith who region layer die =
      (⟨who, region, layer, [die], VarveAcc.add ⟨0, 0, false⟩ (s.varveAcc region die)⟩, s.rsv.marks) := by
  rw [State.markWith, h]

theorem State.markWith_of_some {m : VarveMark} (h : s.rsv.marks.find? (VarveMark.fits who region layer die) = some m) :
    s.markWith who region layer die =
      ({ m with dies := die :: m.dies, sum := m.sum.add (s.varveAcc region die) }, s.rsv.marks.erase m) := by
  rw [State.markWith, h]

/-- A mark takes its die's accumulator, which becomes zero (R128). -/
theorem State.varveMark_of_on (h : (s.region region).varve = true) : s.varveMark who region layer die =
    (s.setVarveAcc region die ⟨0, 0, false⟩).joinMark (s.markWith who region layer die).1 (s.markWith who region layer die).2 := by
  unfold State.varveMark
  rw [h]
  simp only [Bool.not_true, Bool.false_eq_true, if_false, State.snapVarve]
  split
  next hnone =>
    rw [State.markWith_of_none (s := s) hnone]
    rfl
  next m hsome =>
    rw [State.markWith_of_some (s := s) hsome]
    rfl

end

/-- R128, R132. -/
theorem varveMarkTakesTheSnapshot : Claims.VarveMarkTakesTheSnapshot := by
  intro s who region layer die hlive hdie fits
  have hexec : exec (.varveMark who region layer die) s = .next (s.keep [.rsv] (s.varveMark who region layer die)) :=
    exec_act (f := fun s => s.varveMark who region layer die) rfl hlive
  rw [hexec]
  refine ⟨fun hoff => ?_, fun hon => ⟨_, rfl, ?_⟩⟩
  · rw [State.varveMark_of_off hoff, State.keep_self]
  · rw [State.varveMark_of_on hon]
    obtain ⟨marks, ready, heq⟩ := (s.setVarveAcc region die ⟨0, 0, false⟩).joinMark_eq (s.markWith who region layer die).1
      (s.markWith who region layer die).2
    refine ⟨?_, fun r d hd hne => ?_, fun hnone => ?_, fun m hsome hdies => ?_⟩
    · rw [heq]
      exact State.varveAcc_setVarveAcc_self (s := s) (region := region) (die := die) ⟨0, 0, false⟩
    · rw [heq]
      exact State.varveAcc_setVarveAcc_ne (s := s) hd hdie hne ⟨0, 0, false⟩
    · rw [State.markWith_of_none hnone, State.joinMark_of_open (show [die].length ≠ 4 by simp)]
      rfl
    · rw [State.markWith_of_some hsome]
      obtain ⟨ready, hfull, hlen, hsame⟩ := (s.setVarveAcc region die ⟨0, 0, false⟩).joinMark_of_full
        (m := { m with dies := die :: m.dies, sum := m.sum.add (s.varveAcc region die) }) (congrArg (· + 1) hdies) (s.rsv.marks.erase m)
      rw [hfull]
      refine ⟨rfl, fun henable => ?_, hsame⟩
      refine hlen.trans ?_
      rw [show (s.setVarveAcc region die ⟨0, 0, false⟩).flag Reg.RSV_VARVE_CTRL Fld.RSV_VARVE_CTRL_RING_ENABLE = true from henable]
      rfl

-- Varve records -----------------------------------------------------------------------------------------------------------------

theorem State.rings_ite {c : Prop} [Decidable c] {a b : State} {x : List (Nat × RingState)} (ha : a.tl.rings = x) (hb : b.tl.rings = x) :
    (if c then a else b).tl.rings = x := by
  split
  · exact ha
  · exact hb

theorem State.sendFlit_rings (s : State) (f : TravoFlit) : (s.sendFlit f).tl.rings = s.tl.rings := State.rings_ite rfl rfl

theorem State.requestLine_rings (s : State) (line : Nat) (own whole : Bool) : (s.requestLine line own whole).tl.rings = s.tl.rings :=
  State.rings_ite rfl (State.sendFlit_rings _ _)

theorem performWrites_rings (ws : List CompanionWrite) (blocked : List Requester) (s : State) :
    (performWrites ws blocked s).tl.rings = s.tl.rings := by
  induction ws generalizing blocked s with
  | nil => rfl
  | cons w ws ih =>
    exact State.rings_ite (ih _ _) ((ih _ _).trans (State.rings_ite rfl (State.requestLine_rings _ _ _ _)))

/-- A write to companion memory leaves the rings' pointers and entries. -/
theorem State.companionWrite_rings (s : State) (who : Requester) (a : Nat) (bs : List Byte) :
    (s.companionWrite who a bs).tl.rings = s.tl.rings :=
  State.rings_ite (performWrites_rings _ _ _) rfl

theorem State.ring_companionWrite (s : State) (who : Requester) (a : Nat) (bs : List Byte) (r : Nat) :
    (s.companionWrite who a bs).ring r = s.ring r := by
  rw [State.ring, State.companionWrite_rings, State.ring]

@[simp] theorem State.ring_setRing_self (s : State) (r : Nat) (x : RingState) : (s.setRing r x).ring r = x :=
  tblGetD_tblPut_self _ _ _ _

/-- A record put into the varve ring stands at TAIL, which advances (R130, R411); nothing but Travo Link, the records and the output has
changed. -/
theorem State.varveToRing_ring (s : State) (r : VarveRecord) : s.Recorded (s.varveToRing r) ∧
    (s.varveToRing r).ring s.varveRing = { s.ring s.varveRing with
      tail := ((s.ring s.varveRing).tail + 1) % 2 ^ 32,
      recent := (((s.ring s.varveRing).tail, r.bytes) :: (s.ring s.varveRing).recent).take 16 } := by
  refine ⟨(State.Recorded.refl s).ringAppend.companionWrite, ?_⟩
  unfold State.varveToRing State.ringWriteBack State.ringAppend
  dsimp only
  rw [State.ring_companionWrite, State.ring_setRing_self]

/-- The buffer stays where the ring has no room or nothing is buffered (R131). -/
theorem State.drainVarves_of_stuck {s : State} (h : s.rsv.buffer = [] ∨ s.ringRoom s.varveRing 5 = false) (fuel : Nat) :
    State.drainVarves fuel s = s := by
  cases fuel with
  | zero => rfl
  | succ fuel =>
    unfold State.drainVarves
    split
    · rfl
    next hbuffer =>
      rw [h.resolve_left (by simp [hbuffer])]
      rfl

section
variable {s : State} {c : Nat} {r : VarveRecord} {rest : List (Nat × VarveRecord)}

/-- The oldest completed mark's record, with its sequence number and LOST_BEFORE, and what is left waiting (R129). -/
def State.takeRecord (s : State) (rest : List (Nat × VarveRecord)) : State :=
  { s with rsv := { s.rsv with ready := rest, seq := (s.rsv.seq + 1) % 2 ^ 32 } }

/-- R129, R131. -/
theorem State.varveRecordWrite_eq (hready : s.rsv.ready = (c, r) :: rest)
    (hstuck : s.rsv.buffer = [] ∨ s.ringRoom s.varveRing 5 = false) : s.varveRecordWrite =
      let rec_ := { r with seq := s.rsv.seq, lostBefore := s.rsv.lost }
      let u := s.takeRecord rest
      if s.rsv.buffer.isEmpty && s.ringRoom s.varveRing 5 then State.varveToRing { u with rsv := { u.rsv with lost := false } } rec_
      else if s.rsv.buffer.length < 256 then { u with rsv := { u.rsv with lost := false, buffer := u.rsv.buffer ++ [rec_] } }
      else State.countSat { u with rsv := { u.rsv with lost := true } } Reg.RSV_VARVE_LOST Fld.RSV_VARVE_LOST_LOST 1 := by
  unfold State.varveRecordWrite
  rw [State.drainVarves_of_stuck hstuck]
  dsimp only
  rw [hready]
  rfl

end

theorem State.exec_varveRecordWrite {s : State} (hlive : s.live = true) :
    exec .varveRecordWrite s = .next (s.keep [.regs, .rsv, .tl, .flt, .out] s.varveRecordWrite) :=
  exec_act (f := State.varveRecordWrite) rfl hlive

/-- R129, R130. -/
theorem varveRecordEntersTheRing : Claims.VarveRecordEntersTheRing := by
  intro s c r rest hlive hready hbuffer hroom
  rw [State.exec_varveRecordWrite hlive, State.varveRecordWrite_eq hready (.inl hbuffer)]
  dsimp only
  rw [if_pos (by rw [hbuffer, hroom]; rfl)]
  obtain ⟨⟨tl, flt, out, heq⟩, hring⟩ := State.varveToRing_ring { s.takeRecord rest with rsv := { (s.takeRecord rest).rsv with lost := false } }
    { r with seq := s.rsv.seq, lostBefore := s.rsv.lost }
  have hkeep (u : State) : (s.keep [.regs, .rsv, .tl, .flt, .out] u).ring s.varveRing = u.ring s.varveRing := rfl
  refine ⟨_, rfl, ?_, ?_, ?_⟩
  · rw [heq]
    rfl
  · rw [hkeep]
    exact congrArg RingState.tail hring
  · rw [hkeep]
    exact congrArg (fun x => x.recent.head?) hring

/-- R131. -/
theorem varveRecordWaitsOrIsLost : Claims.VarveRecordWaitsOrIsLost := by
  intro s c r rest hlive hready hroom
  rw [State.exec_varveRecordWrite hlive, State.varveRecordWrite_eq hready (.inr hroom)]
  dsimp only
  rw [hroom, Bool.and_false, if_neg Bool.false_ne_true]
  refine ⟨_, rfl, ?_⟩
  by_cases hlen : s.rsv.buffer.length < 256
  · rw [if_pos hlen]
    exact ⟨rfl, rfl, fun _ => ⟨rfl, rfl, rfl⟩, fun hfull => absurd hlen (Nat.not_lt.mpr hfull)⟩
  · rw [if_neg hlen]
    refine ⟨rfl, rfl, fun hshort => absurd hshort hlen, fun _ => ⟨rfl, rfl, ?_⟩⟩
    exact (State.fld_keep (by decide) _ _ _ _).trans (State.fld_countSat_self _ _ (by decide) _)

/-- Settles O12: an open mark gains its die's accumulator (`State.varveMark_of_on`), a complete one waits as a record
(`State.joinMark_of_full`), and a record goes to the ring, the buffer or is lost (`State.varveRecordWrite_eq`). -/
theorem varveMarksBecomeRecords : Obligations.VarveMarksBecomeRecords :=
  ⟨varveMarkTakesTheSnapshot, varveRecordEntersTheRing, varveRecordWaitsOrIsLost⟩

end Sys2Proof.Machine
end

section
namespace Sys2Proof.Machine

-- Channels ----------------------------------------------------------------------------------------------------------------------

@[simp] theorem State.chan_setChan_self (s : State) (c : Nat) (x : Channel) : (s.setChan c x).chan c = x := tblGetD_tblPut_self _ _ _ _

theorem State.chan_setChan_ne {c d : Nat} (h : d ≠ c) (s : State) (x : Channel) : (s.setChan c x).chan d = s.chan d :=
  tblGetD_tblPut_ne h _ _ _ _

theorem State.chan_keep {w : List Part} (h : Part.chans ∈ w) (s t : State) (c : Nat) : (s.keep w t).chan c = t.chan c := by
  rw [State.chan, State.keep_chans, if_pos h, State.chan]

theorem State.reg_setChan (s : State) (c : Nat) (x : Channel) (a : Nat) : (s.setChan c x).reg a = s.reg a := rfl

theorem Channel.count_of_zero {x : Channel} (hhead : x.head = 0) (htail : x.tail = 0) : x.count = 0 := by
  rw [Channel.count, hhead, htail, Nat.zero_add, Nat.sub_zero, Nat.mod_self]

/-- A channel that has been reset passes the check of its pointers (R121, R122). -/
theorem Channel.fails_reset (x : Channel) (depth : Nat) : x.reset.fails depth = none := by
  rw [Channel.fails, Channel.count_of_zero rfl rfl]
  simp [Channel.reset]

/-- ENABLE is bit 0 of word 0 of the descriptor (R112). -/
theorem State.chanOn_iff (s : State) (c : Nat) : s.chanOn c = true ↔ s.reg (Reg.SLC_CHAN0 c) % 2 = 1 := by
  unfold State.chanOn State.flag State.fld bitsOf
  rw [beq_iff_eq]
  rfl

theorem channelWord_lt (v : Word) : channelWord v < 2 ^ 64 := by
  have hregion := bitsOf_lt v.toNat 8 8
  have hbase := bitsOf_lt v.toNat 24 18
  unfold channelWord
  omega

theorem channelWord_mod_two (v : Word) : channelWord v % 2 = v.toNat % 2 := by
  unfold channelWord
  omega

theorem getLsbD_zero_iff (v : Word) : v.getLsbD 0 = true ↔ v.toNat % 2 = 1 := by
  rw [BitVec.getLsbD, Nat.testBit_zero, decide_eq_true_eq]

section
variable {s : State} {src : Source} {c : Nat}

theorem State.rowWrite_chan0 (hs : s.hears src = true) (hc : c < 4096) (v : Word) :
    s.rowWrite src (decide (c < 4096)) (Reg.SLC_CHAN0 c) v = s.chanWrite c v.toNat := by
  have hblock : Reg.SLC_CHAN0 c / 0x1000000 = 2 := by unfold Reg.SLC_CHAN0; omega
  have hoffset : Reg.SLC_CHAN0 c % 0x1000000 = 0x100000 + c * 32 := by unfold Reg.SLC_CHAN0; omega
  rw [decide_eq_true hc, State.rowWrite_open hs (Or.inr rfl) hblock ⟨regRows2[0], by decide, RegDesc.holds_single rfl hc (by decide)⟩,
    State.writeBlock]
  dsimp only
  rw [hblock, hoffset]
  refine (if_pos (by omega)).trans ?_
  rw [show (0x100000 + c * 32 - 0x100000) / 32 = c by omega]

theorem State.rowWrite_chan3 (hs : s.hears src = true) (hc : c < 4096) (v : Word) :
    s.rowWrite src (decide (c < 4096)) (Reg.SLC_CHAN3 c) v = s.resetChannel c v.toNat := by
  have hblock : Reg.SLC_CHAN3 c / 0x1000000 = 2 := by unfold Reg.SLC_CHAN3; omega
  have hoffset : Reg.SLC_CHAN3 c % 0x1000000 = 0x100018 + c * 32 := by unfold Reg.SLC_CHAN3; omega
  rw [decide_eq_true hc, State.rowWrite_open hs (Or.inr rfl) hblock ⟨regRows2[3], by decide, RegDesc.holds_single rfl hc (by decide)⟩,
    State.writeBlock]
  dsimp only
  rw [hblock, hoffset]
  refine (if_neg (by omega)).trans ((if_pos (by omega)).trans ?_)
  rw [show (0x100018 + c * 32 - 0x100000) / 32 = c by omega]

/-- What a refused descriptor write does (R105). -/
def State.refuseChan (s : State) (c kind : Nat) : State :=
  s.fault (0x1051 + c % 4 * 0x100) Code.regionInvalid (some (setupBase + Reg.SLC_CHAN0 c)) (c + kind * 2 ^ 12)

/-- Does the storage that a descriptor word names lie wholly inside a SLUICE region (R105 kind 5)? -/
def State.wordMapped (s : State) (v : Word) : Bool :=
  s.storageMapped (bitsOf v.toNat 8 8) (bitsOf v.toNat 24 18 * 4096) (2 ^ min (max (bitsOf v.toNat 16 5) 4) 16)

/-- The channel that a descriptor write starts (R112): empty, with its counters at zero. -/
def Channel.started (x : Channel) : Channel :=
  { Channel.empty with resets := x.resets, waiting := x.waiting, held := x.held, fenced := x.fenced }

theorem State.chanWrite_of_start {v : Word} (hoff : s.chanOn c = false) (hon : v.getLsbD 0 = true) (hmapped : s.wordMapped v = true) :
    s.chanWrite c v.toNat = (s.setReg (Reg.SLC_CHAN0 c) (channelWord v)).setChan c (s.chan c).started := by
  have hbit := (getLsbD_zero_iff v).mp hon
  unfold State.wordMapped at hmapped
  unfold State.chanWrite
  dsimp only
  rw [hoff, hmapped]
  simp only [Bool.false_and, Bool.false_eq_true, if_false, Bool.not_true, Bool.and_false, Bool.not_false, hbit, decide_true, Bool.and_true,
    if_true]
  rw [channelWord, hbit]
  rfl

theorem State.chanWrite_of_unmapped {v : Word} (hoff : s.chanOn c = false) (hon : v.getLsbD 0 = true) (hmapped : s.wordMapped v = false) :
    s.chanWrite c v.toNat = s.refuseChan c 5 := by
  have hbit := (getLsbD_zero_iff v).mp hon
  unfold State.wordMapped at hmapped
  unfold State.chanWrite
  dsimp only
  rw [hoff, hmapped]
  simp only [Bool.false_and, Bool.false_eq_true, if_false, Bool.not_false, hbit, decide_true, Bool.and_true, if_true]
  rfl

theorem State.chanWrite_of_changed {v : Word} (hon : s.chanOn c = true) (hne : channelWord v + 1 ≠ s.reg (Reg.SLC_CHAN0 c)) :
    s.chanWrite c v.toNat = s.refuseChan c 4 := by
  have hodd := (s.chanOn_iff c).mp hon
  have hchanged : (s.chanOn c && channelWord v != s.reg (Reg.SLC_CHAN0 c) - 1) = true := by
    rw [hon, Bool.true_and, bne_iff_ne]
    omega
  unfold State.chanWrite
  exact if_pos hchanged

theorem State.chanWrite_of_cleared {v : Word} (hon : s.chanOn c = true) (heq : channelWord v + 1 = s.reg (Reg.SLC_CHAN0 c)) :
    s.chanWrite c v.toNat = s.setReg (Reg.SLC_CHAN0 c) (channelWord v) := by
  have hsame : (s.chanOn c && channelWord v != s.reg (Reg.SLC_CHAN0 c) - 1) = false := by
    rw [← heq, Nat.add_sub_cancel, bne_self_eq_false, Bool.and_false]
  unfold State.chanWrite
  refine (if_neg (Bool.eq_false_iff.mp hsame)).trans ?_
  rw [hon]
  rfl

end

section
variable {s : State} {src : Source} {c : Nat}

/-- The parts that a descriptor write may change. -/
def State.afterChanWrite (s t : State) : State := s.keep [.regs, .chans, .flt] t

theorem State.reg_afterChanWrite (s t : State) (a : Nat) : (s.afterChanWrite t).reg a = t.reg a := State.reg_keep (by decide) s t a

theorem State.chan_afterChanWrite (s t : State) (d : Nat) : (s.afterChanWrite t).chan d = t.chan d := State.chan_keep (by decide) s t d

theorem State.flt_afterChanWrite (s t : State) : (s.afterChanWrite t).flt = t.flt := State.keep_flt _ s t

theorem State.chans_afterChanWrite (s t : State) : (s.afterChanWrite t).chans = t.chans := State.keep_chans _ s t

theorem State.exec_slcChanWrite (hlive : s.live = true) (hs : s.hears src = true) (hc : c < 4096) (v : Word) :
    exec (.slcChanWrite src c v) s = .next (s.afterChanWrite (s.chanWrite c v.toNat)) := by
  rw [← State.rowWrite_chan0 hs hc]
  exact exec_act (f := fun s => s.rowWrite src (decide (c < 4096)) (Reg.SLC_CHAN0 c) v) rfl hlive

/-- A register that a word is put in reads as that word. -/
theorem State.reg_setReg_of_lt {n : Nat} (h : n < 2 ^ 64) (s : State) (a : Nat) : (s.setReg a n).reg a = n := by
  rw [State.reg_setReg_self, Nat.mod_eq_of_lt h]

theorem State.refuseChan_reports (s : State) (c kind : Nat) :
    Reports s (s.afterChanWrite (s.refuseChan c kind)) (0x1051 + c % 4 * 0x100) Code.regionInvalid (some (setupBase + Reg.SLC_CHAN0 c))
      (c + kind * 2 ^ 12) :=
  (s.fault_reports _ _ _ _).congr rfl rfl rfl rfl rfl

theorem State.afterChanWrite_started (s : State) (c : Nat) (v : Word) :
    let t := s.afterChanWrite ((s.setReg (Reg.SLC_CHAN0 c) (channelWord v)).setChan c (s.chan c).started)
    t.reg (Reg.SLC_CHAN0 c) = channelWord v ∧ RegsBut s t [Reg.SLC_CHAN0 c] ∧ t.flt = s.flt ∧ t.chan c = (s.chan c).started ∧
      ∀ d, d ≠ c → t.chan d = s.chan d := by
  refine ⟨?_, fun b hb => ?_, ?_, ?_, fun d hd => ?_⟩
  · rw [State.reg_afterChanWrite, State.reg_setChan]
    exact State.reg_setReg_of_lt (channelWord_lt v) s _
  · rw [State.reg_afterChanWrite, State.reg_setChan]
    exact State.reg_setReg_ne (fun e => hb (List.mem_singleton.mpr e)) s _
  · rw [State.flt_afterChanWrite, State.setChan_flt, State.setReg_flt]
  · rw [State.chan_afterChanWrite, State.chan_setChan_self]
  · rw [State.chan_afterChanWrite, State.chan_setChan_ne hd, State.chan, State.setReg_chans, State.chan]

theorem State.afterChanWrite_cleared {v : Word} (hon : s.chanOn c = true) (heq : channelWord v + 1 = s.reg (Reg.SLC_CHAN0 c)) :
    (s.afterChanWrite (s.setReg (Reg.SLC_CHAN0 c) (channelWord v))).chanOn c = false := by
  have hodd := (s.chanOn_iff c).mp hon
  rw [← Bool.not_eq_true, State.chanOn_iff, State.reg_afterChanWrite, State.reg_setReg_of_lt (channelWord_lt v)]
  omega

end

/-- R105, R112. -/
theorem channelWriteStartsEmptyOrIsRefused : Claims.ChannelWriteStartsEmptyOrIsRefused := by
  intro s src c v hlive hs hc refused mapped
  have hexec := State.exec_slcChanWrite hlive hs hc v
  have hrefused (kind : Nat) (h : s.chanWrite c v.toNat = s.refuseChan c kind) : refused kind := by
    rw [h] at hexec
    exact ⟨_, hexec, rfl, rfl, s.refuseChan_reports c kind⟩
  refine ⟨fun hoff hon hmapped => ?_, fun hoff hon hmapped => hrefused 5 (State.chanWrite_of_unmapped hoff hon hmapped),
    fun hon hne => hrefused 4 (State.chanWrite_of_changed hon hne), fun hon heq => ?_⟩
  · rw [State.chanWrite_of_start hoff hon hmapped] at hexec
    obtain ⟨hreg, hregs, hsilent, hchan, hothers⟩ := s.afterChanWrite_started c v
    refine ⟨_, hexec, hreg, hregs, hsilent, ?_⟩
    rw [hchan]
    exact ⟨rfl, Channel.count_of_zero rfl rfl, rfl, rfl, rfl, rfl, rfl, hothers⟩
  · rw [State.chanWrite_of_cleared hon heq] at hexec
    refine ⟨_, hexec, State.afterChanWrite_cleared hon heq, ?_, ?_⟩
    · rw [State.chans_afterChanWrite, State.setReg_chans]
    · rw [Silent, State.flt_afterChanWrite, State.setReg_flt]

/-- R112, R122. -/
theorem resetChannelEmptiesAnEnabledChannel : Claims.ResetChannelEmptiesAnEnabledChannel := by
  intro s src c v hlive hs hc hbit
  have hexec : exec (.resetChannel src c v) s = .next (s.keep [.regs, .chans, .flt] (s.resetChannel c v.toNat)) := by
    rw [← State.rowWrite_chan3 hs hc]
    exact exec_act (f := fun s => s.rowWrite src (decide (c < 4096)) (Reg.SLC_CHAN3 c) v) rfl hlive
  rw [hexec, State.resetChannel, decide_eq_true ((getLsbD_zero_iff v).mp hbit), Bool.true_and]
  cases hon : s.chanOn c with
  | false => exact ⟨_, rfl, rfl, rfl, fun _ _ => rfl, fun _ => rfl, fun h => absurd h (by decide)⟩
  | true =>
    have hchan : (s.keep [.regs, .chans, .flt] (s.setChan c (s.chan c).reset)).chan c = (s.chan c).reset := by
      rw [State.chan_keep (by decide), State.chan_setChan_self]
    rw [if_pos rfl]
    refine ⟨_, rfl, rfl, rfl, fun d hd => ?_, fun h => absurd h (by decide), fun _ => ?_⟩
    · rw [State.chan_keep (by decide), State.chan_setChan_ne hd]
    · rw [hchan]
      exact ⟨rfl, rfl, rfl, rfl, rfl, rfl, rfl, Channel.fails_reset _ _⟩

/-- Settles O14: a descriptor write starts the channel, is refused or clears ENABLE (the `State.chanWrite_of_…` lemmas), and a reset leaves
pointers that pass the check of R121. -/
theorem channelsStartAndReset : Obligations.ChannelsStartAndReset :=
  ⟨channelWriteStartsEmptyOrIsRefused, resetChannelEmptiesAnEnabledChannel⟩

end Sys2Proof.Machine
end

section
namespace Sys2Proof.Machine

-- What the action on a lasting unit, an access to storage and a Sluice command reach -----------------------------------

/-- From `s` to `t` nothing has changed but what the action on a lasting unit can reach (R49, R494); the number of the next routing step is
not among it. -/
def State.LinkOnly (s t : State) : Prop :=
  ∃ regs hg ports cls flt out free, hg.nextStep = s.hg.nextStep ∧
    t = { s with regs := regs, hg := hg, ports := ports, cls := cls, flt := flt, out := out, free := free }

namespace State.LinkOnly
variable {s₀ s : State}

theorem refl (s : State) : s.LinkOnly s := ⟨_, _, _, _, _, _, _, rfl, rfl⟩

/-- A record update of those parts, written out as it stands in a definition. -/
theorem change (h : s₀.LinkOnly s) {regs hg ports cls flt out free} (hnext : hg.nextStep = s.hg.nextStep) :
    s₀.LinkOnly (State.mk s.fuses s.clock s.tb s.lock s.present regs s.mem s.marks s.ecc s.rsv s.banks s.chans hg s.fab ports s.cores cls
      s.col s.tl s.sw s.boot s.pwr s.mg flt out free s.pending) := by
  obtain ⟨_, _, _, _, _, _, _, hn, rfl⟩ := h
  exact ⟨_, _, _, _, _, _, _, hnext.trans hn, rfl⟩

theorem ecc (h : s₀.LinkOnly s) : s.ecc = s₀.ecc := by
  obtain ⟨_, _, _, _, _, _, _, -, rfl⟩ := h
  rfl

theorem ite {c : Prop} [Decidable c] {a b : State} (ha : s₀.LinkOnly a) (hb : s₀.LinkOnly b) : s₀.LinkOnly (if c then a else b) := by
  split
  · exact ha
  · exact hb

theorem foldl {α : Type} {f : State → α → State} {l : List α} (h : s₀.LinkOnly s) (hf : ∀ s x, s₀.LinkOnly s → s₀.LinkOnly (f s x)) :
    s₀.LinkOnly (l.foldl f s) :=
  List.foldlRecOn l f h fun s h x _ => hf s x h

theorem setReg {a v} (h : s₀.LinkOnly s) : s₀.LinkOnly (s.setReg a v) := h.change rfl

theorem setFld {a f v} (h : s₀.LinkOnly s) : s₀.LinkOnly (s.setFld a f v) := h.setReg

theorem countSat {a f n} (h : s₀.LinkOnly s) : s₀.LinkOnly (s.countSat a f n) := h.setFld

theorem countWrap {a f n} (h : s₀.LinkOnly s) : s₀.LinkOnly (s.countWrap a f n) := h.setFld

theorem emit {o} (h : s₀.LinkOnly s) : s₀.LinkOnly (s.emit o) := h.change rfl

theorem takeFree {k} (h : s₀.LinkOnly s) : s₀.LinkOnly (s.takeFree k).2 := h.change rfl

theorem fault {unit code addr detail} (h : s₀.LinkOnly s) : s₀.LinkOnly (s.fault unit code addr detail) := h.change rfl

theorem onPort {p f} (h : s₀.LinkOnly s) : s₀.LinkOnly (s.onPort p f) := h.change rfl

theorem setStatus {p f v} (h : s₀.LinkOnly s) : s₀.LinkOnly (s.setStatus p f v) := foldl h fun _ _ h => h.setFld

theorem setLanes {p n} (h : s₀.LinkOnly s) : s₀.LinkOnly (s.setLanes p n) := h.setStatus.setStatus

theorem setLaneMask {p f v} (h : s₀.LinkOnly s) : s₀.LinkOnly (s.setLaneMask p f v) := foldl h fun _ _ h => h.setFld

theorem addLanes {p open_ short} (h : s₀.LinkOnly s) : s₀.LinkOnly (s.addLanes p open_ short) := h.onPort.setLaneMask.setLaneMask

theorem portRecord {p} (h : s₀.LinkOnly s) : s₀.LinkOnly (s.portRecord p) := by
  dsimp only [State.portRecord]
  with_reducible exact h.takeFree.fault

theorem enterPort {p st} (h : s₀.LinkOnly s) : s₀.LinkOnly (s.enterPort p st) := by
  unfold State.enterPort
  exact h.setStatus.onPort

theorem dropHeld {p} (h : s₀.LinkOnly s) : s₀.LinkOnly (s.dropHeld p) := by
  unfold State.dropHeld
  exact h.countWrap.onPort

theorem portFenced {p} (h : s₀.LinkOnly s) : s₀.LinkOnly (s.portFenced p) := ite h h.dropHeld.enterPort.setLanes.portRecord

theorem portRetrain {p} (h : s₀.LinkOnly s) : s₀.LinkOnly (s.portRetrain p) := h.enterPort.onPort.portRecord

theorem fencePortDie {die} (h : s₀.LinkOnly s) : s₀.LinkOnly (s.fencePortDie die) := foldl h.setFld fun _ _ h => ite h h.portFenced

theorem laneOpen {port lane} (h : s₀.LinkOnly s) : s₀.LinkOnly (s.laneOpen port lane) :=
  ite (ite h.addLanes.portRetrain h.addLanes) h

theorem stopIssue (h : s₀.LinkOnly s) : s₀.LinkOnly s.stopIssue := h.change rfl

theorem requestRetire {n} (h : s₀.LinkOnly s) : s₀.LinkOnly (s.requestRetire n) := ite h.setReg.stopIssue h.setReg

theorem retireEngines {die} (h : s₀.LinkOnly s) : s₀.LinkOnly (s.retireEngines die) := setFld (h.change rfl)

theorem linkLasting {cls idx rsv} (h : s₀.LinkOnly s) : s₀.LinkOnly (s.linkLasting cls idx rsv) := by
  unfold State.linkLasting
  split
  · refine foldl h.emit.setFld fun _ _ h => ?_
    split
    · exact h.requestRetire
    · exact h
  · exact h.emit.setFld.retireEngines
  · exact h.emit.setFld.fencePortDie
  · exact h.emit.setFld

theorem classAction {cls unit lane} (h : s₀.LinkOnly s) : s₀.LinkOnly (s.classAction cls unit lane) := by
  unfold State.classAction
  split
  · split
    · exact h.requestRetire
    · exact h
  · split
    · exact h.requestRetire
    · exact h
  · exact h.retireEngines
  · exact h.fencePortDie
  · refine ite ?_ (ite h h.linkLasting)
    exact ite h.linkLasting (ite h.linkLasting (ite h.linkLasting (ite h.linkLasting h.linkLasting)))
  · exact h.laneOpen
  · exact h

end State.LinkOnly

/-- From `s` to `t` nothing has changed but what an access to the Reservoir and its channels can reach: the parts of
`scopeSluice`, without the number of the next routing step. -/
def State.StoreOnly (s t : State) : Prop :=
  ∃ regs mem marks ecc rsv banks chans hg ports cls tl flt out free, hg.nextStep = s.hg.nextStep ∧ t = { s with
    regs := regs, mem := mem, marks := marks, ecc := ecc, rsv := rsv, banks := banks, chans := chans, hg := hg, ports := ports, cls := cls,
    tl := tl, flt := flt, out := out, free := free }

namespace State.StoreOnly
open State.Canonical (of_def scanMarks_succ)
variable {s₀ s : State}

theorem refl (s : State) : s.StoreOnly s := ⟨_, _, _, _, _, _, _, _, _, _, _, _, _, _, rfl, rfl⟩

theorem change (h : s₀.StoreOnly s) {regs mem marks ecc rsv banks chans hg ports cls tl flt out free}
    (hnext : hg.nextStep = s.hg.nextStep) :
    s₀.StoreOnly (State.mk s.fuses s.clock s.tb s.lock s.present regs mem marks ecc rsv banks chans hg s.fab ports s.cores cls s.col tl
      s.sw s.boot s.pwr s.mg flt out free s.pending) := by
  obtain ⟨_, _, _, _, _, _, _, _, _, _, _, _, _, _, hn, rfl⟩ := h
  exact ⟨_, _, _, _, _, _, _, _, _, _, _, _, _, _, hnext.trans hn, rfl⟩

theorem cores (h : s₀.StoreOnly s) : s.cores = s₀.cores := by
  obtain ⟨_, _, _, _, _, _, _, _, _, _, _, _, _, _, -, rfl⟩ := h
  rfl

theorem ofLink (h : s₀.StoreOnly s) {t : State} (ht : s.LinkOnly t) : s₀.StoreOnly t := by
  obtain ⟨_, _, _, _, _, _, _, hn, rfl⟩ := ht
  exact h.change hn

theorem ofRecorded (h : s₀.StoreOnly s) {t : State} (ht : s.Recorded t) : s₀.StoreOnly t := by
  obtain ⟨_, _, _, rfl⟩ := ht
  exact h.change rfl

/-- The state an answer `r` carries. The projection stays a name of its own here, as in `State.Canonical.Yields`. -/
def Yields {α : Type} (s₀ : State) (out : α → State) (r : α) : Prop := s₀.StoreOnly (out r)

section
variable {α β γ : Type} {c : Prop} [Decidable c] {t : State}

theorem ite {a b : State} (ha : s₀.StoreOnly a) (hb : s₀.StoreOnly b) : s₀.StoreOnly (if c then a else b) := by
  split
  · exact ha
  · exact hb

theorem iteSnd {a b : α × State} (ha : s₀.StoreOnly a.2) (hb : s₀.StoreOnly b.2) : s₀.StoreOnly (if c then a else b).2 := by
  split
  · exact ha
  · exact hb

theorem iteThird {a b : α × β × State} (ha : s₀.StoreOnly a.2.2) (hb : s₀.StoreOnly b.2.2) :
    s₀.StoreOnly (if c then a else b).2.2 := by
  split
  · exact ha
  · exact hb

theorem iteYields {out : α → State} {a b : α} (ha : Yields s₀ out a) (hb : Yields s₀ out b) :
    Yields s₀ out (if c then a else b) := by
  split
  · exact ha
  · exact hb

theorem of_snd {p : α × State} {a : α} (h : s₀.StoreOnly p.2) (e : p = (a, t)) : s₀.StoreOnly t := by
  rw [e] at h
  exact h

theorem of_third {p : α × β × State} {a : α} {b : β} (h : s₀.StoreOnly p.2.2) (e : p = (a, b, t)) : s₀.StoreOnly t := by
  rw [e] at h
  exact h

theorem foldl {f : State → α → State} {l : List α} (h : s₀.StoreOnly s) (hf : ∀ s x, s₀.StoreOnly s → s₀.StoreOnly (f s x)) :
    s₀.StoreOnly (l.foldl f s) :=
  List.foldlRecOn l f h fun s h x _ => hf s x h

end

theorem countSat {a f n} (h : s₀.StoreOnly s) : s₀.StoreOnly (s.countSat a f n) := h.change rfl

theorem countWrap {a f n} (h : s₀.StoreOnly s) : s₀.StoreOnly (s.countWrap a f n) := h.change rfl

theorem takeFree {k} (h : s₀.StoreOnly s) : s₀.StoreOnly (s.takeFree k).2 := h.change rfl

theorem fault {unit code addr detail} (h : s₀.StoreOnly s) : s₀.StoreOnly (s.fault unit code addr detail) := h.change rfl

theorem unmapped {who a k} (h : s₀.StoreOnly s) : s₀.StoreOnly (s.unmapped who a k) := h.fault

theorem companionWrite {who a bs} (h : s₀.StoreOnly s) : s₀.StoreOnly (s.companionWrite who a bs) :=
  h.ofRecorded (State.Recorded.refl s).companionWrite

theorem classAction {cls unit lane} (h : s₀.StoreOnly s) : s₀.StoreOnly (s.classAction cls unit lane) :=
  h.ofLink (State.LinkOnly.refl s).classAction

theorem markLasting {cls unit lane addr} (h : s₀.StoreOnly s) : s₀.StoreOnly (s.markLasting cls unit lane addr) :=
  ite h (ite (classAction (h.change rfl)) (h.change rfl))

theorem eccEvent {cls unit lane uncorr addr} (h : s₀.StoreOnly s) : s₀.StoreOnly (s.eccEvent cls unit lane uncorr addr) :=
  ite (markLasting (h.change rfl)) (h.change rfl)

theorem logEntry {addr unit type source bit} (h : s₀.StoreOnly s) : s₀.StoreOnly (s.logEntry addr unit type source bit) :=
  ite h (ite h.countSat (ite (countSat (h.change rfl)) (companionWrite (change (companionWrite (h.change rfl)) rfl))))

theorem uncorrectableDetail {structure_ source} (h : s₀.StoreOnly s) : s₀.StoreOnly (s.uncorrectableDetail structure_ source).2 := by
  dsimp only [State.uncorrectableDetail]
  with_reducible exact h.takeFree

theorem clearMark {k} (h : s₀.StoreOnly s) : s₀.StoreOnly (s.clearMark k) := h.change rfl

theorem poisonWord {k} (h : s₀.StoreOnly s) : s₀.StoreOnly (s.poisonWord k) := h.change rfl

theorem reportUncorrectable {k source named} (h : s₀.StoreOnly s) : s₀.StoreOnly (s.reportUncorrectable k source named) := by
  dsimp only [State.reportUncorrectable]
  with_reducible exact eccEvent (fault (uncorrectableDetail (logEntry (ite h.countWrap h.countWrap))))

theorem checkWord {k source named} (h : s₀.StoreOnly s) : s₀.StoreOnly (s.checkWord k source named).2 := by
  unfold State.checkWord
  split
  · exact h
  · dsimp only
    split
    · exact h
    · with_reducible exact eccEvent (logEntry (ite h.clearMark.countWrap h.clearMark.countWrap))
    · with_reducible exact h.reportUncorrectable
    · with_reducible exact h.logEntry
    · with_reducible exact iteSnd h.takeFree.reportUncorrectable (change h.takeFree.takeFree.clearMark rfl)

theorem checkWords : ∀ {keys source} {s : State}, s₀.StoreOnly s → s₀.StoreOnly (s.checkWords source keys).2
  | [], _, _, h => h
  | _ :: _, _, _, h => h.checkWord.checkWords

theorem readStore {c n source} (h : s₀.StoreOnly s) : s₀.StoreOnly (s.readStore c n source).2.2 := h.checkWords

theorem writeWord {k be data poison} (h : s₀.StoreOnly s) : s₀.StoreOnly (s.writeWord k be data poison) := by
  unfold State.writeWord
  with_reducible exact ite h (ite (ite h.poisonWord (h.change rfl))
    (ite h.uncorrectableDetail.fault.poisonWord
      (ite h.checkWord.poisonWord (h.checkWord.change rfl))))

theorem writeStoreBe : ∀ {fuel c be data poison} {s : State}, s₀.StoreOnly s → s₀.StoreOnly (s.writeStoreBe fuel c be data poison)
  | 0, _, _, _, _, _, h => h
  | _ + 1, _, _, _, _, _, h => ite h h.writeWord.writeStoreBe

theorem writeStore {c data poison} (h : s₀.StoreOnly s) : s₀.StoreOnly (s.writeStore c data poison) := h.writeStoreBe

theorem sealLate {die region layer kind node source layer2 addr} (h : s₀.StoreOnly s) :
    s₀.StoreOnly (s.sealLate die region layer kind node source layer2 addr) :=
  h.fault

theorem foldTerm {region die o be data poison} (h : s₀.StoreOnly s) : s₀.StoreOnly (s.foldTerm region die o be data poison) := h.change rfl

theorem foldTerms : ∀ {fuel region die o be data poison} {s : State}, s₀.StoreOnly s →
    s₀.StoreOnly (s.foldTerms fuel region die o be data poison)
  | 0, _, _, _, _, _, _, _, h => h
  | _ + 1, _, _, _, _, _, _, _, h => ite h (foldTerms (ite h h.foldTerm))

theorem rsvWrite {who node sluice seen die x region be data poison} (h : s₀.StoreOnly s) :
    s₀.StoreOnly (s.rsvWrite who node sluice seen die x region be data poison).2 := by
  unfold State.rsvWrite
  split
  · exact h.writeStoreBe
  · refine iteSnd h.unmapped ?_
    split
    · exact h.sealLate
    · exact ite h.writeStoreBe.foldTerms h.writeStoreBe

theorem takeBank {die x age hold} (h : s₀.StoreOnly s) : s₀.StoreOnly (s.takeBank die x age hold) := countWrap (h.change rfl)

theorem bankRead {c n age} (h : s₀.StoreOnly s) : s₀.StoreOnly (s.bankRead c n age) := ite (foldl h fun _ _ h => h.takeBank) h

theorem bankWrite {die x n be age} (h : s₀.StoreOnly s) : s₀.StoreOnly (s.bankWrite die x n be age) :=
  foldl h fun _ _ h => ite h (ite h.takeBank.countWrap h.takeBank)

theorem fetch {c n source age} (h : s₀.StoreOnly s) : s₀.StoreOnly (s.fetch c n source age).2.2 := h.bankRead.readStore

theorem rsvStore {age who node sluice seen die x region be data poison} (h : s₀.StoreOnly s) :
    s₀.StoreOnly (s.rsvStore age who node sluice seen die x region be data poison).2 :=
  ite h.rsvWrite.bankWrite h.rsvWrite

theorem setChan {c x} (h : s₀.StoreOnly s) : s₀.StoreOnly (s.setChan c x) := h.change rfl

theorem sluiceReset {q cause} (h : s₀.StoreOnly s) : s₀.StoreOnly (s.sluiceReset q cause).2 := h.fault.setChan

theorem readMark {c p} (h : s₀.StoreOnly s) : s₀.StoreOnly (s.readMark c p).2 := by
  refine of_def (f := @State.readMark) (fun f => Yields s₀ (·.2) (f s c p)) (by delta State.readMark; exact rfl) ?_
  extract_lets -underBinder
  split
  next e =>
    have ht := h.bankRead.checkWord.of_snd e
    exact iteYields ht ht

theorem scanMarks {n c p seen} (h : s₀.StoreOnly s) : s₀.StoreOnly (s.scanMarks c n p seen).2 := by
  induction n generalizing s p seen with
  | zero => exact h
  | succ n ih =>
    rw [scanMarks_succ]
    split
    have ht := h.readMark.of_snd ‹_›
    split
    · exact ht
    · exact ht
    · exact ih ht

theorem sluiceApply {q} (h : s₀.StoreOnly s) : s₀.StoreOnly (s.sluiceApply q).2.2 := by
  refine of_def (f := @State.sluiceApply) (fun f => Yields s₀ (·.2.2) (f s q)) (by delta State.sluiceApply; exact rfl) ?_
  refine iteYields h (iteYields ?_ ?_)
  · split
    dsimp only
    split
    · exact h.setChan
    · exact h.setChan.unmapped
    · exact h.setChan.unmapped
    · exact h.setChan.unmapped
  · split
    · split
      exact h.sluiceReset.of_snd ‹_›
    · split
      split
      · exact h
      · refine iteYields h.setChan (iteYields h.setChan ?_)
        split
        have ht := h.readMark.of_snd ‹_›
        split
        · split
          exact ht.sluiceReset.of_snd ‹_›
        · extract_lets -underBinder
          split
          exact (ht.rsvStore.of_snd ‹_›).writeStore.setChan
      · refine iteYields h.setChan ?_
        split
        have ht := h.scanMarks.of_snd ‹_›
        split
        · split
          exact ht.sluiceReset.of_snd ‹_›
        · exact ht.setChan
      · refine iteYields h.setChan ?_
        split
        have ht := h.readMark.of_snd ‹_›
        obtain ⟨fetch, hfetch⟩ : ∃ f, f = @State.fetch := ⟨_, rfl⟩
        have hf {s : State} {k n c o} (h : s₀.StoreOnly s) : s₀.StoreOnly (fetch s k n c o).2.2 := hfetch ▸ h.fetch
        rw [← hfetch]
        split
        · split
          exact ht.sluiceReset.of_snd ‹_›
        · split
          exact ((hf ht).of_third ‹_›).setChan

end State.StoreOnly

end Sys2Proof.Machine
end

section
namespace Sys2Proof.Machine

-- Link flits (R31, R49) ---------------------------------------------------------------------------------------------------

@[simp] theorem State.bucket_setBucket (s : State) (key : Nat) (b : Bucket) : (s.setBucket key b).bucket key = b := tblGetD_tblPut_self _ _ _ _

theorem State.bucket_congr {s t : State} (h : t.ecc = s.ecc) (key : Nat) : t.bucket key = s.bucket key := by
  rw [State.bucket, State.bucket, h]

/-- A link direction noted as lasting is among those that are. -/
theorem State.mem_noteLasting (s : State) (k : Nat) : k ∈ (s.noteLasting k).ecc.linkLasting := by
  unfold State.noteLasting
  exact List.mem_eraseDups.mpr (List.mem_append_right _ (List.mem_singleton_self k))

/-- A unit that is marked lasting is so afterwards; the other counts of errors stay. -/
theorem State.markLasting_ecc (s : State) (cls unit lane addr : Nat) :
    let k := bucketKey cls unit lane
    (s.markLasting cls unit lane addr).ecc.linkLasting = s.ecc.linkLasting ∧ ((s.markLasting cls unit lane addr).bucket k).lasting = true := by
  intro k
  unfold State.markLasting
  dsimp only
  split
  next h => exact ⟨rfl, h⟩
  next h =>
    have hmarked (t : State) (ht : t.ecc = ((s.setBucket k { s.bucket k with lasting := true })).ecc) :
        t.ecc.linkLasting = s.ecc.linkLasting ∧ (t.bucket k).lasting = true := by
      rw [State.bucket_congr ht, State.bucket_setBucket, ht]
      exact ⟨rfl, rfl⟩
    split
    · exact hmarked _ ((State.LinkOnly.refl _).classAction.ecc)
    · exact hmarked _ rfl

theorem State.endCarried_cons (s : State) (unit : Nat) (c : Requester × Nat) (cs : List (Requester × Nat)) :
    s.endCarried unit (c :: cs) =
      ((s.fault unit Code.uncorrectable (some c.2) 2).emit (.bus c.1 c.2 Code.uncorrectable [])).endCarried unit cs := rfl

theorem State.endCarried_ecc (unit : Nat) (carried : List (Requester × Nat)) (s : State) : (s.endCarried unit carried).ecc = s.ecc := by
  induction carried generalizing s with
  | nil => rfl
  | cons c cs ih => rw [State.endCarried_cons, ih]; rfl

theorem State.mem_out_endCarried {unit : Nat} {carried : List (Requester × Nat)} {s : State} {o : Output}
    (h : o ∈ s.out ∨ ∃ c ∈ carried, o = .bus c.1 c.2 Code.uncorrectable []) : o ∈ (s.endCarried unit carried).out := by
  induction carried generalizing s with
  | nil =>
    obtain h | ⟨c, hc, -⟩ := h
    · exact h
    · exact absurd hc List.not_mem_nil
  | cons c cs ih =>
    rw [State.endCarried_cons]
    refine ih ?_
    obtain h | ⟨d, hd, rfl⟩ := h
    · exact .inl (List.mem_append_left _ h)
    · obtain rfl | hd := List.mem_cons.mp hd
      · exact .inl (List.mem_append_right _ (List.mem_singleton_self _))
      · exact .inr ⟨d, hd, rfl⟩

/-- An event that leaves the level below N × W is counted and does no more (R492, R493). -/
theorem State.eccEvent_of_low {s : State} {cls unit lane addr : Nat}
    (h : min ((s.bucket (bucketKey cls unit lane)).level + s.eccW cls) (2 ^ 24 - 1) < s.eccN cls * s.eccW cls) :
    let b := s.bucket (bucketKey cls unit lane)
    s.eccEvent cls unit lane false addr = s.setBucket (bucketKey cls unit lane)
      { b with level := min (b.level + s.eccW cls) (2 ^ 24 - 1), events := b.events + 1 } := by
  unfold State.eccEvent
  simp only [Bool.false_eq_true, if_false, Nat.mul_one]
  exact if_neg (Nat.not_le.mpr h)

/-- The run of failures of a link direction. -/
def State.setRun (s : State) (k n : Nat) : State := { s with ecc := { s.ecc with linkFails := tblSet k n s.ecc.linkFails } }

section
variable {s : State} {l : DieLink} (hwf : l.wf = true) (carried : List (Requester × Nat))
include hwf

theorem State.flitReceive_good :
    s.flitReceive l true carried = { s with ecc := { s.ecc with linkFails := tblErase (linkKey l) s.ecc.linkFails } } := by
  unfold State.flitReceive
  simp only [hwf, Bool.not_true, Bool.false_eq_true, if_false, if_true]

theorem State.flitReceive_bad (hfails : tblGetD (linkKey l) 0 s.ecc.linkFails < 8)
    (hlow : min ((s.bucket (bucketKey 6 (linkUnit l) (linkLane l))).level + s.eccW 6) (2 ^ 24 - 1) < s.eccN 6 * s.eccW 6) :
    s.flitReceive l false carried =
      ((s.setRun (linkKey l) (tblGetD (linkKey l) 0 s.ecc.linkFails + 1)).eccEvent 6 (linkUnit l) (linkLane l) false 0).emit
        (.replay (linkKey l)) := by
  have hlasting := congrArg Bucket.lasting (congrArg (State.bucket · (bucketKey 6 (linkUnit l) (linkLane l)))
    (State.eccEvent_of_low (s := s.setRun (linkKey l) (tblGetD (linkKey l) 0 s.ecc.linkFails + 1)) (addr := 0) hlow))
  simp only [State.bucket_setBucket] at hlasting
  unfold State.flitReceive
  refine (if_neg (by rw [hwf]; decide)).trans ((if_neg (by decide)).trans ((if_pos hfails).trans (if_neg ?_)))
  rw [Bool.and_eq_true, Bool.and_eq_true]
  rintro ⟨⟨hwas, hnow⟩, -⟩
  rw [show (s.bucket (bucketKey 6 (linkUnit l) (linkLane l))).lasting = true from hlasting.symm.trans hnow] at hwas
  exact absurd hwas (by decide)

theorem State.flitReceive_ninth (hfails : 8 ≤ tblGetD (linkKey l) 0 s.ecc.linkFails) :
    ∃ t, ((s.noteLasting (linkKey l)).markLasting 6 (linkUnit l) (linkLane l) 0).LinkOnly t ∧
      s.flitReceive l false carried = t.endCarried (linkUnit l) carried := by
  unfold State.flitReceive
  simp only [hwf, Bool.not_true, Bool.false_eq_true, if_false, if_neg (Nat.not_lt.mpr hfails)]
  exact ⟨_, .ite (.refl _) (State.LinkOnly.refl _).linkLasting, rfl⟩

end

/-- R28, R31, R49, R493. -/
theorem badFlitIsReplayedAndCounted : Claims.BadFlitIsReplayedAndCounted := by
  intro s l carried hlive k fails
  have hexec (ok : Bool) : exec (.flitReceive l ok carried) s =
      .next (s.keep [.regs, .ecc, .hg, .ports, .cls, .flt, .out, .free] (s.flitReceive l ok carried)) :=
    exec_act (f := fun s => s.flitReceive l ok carried) rfl hlive
  refine ⟨fun hwf ok => ?_, fun hwf => ⟨⟨_, hexec true, ?_⟩, fun hfails hlow => ⟨_, hexec false, ?_⟩, fun hfails => ⟨_, hexec false, ?_⟩⟩⟩
  · rw [hexec, show s.flitReceive l ok carried = s by unfold State.flitReceive; rw [hwf]; rfl, State.keep_self]
  · rw [State.flitReceive_good hwf]
    exact ⟨tblGetD_tblErase_self _ _ _, rfl, rfl⟩
  · rw [State.flitReceive_bad hwf carried hfails hlow, State.eccEvent_of_low (s := s.setRun _ _) hlow]
    refine ⟨tblGetD_tblSet_self _ _ _ _, ?_, rfl⟩
    exact congrArg Bucket.events (tblGetD_tblPut_self _ _ _ _)
  · obtain ⟨t, ht, heq⟩ := State.flitReceive_ninth hwf carried hfails
    have hecc : (s.flitReceive l false carried).ecc = _ := (congrArg State.ecc heq).trans ((State.endCarried_ecc _ _ _).trans ht.ecc)
    obtain ⟨hlinks, hlasting⟩ := (s.noteLasting (linkKey l)).markLasting_ecc 6 (linkUnit l) (linkLane l) 0
    refine ⟨?_, ?_, fun c hc => ?_⟩
    · rw [State.keep_ecc, if_pos (by decide), hecc, hlinks]
      exact State.mem_noteLasting s _
    · rw [State.bucket_congr (s := (s.noteLasting (linkKey l)).markLasting 6 (linkUnit l) (linkLane l) 0)]
      · exact hlasting
      · rw [State.keep_ecc, if_pos (by decide), hecc]
    · rw [State.keep_out, if_pos (by decide), heq]
      exact State.mem_out_endCarried (.inr ⟨c, hc, rfl⟩)

end Sys2Proof.Machine
end

section
namespace Sys2Proof.Machine

-- Masked writes and unmarked words -------------------------------------------------------------------------------------

theorem tblFind_tblErase_of_none {α : Type} {k : Nat} {t : List (Nat × α)} (h : tblFind k t = none) (j : Nat) :
    tblFind k (tblErase j t) = none := by
  by_cases hj : k = j
  · rw [hj, tblFind_tblErase_self]
  · rw [tblFind_tblErase_ne hj, h]

theorem memByte_memPutMasked_out (bs : List Byte) : ∀ (m : Memory) (a be c : Nat), c < a ∨ a + bs.length ≤ c →
    memByte (memPutMasked m a be bs) c = memByte m c := by
  induction bs with
  | nil => intros; rfl
  | cons b bs ih =>
    intro m a be c h
    rw [List.length_cons] at h
    rw [memPutMasked, ih _ _ _ _ (by omega)]
    split
    · exact memByte_memPutByte_ne (by omega) m b
    · rfl

theorem memByte_memPutMasked_in (bs : List Byte) : ∀ (m : Memory) (a be i : Nat), i < bs.length →
    memByte (memPutMasked m a be bs) (a + i) = if be.testBit i then bs.getD i 0 else memByte m (a + i) := by
  induction bs with
  | nil => exact fun _ _ _ i h => absurd h (Nat.not_lt_zero i)
  | cons b bs ih =>
    intro m a be i h
    rw [memPutMasked]
    cases i with
    | zero =>
      rw [Nat.add_zero a, memByte_memPutMasked_out _ _ _ _ _ (Or.inl (Nat.lt_succ_self a)), Nat.testBit_zero]
      by_cases hbit : be % 2 = 1
      · rw [if_pos hbit, if_pos (decide_eq_true hbit), memByte_memPutByte_self, List.getD_cons_zero]
      · rw [if_neg hbit, if_neg (fun h => hbit (of_decide_eq_true h))]
    | succ i =>
      rw [show a + (i + 1) = a + 1 + i by omega, ih _ _ _ _ (Nat.lt_of_succ_lt_succ h), ← Nat.testBit_succ, List.getD_cons_succ]
      split
      · rfl
      · split
        · exact memByte_memPutByte_ne (by omega) m b
        · rfl

/-- A write that enables every byte is a plain write. -/
theorem memPutMasked_full (bs : List Byte) : ∀ (m : Memory) (a n : Nat), bs.length ≤ n → memPutMasked m a (2 ^ n - 1) bs = memPutBytes m a bs := by
  induction bs with
  | nil => intros; rfl
  | cons b bs ih =>
    intro m a n h
    obtain ⟨k, rfl⟩ : ∃ k, n = k + 1 := ⟨n - 1, by rw [List.length_cons] at h; omega⟩
    have hpos := Nat.two_pow_pos k
    have hdouble : 2 ^ (k + 1) = 2 * 2 ^ k := by rw [Nat.pow_succ, Nat.mul_comm]
    rw [memPutMasked, if_pos (by omega), show (2 ^ (k + 1) - 1) / 2 = 2 ^ k - 1 by omega, ih _ _ _ (Nat.le_of_succ_le_succ h), memPutBytes]

theorem memPutBytes_append (bs cs : List Byte) : ∀ (m : Memory) (a : Nat),
    memPutBytes m a (bs ++ cs) = memPutBytes (memPutBytes m a bs) (a + bs.length) cs := by
  induction bs with
  | nil => intros; rfl
  | cons b bs ih =>
    intro m a
    rw [List.cons_append, memPutBytes, ih, memPutBytes, List.length_cons, Nat.add_comm bs.length, Nat.add_assoc]

section
variable {c : Nat} (h : rsvBase ≤ c)
include h

theorem isHbm_of_rsv : isHbm c = false := by
  unfold rsvBase at h
  unfold isHbm hbmSize
  exact decide_eq_false (by omega)

theorem wordKey_of_rsv : wordKey c = c - c % 8 := by
  rw [wordKey, isHbm_of_rsv h]
  rfl

theorem wordKey_of_aligned (halign : c % 8 = 0) : wordKey c = c := by
  rw [wordKey_of_rsv h, halign, Nat.sub_zero]

theorem wordSize_of_rsv : wordSize c = 8 := by
  rw [wordSize, isHbm_of_rsv h]
  rfl

end

theorem State.checkWord_of_unmarked {s : State} {k : Nat} (h : tblFind k s.marks = none) (source named : Nat) :
    s.checkWord k source named = (0, s) := by
  rw [State.checkWord, h]

theorem State.checkWords_of_unmarked {s : State} (source : Nat) {ks : List Nat} (h : ∀ k ∈ ks, tblFind k s.marks = none) :
    s.checkWords source ks = (0, s) := by
  induction ks with
  | nil => rfl
  | cons k ks ih =>
    rw [State.checkWords, State.checkWord_of_unmarked (h k List.mem_cons_self)]
    dsimp only
    rw [ih fun k hk => h k (List.mem_cons_of_mem _ hk)]
    rfl

theorem State.readStore_of_unmarked {s : State} {c n : Nat} (source : Nat) (h : ∀ k ∈ wordKeys c n, tblFind k s.marks = none) :
    s.readStore c n source = (0, memBytes s.mem c n, s) := by
  rw [State.readStore, State.checkWords_of_unmarked source h]
  rfl

section
variable {s : State} {k : Nat} (hk : rsvBase ≤ k)
include hk

/-- A write of the whole word (R486). -/
theorem State.writeWord_whole {be : Nat} (hbe : be % 256 = 255) (data : List Byte) :
    s.writeWord k be data false = { s with mem := memPutMasked s.mem k be data, marks := tblErase k s.marks } := by
  rw [State.writeWord, wordSize_of_rsv hk]
  exact (if_neg (by omega)).trans ((if_pos (by omega)).trans rfl)

/-- A write of part of a word that holds no mark (R486). -/
theorem State.writeWord_part {be : Nat} (hnone : be % 256 ≠ 0) (hall : be % 256 ≠ 255) (hmark : tblFind k s.marks = none) (data : List Byte) :
    s.writeWord k be data false = { s with mem := memPutMasked s.mem k be data } := by
  rw [State.writeWord, wordSize_of_rsv hk, hmark]
  refine (if_neg (by omega)).trans ((if_neg (by omega)).trans ?_)
  dsimp only
  rw [State.checkWord_of_unmarked hmark]
  rfl

/-- A write of no byte of a word. -/
theorem State.writeWord_none {be : Nat} (hbe : be % 256 = 0) (data : List Byte) : s.writeWord k be data false = s := by
  rw [State.writeWord, wordSize_of_rsv hk]
  exact if_pos (by omega)

/-- A write of a word that holds no mark stores the enabled bytes and nothing else (R97, R486). -/
theorem State.writeWord_of_unmarked {be : Nat} {data : List Byte} (hdata : data.length = 8) (hmark : tblFind k s.marks = none) :
    ∃ mem marks, s.writeWord k be data false = { s with mem := mem, marks := marks } ∧
      (∀ i, i < 8 → memByte mem (k + i) = if be.testBit i then data.getD i 0 else memByte s.mem (k + i)) ∧
      ∀ a, a < k ∨ k + 8 ≤ a → memByte mem a = memByte s.mem a := by
  have hmasked : (∀ i, i < 8 → memByte (memPutMasked s.mem k be data) (k + i) =
        if be.testBit i then data.getD i 0 else memByte s.mem (k + i)) ∧
      ∀ a, a < k ∨ k + 8 ≤ a → memByte (memPutMasked s.mem k be data) a = memByte s.mem a :=
    ⟨fun i hi => memByte_memPutMasked_in _ _ _ _ _ (hdata ▸ hi), fun a ha => memByte_memPutMasked_out _ _ _ _ _ (hdata ▸ ha)⟩
  by_cases hnone : be % 256 = 0
  · refine ⟨s.mem, s.marks, State.writeWord_none hk hnone data, fun i hi => ?_, fun _ _ => rfl⟩
    have hbit := Nat.testBit_mod_two_pow be 8 i
    rw [show be % 2 ^ 8 = 0 from hnone, Nat.zero_testBit, decide_eq_true hi, Bool.true_and] at hbit
    rw [← hbit]
    rfl
  · by_cases hall : be % 256 = 255
    · exact ⟨_, _, State.writeWord_whole hk hall data, hmasked⟩
    · exact ⟨_, _, State.writeWord_part hk hnone hall hmark data, hmasked⟩

end

/-- The pieces of a write are the words it covers (R486): an aligned write of whole words from `c` on. -/
theorem State.writeStoreBe_words (n : Nat) : ∀ {s : State} {fuel c : Nat} {data : List Byte}, rsvBase ≤ c → c % 8 = 0 → data.length = 8 * n →
    n ≤ fuel → ∃ marks, s.writeStoreBe fuel c (2 ^ (8 * n) - 1) data false = { s with mem := memPutBytes s.mem c data, marks := marks } ∧
      ∀ k, tblFind k s.marks = none → tblFind k marks = none := by
  induction n with
  | zero =>
    intro s fuel c data hc halign hlen hfuel
    obtain rfl := List.eq_nil_of_length_eq_zero hlen
    refine ⟨s.marks, ?_, fun _ h => h⟩
    cases fuel <;> rfl
  | succ n ih =>
    intro s fuel c data hc halign hlen hfuel
    obtain ⟨fuel, rfl⟩ : ∃ f, fuel = f + 1 := ⟨fuel - 1, by omega⟩
    have hpow : 2 ^ (8 * (n + 1)) = 256 * 2 ^ (8 * n) := by rw [Nat.mul_succ, Nat.pow_add, Nat.mul_comm]
    have hpos := Nat.two_pow_pos (8 * n)
    have htake : (data.take 8).length = 8 := by rw [List.length_take]; omega
    have hempty : data.isEmpty = false := by
      cases data with
      | nil => exact absurd hlen (by rw [List.length_nil]; omega)
      | cons => rfl
    obtain ⟨marks, heq, hmarks⟩ := ih (s := s.writeWord c 255 (data.take 8) false) (fuel := fuel) (c := c + 8) (data := data.drop 8)
      (by omega) (by omega) (by rw [List.length_drop]; omega) (by omega)
    rw [State.writeWord_whole hc rfl, show (255 : Nat) = 2 ^ 8 - 1 from rfl, memPutMasked_full _ _ _ _ (by omega)] at heq
    have hbytes : memPutBytes (memPutBytes s.mem c (data.take 8)) (c + 8) (data.drop 8) = memPutBytes s.mem c data := by
      conv_rhs => rw [← List.take_append_drop 8 data]
      rw [memPutBytes_append, htake]
    refine ⟨marks, ?_, fun k hk => hmarks k ?_⟩
    · rw [State.writeStoreBe, hempty, if_neg (by decide)]
      dsimp only
      rw [wordKey_of_aligned hc halign, wordSize_of_rsv hc, Nat.sub_self, Nat.sub_zero, Nat.min_eq_left (by omega), Nat.pow_zero, Nat.mul_one,
        List.replicate_zero, List.nil_append, show (2 ^ (8 * (n + 1)) - 1) % 2 ^ 8 = 255 by omega,
        show (2 ^ (8 * (n + 1)) - 1) / 2 ^ 8 = 2 ^ (8 * n) - 1 by omega, State.writeWord_whole hc rfl,
        show (255 : Nat) = 2 ^ 8 - 1 from rfl, memPutMasked_full _ _ _ _ (by omega), heq, hbytes]
    · rw [State.writeWord_whole hc rfl]
      exact tblFind_tblErase_of_none hk c

/-- A write of up to one aligned word is one write of it. -/
theorem State.writeStoreBe_word {s : State} {fuel c be : Nat} {data : List Byte} (hc : rsvBase ≤ c) (halign : c % 8 = 0) (hlen : data.length = 8) :
    s.writeStoreBe (fuel + 1) c be data false = s.writeWord c (be % 256) data false := by
  have hempty : data.isEmpty = false := by
    cases data with
    | nil => exact absurd hlen (by decide)
    | cons => rfl
  rw [State.writeStoreBe, hempty, if_neg (by decide)]
  dsimp only
  rw [wordKey_of_aligned hc halign, wordSize_of_rsv hc, Nat.sub_self, Nat.sub_zero, hlen, Nat.min_self, Nat.pow_zero, Nat.mul_one,
    List.replicate_zero, List.nil_append, List.take_of_length_le (by omega), List.drop_of_length_le (by omega)]
  cases fuel <;> rfl

end Sys2Proof.Machine
end

section
namespace Sys2Proof.Machine

@[simp] theorem b2n_true : b2n true = 1 := rfl
@[simp] theorem b2n_false : b2n false = 0 := rfl

-- Banks (R100, R101) ------------------------------------------------------------------------------------------------------

/-- From `s` to `t` nothing has changed but when banks are free and what is counted about them (R100, R101). -/
def State.BankOnly (s t : State) : Prop :=
  ∃ regs banks, t = { s with regs := regs, banks := banks } ∧ ∀ a, (∀ d, d < 4 → a ≠ Reg.RSV_BANK_STAT d) → t.reg a = s.reg a

namespace State.BankOnly
variable {s₀ s : State}

theorem refl (s : State) : s.BankOnly s := ⟨_, _, rfl, fun _ _ => rfl⟩

theorem countWrap {d : Nat} (hd : d < 4) {f n} (h : s₀.BankOnly s) : s₀.BankOnly (s.countWrap (Reg.RSV_BANK_STAT d) f n) := by
  obtain ⟨_, _, rfl, hreg⟩ := h
  exact ⟨_, _, rfl, fun a ha => (State.reg_setFld_ne (ha d hd) _ _ _).trans (hreg a ha)⟩

theorem takeBank {d : Nat} (hd : d < 4) {x age hold} (h : s₀.BankOnly s) : s₀.BankOnly (s.takeBank d x age hold) := by
  refine countWrap hd ?_
  obtain ⟨_, _, rfl, hreg⟩ := h
  exact ⟨_, _, rfl, fun a ha => hreg a ha⟩

theorem ite {c : Prop} [Decidable c] {a b : State} (ha : s₀.BankOnly a) (hb : s₀.BankOnly b) : s₀.BankOnly (if c then a else b) := by
  split
  · exact ha
  · exact hb

theorem foldl {α : Type} {f : State → α → State} {l : List α} (h : s₀.BankOnly s) (hf : ∀ s x, s₀.BankOnly s → s₀.BankOnly (f s x)) :
    s₀.BankOnly (l.foldl f s) :=
  List.foldlRecOn l f h fun s h x _ => hf s x h

theorem bankRead {c n age} (h : s₀.BankOnly s) : s₀.BankOnly (s.bankRead c n age) := by
  unfold State.bankRead
  split
  next hc =>
    have hdie : (c - rsvBase) / 2 ^ 32 < 4 := by
      rw [Bool.and_eq_true, decide_eq_true_eq, decide_eq_true_eq] at hc
      omega
    exact foldl h fun _ _ h => h.takeBank hdie
  next => exact h

theorem bankWrite {d : Nat} (hd : d < 4) {x n be age} (h : s₀.BankOnly s) : s₀.BankOnly (s.bankWrite d x n be age) :=
  foldl h fun _ _ h => ite h (ite ((h.takeBank hd).countWrap hd) (h.takeBank hd))

theorem mem (h : s₀.BankOnly s) : s.mem = s₀.mem := by
  obtain ⟨_, _, rfl, -⟩ := h
  rfl

theorem marks (h : s₀.BankOnly s) : s.marks = s₀.marks := by
  obtain ⟨_, _, rfl, -⟩ := h
  rfl

end State.BankOnly

/-- A read of words that hold no mark returns the bytes stored there and takes its banks (R33, R99, R100). -/
theorem State.fetch_of_unmarked {s : State} {c n : Nat} (source age : Nat) (h : ∀ k ∈ wordKeys c n, tblFind k s.marks = none) :
    s.fetch c n source age = (0, memBytes s.mem c n, s.bankRead c n age) := by
  have hbanks : s.BankOnly (s.bankRead c n age) := (State.BankOnly.refl s).bankRead
  rw [State.fetch, State.readStore_of_unmarked source (hbanks.marks ▸ h), hbanks.mem]

/-- The cycle from which a bank is free once an access of `hold` cycles has taken it (R100). -/
def State.heldTo (s : State) (d x hold : Nat) : Nat := max s.clock.cycles (tblGetD (d * 64 + bankOf x) 0 s.banks) + hold

theorem State.banks_takeBank (s : State) (d x age hold : Nat) :
    tblGetD (d * 64 + bankOf x) 0 (s.takeBank d x age hold).banks = s.heldTo d x hold :=
  tblGetD_tblSet_self _ _ _ _

/-- Bytes that stay within a line are one access (R99). -/
theorem linesAt_of_line {x n : Nat} (hpos : 0 < n) (hline : x % 256 + n ≤ 256) : linesAt x n = [(x, n)] := by
  have hlast : (x + n - 1) / 256 - x / 256 + 1 = 1 := by omega
  rw [linesAt, if_neg (by omega), hlast]
  simp only [List.range_one, List.map_cons, List.map_nil, Nat.add_zero, List.cons.injEq, Prod.mk.injEq, and_true]
  omega

/-- A write of part of an aligned word is one that enables some of its bytes and not all (R100). -/
theorem partialWord_of_aligned {x : Nat} (halign : x % 8 = 0) (be : Nat) : partialWord x 8 be = (be % 256 != 0 && be % 256 != 255) := by
  rw [partialWord, halign]
  simp only [Nat.pow_zero, Nat.mul_one, chunksOf, Nat.reducePow, Nat.reduceAdd, Nat.reduceDiv, Nat.mod_mod, List.any_cons, List.any_nil,
    show be % 256 / 256 = 0 by omega, Nat.zero_mod, bne_self_eq_false, Bool.false_and, Bool.or_false]

/-- A read of the Reservoir within a line takes one bank (R99, R100). -/
theorem State.bankRead_of_line (s : State) {d x n : Nat} (hd : d < 4) (hx : x < 2 ^ 28) (hpos : 0 < n) (hline : x % 256 + n ≤ 256) (age : Nat) :
    s.bankRead (rsvBase + d * 2 ^ 32 + x) n age = s.takeBank d x age 4 := by
  have hdie : (rsvBase + d * 2 ^ 32 + x - rsvBase) / 2 ^ 32 = d := by omega
  have hoffset : (rsvBase + d * 2 ^ 32 + x) % 2 ^ 28 = x := by unfold rsvBase; omega
  rw [State.bankRead, if_pos (by rw [Bool.and_eq_true, decide_eq_true_eq, decide_eq_true_eq]; omega), hdie, hoffset,
    linesAt_of_line hpos hline]
  rfl

/-- What a write of an aligned word takes of its bank (R100, R101). -/
theorem State.bankWrite_of_aligned (s : State) (d : Nat) {x : Nat} (halign : x % 8 = 0) (be age : Nat) :
    s.bankWrite d x 8 be age =
      if be % 256 = 0 then s
      else if be % 256 ≠ 255 then (s.takeBank d x age 8).countWrap (Reg.RSV_BANK_STAT d) Fld.RSV_BANK_STAT_RMW_WRITES 1
      else s.takeBank d x age 4 := by
  rw [State.bankWrite, linesAt_of_line (by decide) (by omega)]
  simp only [List.foldl_cons, List.foldl_nil, Nat.sub_self, Nat.shiftRight_zero, partialWord_of_aligned halign, Nat.reducePow]
  by_cases hnone : be % 256 = 0
  · rw [if_pos hnone, if_pos hnone]
  · simp only [hnone, if_false, Bool.and_eq_true, bne_iff_ne, ne_eq, not_false_eq_true, true_and]

/-- The count of read-modify-writes and the bank after a write of an aligned word (R100, R101). -/
theorem State.bankWrite_counts (s : State) (d : Nat) {x : Nat} (halign : x % 8 = 0) (be age : Nat) :
    let t := s.bankWrite d x 8 be age
    let part := be % 256 != 0 && be % 256 != 255
    (be % 256 ≠ 0 → tblGetD (d * 64 + bankOf x) 0 t.banks = s.heldTo d x (if part then 8 else 4)) ∧
    t.fld (Reg.RSV_BANK_STAT d) Fld.RSV_BANK_STAT_RMW_WRITES =
      (s.fld (Reg.RSV_BANK_STAT d) Fld.RSV_BANK_STAT_RMW_WRITES + b2n part) % 2 ^ Fld.RSV_BANK_STAT_RMW_WRITES.w := by
  intro t part
  have hmod : s.fld (Reg.RSV_BANK_STAT d) Fld.RSV_BANK_STAT_RMW_WRITES % 2 ^ Fld.RSV_BANK_STAT_RMW_WRITES.w =
      s.fld (Reg.RSV_BANK_STAT d) Fld.RSV_BANK_STAT_RMW_WRITES := Nat.mod_eq_of_lt (bitsOf_lt _ _ _)
  have hother (hold : Nat) : (s.takeBank d x age hold).fld (Reg.RSV_BANK_STAT d) Fld.RSV_BANK_STAT_RMW_WRITES =
      s.fld (Reg.RSV_BANK_STAT d) Fld.RSV_BANK_STAT_RMW_WRITES := State.fld_setFld_other _ _ _ _ _ (by decide) (by decide)
  unfold t part
  rw [State.bankWrite_of_aligned s d halign]
  clear t part
  by_cases hnone : be % 256 = 0
  · rw [if_pos hnone, hnone]
    refine ⟨fun h => absurd rfl h, ?_⟩
    rw [bne_self_eq_false, Bool.false_and, b2n_false, Nat.add_zero, hmod]
  · rw [if_neg hnone]
    by_cases hall : be % 256 = 255
    · rw [if_neg (not_not.mpr hall), hall, bne_self_eq_false, Bool.and_false, if_neg Bool.false_ne_true, hother, b2n_false, Nat.add_zero, hmod]
      exact ⟨fun _ => State.banks_takeBank s d x age 4, rfl⟩
    · have hpart : (be % 256 != 0 && be % 256 != 255) = true := by
        rw [Bool.and_eq_true, bne_iff_ne, bne_iff_ne]
        exact ⟨hnone, hall⟩
      rw [if_pos hall, hpart, if_pos rfl, State.countWrap_banks, State.countWrap, State.fld_setFld_self _ _ _ _ (by decide), hother, b2n_true]
      exact ⟨fun _ => State.banks_takeBank s d x age 8, rfl⟩

-- Accesses of one line (R99) ----------------------------------------------------------------------------------------------

section
variable {s : State} {q : RsvRequest}

/-- A single request that stays within a line is one access, which its answer follows (R99). -/
theorem State.exec_reservoirAccess (hlive : s.live = true) (hline : (if q.write then q.data.length else q.len) ≤ 256 - q.addr % 256) :
    exec (.reservoirAccess [q] []) s =
      .next (s.keep scopeReservoir ((s.accessLine q).2.2.emit (.bus q.who q.addr (s.accessLine q).1 (s.accessLine q).2.1))) := by
  have hsplit : splitRequest (max q.len q.data.length / 256 + 2) q = [q] := if_pos hline
  have hserve : s.reservoirAccess [q] [] = (s.accessLine q).2.2.emit (.bus q.who q.addr (s.accessLine q).1 (s.accessLine q).2.1) := by
    show s.serveRequest q = _
    unfold State.serveRequest
    rw [hsplit]
    rfl
  rw [← hserve]
  exact exec_act (f := fun s => s.reservoirAccess [q] []) rfl hlive

theorem State.accessLine_read {d x : Nat} {reg : Option (Nat × Nat)} (hread : q.write = false) (hplace : s.decode q.addr = .rsv d x reg)
    (hmarks : ∀ k ∈ wordKeys (rsvBase + d * 2 ^ 32 + x) q.len, tblFind k s.marks = none) :
    s.accessLine q = (0, memBytes s.mem (rsvBase + d * 2 ^ 32 + x) q.len, s.bankRead (rsvBase + d * 2 ^ 32 + x) q.len q.age) := by
  rw [State.accessLine, hplace, hread]
  exact State.fetch_of_unmarked 0 q.age hmarks

/-- R99, R33, R100. -/
theorem reservoirReadReturnsTheBytes : Claims.ReservoirReadReturnsTheBytes := by
  intro s q d x reg hlive hread hplace hd hx hpos hx256 hline hmarks
  have hbank := State.banks_takeBank s d x q.age 4
  obtain ⟨regs, banks, heq, -⟩ := (State.BankOnly.refl s).takeBank hd (x := x) (age := q.age) (hold := 4)
  rw [State.exec_reservoirAccess hlive (by rw [hread, if_neg (by decide)]; omega), State.accessLine_read hread hplace hmarks,
    State.bankRead_of_line s hd hx hpos (by omega)]
  rw [heq] at hbank ⊢
  exact ⟨_, rfl, rfl, rfl, rfl, hbank⟩

theorem State.accessLine_write {d x : Nat} (hwrite : q.write = true) (hpoison : q.poison = false) (hplace : s.decode q.addr = .rsv d x none)
    (halign : x % 8 = 0) (hlen : q.data.length = 8) :
    s.accessLine q =
      (0, [], (s.writeWord (rsvBase + d * 2 ^ 32 + x) (q.be % 256) q.data false).bankWrite d x 8 q.be q.age) := by
  have halign' : (rsvBase + d * 2 ^ 32 + x) % 8 = 0 := by unfold rsvBase; omega
  rw [State.accessLine, hplace, hwrite, hpoison]
  dsimp only
  rw [State.rsvStore, State.rsvWrite, hlen, if_pos rfl]
  dsimp only
  rw [State.writeStoreBe_word (by omega) halign' hlen]
  rfl

/-- R97, R99, R100, R101. -/
theorem reservoirWriteStoresTheEnabledBytes : Claims.ReservoirWriteStoresTheEnabledBytes := by
  intro s q d x hlive hwrite hpoison hplace hd hx halign haddr hlen hsize hmark part
  obtain ⟨mem, marks, hstored, hin, hout⟩ :=
    State.writeWord_of_unmarked (be := q.be % 256) (show rsvBase ≤ rsvBase + d * 2 ^ 32 + x by omega) hlen hmark
  rw [State.exec_reservoirAccess hlive (by rw [hwrite, if_pos rfl]; omega), State.accessLine_write hwrite hpoison hplace halign hlen, hstored]
  obtain ⟨hbank, hcount⟩ := State.bankWrite_counts { s with mem := mem, marks := marks } d halign q.be q.age
  obtain ⟨regs, banks, heq, -⟩ := (State.BankOnly.refl { s with mem := mem, marks := marks }).bankWrite hd (x := x) (n := 8) (be := q.be) (age := q.age)
  rw [heq] at hbank hcount ⊢
  refine ⟨_, rfl, rfl, rfl, fun i hi => (hin i hi).trans ?_, hout, hbank, hcount⟩
  rw [show (256 : Nat) = 2 ^ 8 from rfl, Nat.testBit_mod_two_pow, decide_eq_true hi, Bool.true_and]

end

/-- Settles O13: an access within one line is one read or write of storage and the bank it takes, and a bad flit either leaves its bucket
below the level at which the link is lasting or marks the link. -/
theorem reservoirAccesses : Obligations.ReservoirAccesses :=
  ⟨reservoirReadReturnsTheBytes, reservoirWriteStoresTheEnabledBytes, badFlitIsReplayedAndCounted⟩

end Sys2Proof.Machine
end

section
namespace Sys2Proof.Machine

-- What starting a routing step reaches ------------------------------------------------------------------------------------

/-- The number of the next routing step has been taken (R142). -/
def State.numbered (s : State) : State := { s with hg := { s.hg with nextStep := s.hg.nextStep + 1 } }

/-- From `s` to `t` nothing has changed but what a Sluice command of any requester can reach: the parts of `scopePort`. -/
def State.PortOnly (s t : State) : Prop := ∃ u cores, s.StoreOnly u ∧ t = { u with cores := cores }

namespace State.PortOnly
open State.Canonical (of_def readTokenEntries_succ readTokenRows_cons)
variable {s₀ s : State}

theorem refl (s : State) : s.PortOnly s := ⟨s, s.cores, .refl s, rfl⟩

theorem change (h : s₀.PortOnly s) {regs mem marks ecc rsv banks chans hg ports cores cls tl flt out free}
    (hnext : hg.nextStep = s.hg.nextStep) :
    s₀.PortOnly (State.mk s.fuses s.clock s.tb s.lock s.present regs mem marks ecc rsv banks chans hg s.fab ports cores cls s.col tl
      s.sw s.boot s.pwr s.mg flt out free s.pending) := by
  obtain ⟨_, _, h, rfl⟩ := h
  exact ⟨_, _, h.change hnext (regs := regs) (mem := mem) (marks := marks) (ecc := ecc) (rsv := rsv) (banks := banks) (chans := chans) (hg := hg)
    (ports := ports) (cls := cls) (tl := tl) (flt := flt) (out := out) (free := free), rfl⟩

theorem col (h : s₀.PortOnly s) : s.col = s₀.col := by
  obtain ⟨_, _, ⟨_, _, _, _, _, _, _, _, _, _, _, _, _, _, -, rfl⟩, rfl⟩ := h
  rfl

theorem nextStep (h : s₀.PortOnly s) : s.hg.nextStep = s₀.hg.nextStep := by
  obtain ⟨_, _, ⟨_, _, _, _, _, _, _, _, _, _, _, _, _, _, hn, rfl⟩, rfl⟩ := h
  exact hn

theorem ofStore (h : s₀.PortOnly s) {t : State} (ht : s.StoreOnly t) : s₀.PortOnly t := by
  obtain ⟨_, _, _, _, _, _, _, _, _, _, _, _, _, _, hn, rfl⟩ := ht
  exact h.change hn

/-- The state an answer `r` carries. The projection stays a name of its own here, as in `State.Canonical.Yields`. -/
def Yields {α : Type} (s₀ : State) (out : α → State) (r : α) : Prop := s₀.PortOnly (out r)

section
variable {α β γ δ : Type} {c : Prop} [Decidable c] {t : State}

theorem ite {a b : State} (ha : s₀.PortOnly a) (hb : s₀.PortOnly b) : s₀.PortOnly (if c then a else b) := by
  split
  · exact ha
  · exact hb

theorem iteSnd {a b : α × State} (ha : s₀.PortOnly a.2) (hb : s₀.PortOnly b.2) : s₀.PortOnly (if c then a else b).2 := by
  split
  · exact ha
  · exact hb

theorem iteThird {a b : α × β × State} (ha : s₀.PortOnly a.2.2) (hb : s₀.PortOnly b.2.2) :
    s₀.PortOnly (if c then a else b).2.2 := by
  split
  · exact ha
  · exact hb

theorem iteFourth {a b : α × β × γ × State} (ha : s₀.PortOnly a.2.2.2) (hb : s₀.PortOnly b.2.2.2) :
    s₀.PortOnly (if c then a else b).2.2.2 := by
  split
  · exact ha
  · exact hb

theorem of_snd {p : α × State} {a : α} (h : s₀.PortOnly p.2) (e : p = (a, t)) : s₀.PortOnly t := by
  rw [e] at h
  exact h

theorem of_third {p : α × β × State} {a : α} {b : β} (h : s₀.PortOnly p.2.2) (e : p = (a, b, t)) : s₀.PortOnly t := by
  rw [e] at h
  exact h

theorem of_fourth {p : α × β × γ × State} {a : α} {b : β} {d : γ} (h : s₀.PortOnly p.2.2.2) (e : p = (a, b, d, t)) : s₀.PortOnly t := by
  rw [e] at h
  exact h

theorem foldl {f : State → α → State} {l : List α} (h : s₀.PortOnly s) (hf : ∀ s x, s₀.PortOnly s → s₀.PortOnly (f s x)) :
    s₀.PortOnly (l.foldl f s) :=
  List.foldlRecOn l f h fun s h x _ => hf s x h

theorem foldlSnd {f : β × State → α → β × State} {l : List α} {r : β × State} (h : s₀.PortOnly r.2)
    (hf : ∀ r x, s₀.PortOnly r.2 → s₀.PortOnly (f r x).2) : s₀.PortOnly (l.foldl f r).2 :=
  List.foldlRecOn (motive := fun r => s₀.PortOnly r.2) l f h fun r h x _ => hf r x h

theorem foldlYields {out : β → State} {f : β → α → β} {l : List α} {r : β} (h : Yields s₀ out r)
    (hf : ∀ r x, s₀.PortOnly (out r) → Yields s₀ out (f r x)) : Yields s₀ out (l.foldl f r) :=
  List.foldlRecOn l f h fun r h x _ => hf r x h

end

theorem countWrap {a f n} (h : s₀.PortOnly s) : s₀.PortOnly (s.countWrap a f n) := h.change rfl

theorem fault {unit code addr detail} (h : s₀.PortOnly s) : s₀.PortOnly (s.fault unit code addr detail) := h.change rfl

theorem unmapped {who a k} (h : s₀.PortOnly s) : s₀.PortOnly (s.unmapped who a k) := h.fault

theorem uncorrectableDetail {structure_ source} (h : s₀.PortOnly s) : s₀.PortOnly (s.uncorrectableDetail structure_ source).2 :=
  h.ofStore (State.StoreOnly.refl s).uncorrectableDetail

theorem checkWord {k source named} (h : s₀.PortOnly s) : s₀.PortOnly (s.checkWord k source named).2 :=
  h.ofStore (State.StoreOnly.refl s).checkWord

theorem writeStoreBe {fuel c be data poison} (h : s₀.PortOnly s) : s₀.PortOnly (s.writeStoreBe fuel c be data poison) :=
  h.ofStore (State.StoreOnly.refl s).writeStoreBe

theorem fetch {c n source age} (h : s₀.PortOnly s) : s₀.PortOnly (s.fetch c n source age).2.2 :=
  h.ofStore (State.StoreOnly.refl s).fetch

theorem rsvStore {age who node sluice seen die x region be data poison} (h : s₀.PortOnly s) :
    s₀.PortOnly (s.rsvStore age who node sluice seen die x region be data poison).2 :=
  h.ofStore (State.StoreOnly.refl s).rsvStore

theorem sluiceApply {q} (h : s₀.PortOnly s) : s₀.PortOnly (s.sluiceApply q).2.2 := h.ofStore (State.StoreOnly.refl s).sluiceApply

theorem chargeHbm {who n} (h : s₀.PortOnly s) : s₀.PortOnly (s.chargeHbm who n) := by
  dsimp only [State.chargeHbm]
  split
  · exact ite h.countWrap h
  · exact h

theorem writeLocalBe : ∀ {fuel who node a be data poison} {s : State}, s₀.PortOnly s →
    s₀.PortOnly (s.writeLocalBe fuel who node a be data poison).2
  | 0, _, _, _, _, _, _, _, h => h
  | _ + 1, _, _, _, _, _, _, _, h => by
    unfold State.writeLocalBe
    refine iteSnd h (writeLocalBe ?_)
    split
    · exact h.chargeHbm.writeStoreBe
    · exact h.writeStoreBe
    · exact h.rsvStore
    · exact h.unmapped

theorem writeLocal {who a data poison} (h : s₀.PortOnly s) : s₀.PortOnly (s.writeLocal who a data poison).2 := h.writeLocalBe

theorem readLocalAux : ∀ {fuel who source a n} {s : State}, s₀.PortOnly s → s₀.PortOnly (s.readLocalAux fuel who source a n).2.2
  | 0, _, _, _, _, _, h => h
  | _ + 1, _, _, _, _, _, h => by
    unfold State.readLocalAux
    refine iteThird h (readLocalAux ?_)
    split
    · exact fetch (ite h.chargeHbm h)
    · exact h.unmapped

theorem readLocal {who a n} (h : s₀.PortOnly s) : s₀.PortOnly (s.readLocal who a n).2.2 := h.readLocalAux

theorem sealOnDie {who region layer die} (h : s₀.PortOnly s) : s₀.PortOnly (s.sealOnDie who region layer die) := by
  have hmark {s : State} (h : s₀.PortOnly s) : s₀.PortOnly (s.sealMark region layer) :=
    ite (ite (change (foldl h fun _ _ h => h.change rfl) rfl) (foldl h fun _ _ h => h.change rfl)) h
  unfold State.sealOnDie
  split
  · exact h
  · exact ite h.fault (ite h.fault (ite h.fault (ite (hmark (h.change rfl)) (h.change rfl))))

theorem enginesSeal {region layer} (h : s₀.PortOnly s) : s₀.PortOnly (s.enginesSeal region layer) :=
  foldl h fun _ _ h => foldl h fun _ _ h => h.sealOnDie

-- The Sluice ------------------------------------------------------------------------------------------------------------

theorem onSlcPort {who f} (h : s₀.PortOnly s) : s₀.PortOnly (s.onSlcPort who f) := by
  unfold State.onSlcPort
  split
  · exact h.change rfl
  · exact h

theorem sluiceAnswer {a item} (h : s₀.PortOnly s) : s₀.PortOnly (s.sluiceAnswer a item) := by
  have hanswer {s : State} (h : s₀.PortOnly s) : s₀.PortOnly (s.emit (.sluice a.who a.tag a.data)) := h.change rfl
  dsimp only [State.sluiceAnswer]
  split
  · exact foldl (hanswer h).onSlcPort fun _ _ h => h.change rfl
  · exact (hanswer h).onSlcPort

theorem sluiceTake {q} (h : s₀.PortOnly s) : s₀.PortOnly (s.sluiceTake q) :=
  ite (h.change rfl) (ite (h.sluiceApply.change rfl) h.sluiceApply.sluiceAnswer)

theorem sluiceSend {q} (h : s₀.PortOnly s) : s₀.PortOnly (s.sluiceSend q) := ite (h.onSlcPort.change rfl) h.onSlcPort.sluiceTake

theorem slcPortNext : ∀ {fuel who} {s : State}, s₀.PortOnly s → s₀.PortOnly (s.slcPortNext who fuel)
  | 0, _, _, h => h
  | _ + 1, _, _, h => by
    unfold State.slcPortNext
    split
    · exact ite h (slcPortNext (sluiceSend (h.change rfl)))
    · exact h

theorem sluiceRelease : ∀ {fuel c} {s : State}, s₀.PortOnly s → s₀.PortOnly (State.sluiceRelease c fuel s)
  | 0, _, _, h => h
  | _ + 1, _, _, h => by
    unfold State.sluiceRelease
    dsimp only
    split
    · exact h
    · exact ite h (sluiceRelease (sluiceTake (h.change rfl)))

theorem storageDone {c} (h : s₀.PortOnly s) : s₀.PortOnly (s.storageDone c) := by
  dsimp only [State.storageDone]
  split
  · exact h
  · exact foldl (sluiceRelease (sluiceAnswer (h.change rfl))) fun _ _ h => h.slcPortNext

theorem sluiceSettle : ∀ {fuel c} {s : State}, s₀.PortOnly s → s₀.PortOnly (State.sluiceSettle c fuel s)
  | 0, _, _, h => h
  | _ + 1, _, _, h => ite h.storageDone.sluiceSettle h

theorem pushNow {who c pktEnd data} (h : s₀.PortOnly s) : s₀.PortOnly (s.pushNow who c pktEnd data).2 := h.sluiceSettle.sluiceApply

-- The Headgate ----------------------------------------------------------------------------------------------------------

theorem failStep {l p layer} (h : s₀.PortOnly s) : s₀.PortOnly (s.failStep l p layer) :=
  change (enginesSeal (countWrap (foldl h fun _ _ h => h.writeLocal))) rfl

theorem layerInvalid {layer kind} (h : s₀.PortOnly s) : s₀.PortOnly (s.layerInvalid layer kind) := h.fault

theorem nameBad {st a} (h : s₀.PortOnly s) : s₀.PortOnly (s.nameBad st a) := by
  dsimp only [State.nameBad]
  with_reducible exact ite h.uncorrectableDetail.fault h

theorem reportTiles {l} (h : s₀.PortOnly s) : s₀.PortOnly (s.reportTiles l) := foldl h fun _ _ h => h.readLocal

theorem readWords {n who a} (h : s₀.PortOnly s) : s₀.PortOnly (s.readWords who n a).2.2.2 := by
  induction n generalizing s a with
  | zero => exact h
  | succ n ih =>
    unfold State.readWords
    with_reducible exact iteFourth (ih h.readLocal) h.readLocal

theorem readTokenEntries {n region t} (h : s₀.PortOnly s) : s₀.PortOnly (s.readTokenEntries region n t).2.2.2 := by
  induction n generalizing s t with
  | zero => exact h
  | succ n ih =>
    rw [readTokenEntries_succ]
    split
    have ht := h.readWords.of_fourth ‹_›
    refine iteFourth ?_ ht
    split
    exact (ih ht).of_fourth ‹_›

theorem readTokenRows {es region hidOff stride rowBytes keySel t} (h : s₀.PortOnly s) :
    s₀.PortOnly (s.readTokenRows region hidOff stride rowBytes keySel es t).2 := by
  induction es generalizing s t with
  | nil => exact h
  | cons e es ih =>
    rw [readTokenRows_cons]
    split
    next e =>
      have ht := h.readWords.of_fourth e
      extract_lets -underBinder t tok
      have ht : s₀.PortOnly t := ite ht.fault ht
      split
      next e => exact (ih ht).of_snd e

theorem readVecEntry {a} (h : s₀.PortOnly s) : s₀.PortOnly (s.readVecEntry a).2.2 := by
  dsimp only [State.readVecEntry]
  split
  · with_reducible exact iteThird h.chargeHbm.checkWord.nameBad h.readLocal.nameBad
  · with_reducible exact h.readLocal

theorem readVector {l} (h : s₀.PortOnly s) : s₀.PortOnly (s.readVector l).2 := iteSnd (foldlSnd h fun _ _ h => h.readVecEntry) h

theorem takeBoard {l base} (h : s₀.PortOnly s) : s₀.PortOnly (s.takeBoard l base).2 := by
  refine of_def (f := @State.takeBoard) (fun f => Yields s₀ (·.2) (f s l base)) (by delta State.takeBoard; exact rfl) ?_
  refine foldlYields h fun r x h => ?_
  extract_lets -underBinder
  split
  exact h.readLocal.of_third ‹_›

/-- A routing step that starts takes its number (R142), and from there the frame is kept. -/
theorem startStep (s : State) (p region layer at_ time : Nat) : s.numbered.PortOnly (s.startStep p region layer at_ time) := by
  refine of_def (f := @State.startStep) (fun f => s.numbered.PortOnly (f s p region layer at_ time)) (by delta State.startStep; exact rfl) ?_
  refine ite (refl s.numbered).layerInvalid.failStep ?_
  split
  next e =>
    have ht := (refl s.numbered).readWords.of_fourth e
    refine ite ht.nameBad.layerInvalid.failStep (ite ht.nameBad.layerInvalid.failStep ?_)
    split
    next e =>
      have ht := ht.nameBad.readTokenEntries.of_fourth e
      refine ite ht.nameBad.layerInvalid.failStep ?_
      split
      next e =>
        have ht := ht.readTokenRows.of_snd e
        extract_lets -underBinder g t2
        have hs : s.numbered.PortOnly t2 := ite ht ht.reportTiles
        split
        next e =>
          have ht := hs.readVector.of_snd e
          split
          next e =>
            exact change (ht.takeBoard.of_snd e) rfl

theorem stepSummary {p} (h : s₀.PortOnly s) : s₀.PortOnly (s.stepSummary p) := by
  dsimp only [State.stepSummary]
  with_reducible exact ite h (ite h.pushNow h.pushNow.countWrap)

theorem setStep {p} (h : s₀.PortOnly s) : s₀.PortOnly (s.setStep p) := h.change rfl

theorem endSelection {p} (h : s₀.PortOnly s) : s₀.PortOnly (s.endSelection p) := by
  have hvector : s₀.PortOnly (s.writeLoadVector p) := h.writeLocal
  dsimp only [State.endSelection]
  with_reducible exact hvector.stepSummary.setStep

theorem startGate (s : State) (p region layer at_ time : Nat) : s.numbered.PortOnly (s.startGate p region layer at_ time) := by
  have h := startStep s p region layer at_ time
  dsimp only [State.startGate]
  split
  · exact h
  · exact ite h.endSelection (ite (h.change rfl) h)

end State.PortOnly

end Sys2Proof.Machine
end

section
namespace Sys2Proof.Machine

-- The seal signal (R55, R59, R375) ----------------------------------------------------------------------------------------

theorem tblFind_filter_none {α : Type} {k : Nat} {t : List (Nat × α)} (keep : Nat × α → Bool) (h : tblFind k t = none) :
    tblFind k (t.filter keep) = none := by
  induction t with
  | nil => rfl
  | cons e t ih =>
    rw [tblFind_cons] at h
    split at h
    · exact nomatch h
    next hne =>
      rw [List.filter_cons]
      split
      · rw [tblFind_cons, if_neg hne, ih h]
      · exact ih h

/-- The steps of the parity whose turn it is are all past their selection. -/
theorem HgStep.any_selecting_eq_false {steps : List HgStep} {p : Nat} :
    (steps.any fun q => q.parity == p && (q.stage = .selecting || q.stage = .selected)) = false ↔
      ∀ q ∈ steps, q.parity = p → q.stage ≠ .selecting ∧ q.stage ≠ .selected := by
  rw [List.any_eq_false]
  refine forall₂_congr fun q _ => ?_
  rw [Bool.and_eq_true, beq_iff_eq, Bool.or_eq_true, decide_eq_true_eq, decide_eq_true_eq, not_and, not_or]

section
variable {s : State} {fuel : Nat}

/-- Where the gate region whose turn it is is not sealed or has no signal, nothing starts. -/
theorem State.startGates_of_none (h : tblFind (s.gateRegion (s.hg.nextStep % 2)) s.col.seals = none) : State.startGates fuel s = s := by
  cases fuel with
  | zero => rfl
  | succ fuel =>
    unfold State.startGates
    dsimp only
    rw [h]
    split
    next hnone => exact nomatch hnone
    next => rfl

/-- What holds the Headgate, a failure or a step in its selection stops every start. -/
theorem State.startGates_of_held
    (h : (s.hgHeld || s.hg.faulted || s.hg.steps.any fun q => q.parity == s.hg.nextStep % 2 && (q.stage = .selecting || q.stage = .selected)) =
      true) : State.startGates fuel s = s := by
  cases fuel with
  | zero => rfl
  | succ fuel =>
    unfold State.startGates
    dsimp only
    split
    · exact if_pos h
    · rfl

theorem State.startGates_of_ready {layer at_ time : Nat} (hsealed : s.sealedLayer (s.gateRegion (s.hg.nextStep % 2)) = some layer)
    (hcame : tblFind (s.gateRegion (s.hg.nextStep % 2)) s.col.seals = some (at_, time))
    (h : (s.hgHeld || s.hg.faulted || s.hg.steps.any fun q => q.parity == s.hg.nextStep % 2 && (q.stage = .selecting || q.stage = .selected)) =
      false) :
    State.startGates (fuel + 1) s =
      State.startGates fuel (State.startGate { s with col := { s.col with seals := tblErase (s.gateRegion (s.hg.nextStep % 2)) s.col.seals } }
        (s.hg.nextStep % 2) (s.gateRegion (s.hg.nextStep % 2)) layer at_ time) := by
  conv_lhs => unfold State.startGates
  dsimp only
  rw [hsealed, hcame]
  exact if_neg (Bool.eq_false_iff.mp h)

end

/-- Starting what can start takes no number back and forgets no more than signals. -/
theorem State.startGates_later (fuel : Nat) : ∀ s : State, s.hg.nextStep ≤ (State.startGates fuel s).hg.nextStep ∧
    ∀ k, tblFind k s.col.seals = none → tblFind k (State.startGates fuel s).col.seals = none := by
  induction fuel with
  | zero => exact fun s => ⟨Nat.le_refl _, fun _ h => h⟩
  | succ fuel ih =>
    intro s
    unfold State.startGates
    dsimp only
    split
    next layer at_ time _ _ =>
      split
      · exact ⟨Nat.le_refl _, fun _ h => h⟩
      · let u : State := { s with col := { s.col with seals := tblErase (s.gateRegion (s.hg.nextStep % 2)) s.col.seals } }
        have hstart := State.PortOnly.startGate u (s.hg.nextStep % 2) (s.gateRegion (s.hg.nextStep % 2)) layer at_ time
        obtain ⟨hle, hkept⟩ := ih (u.startGate (s.hg.nextStep % 2) (s.gateRegion (s.hg.nextStep % 2)) layer at_ time)
        rw [hstart.nextStep] at hle
        rw [hstart.col] at hkept
        exact ⟨(Nat.le_succ _).trans hle, fun k hk => hkept k (tblFind_tblErase_of_none hk _)⟩
    · exact ⟨Nat.le_refl _, fun _ h => h⟩

/-- A step that starts on a region takes the next number and uses up the region's signal (R375). -/
theorem State.started_signal (s : State) (region p layer : Nat) (came : Nat × Nat) :
    let t := State.startGates 1 (State.startGate { s with col := { s.col with seals := tblErase region s.col.seals } } p region layer came.1
      came.2)
    s.hg.nextStep < t.hg.nextStep ∧ tblFind region t.col.seals = none := by
  intro t
  have hstart := State.PortOnly.startGate { s with col := { s.col with seals := tblErase region s.col.seals } } p region layer came.1 came.2
  obtain ⟨hle, hkept⟩ := State.startGates_later 1 (State.startGate { s with col := { s.col with seals := tblErase region s.col.seals } } p
    region layer came.1 came.2)
  rw [hstart.nextStep] at hle
  rw [hstart.col] at hkept
  exact ⟨hle, hkept region (tblFind_tblErase_self _ _)⟩

/-- The signal of a region, with the time at which it first came. -/
def State.signalCame (s : State) (region : Nat) : Nat × Nat := tblGetD region (s.clock.cycles, s.now) s.col.seals

/-- The signals noted once that of a region has come: those of the sealed regions. -/
def State.signals (s : State) (region : Nat) : List (Nat × Nat × Nat) :=
  (tblSet region (s.signalCame region) s.col.seals).filter fun e => (s.sealedLayer e.1).isSome

/-- The state in which a gate region's signal has been sent and noted. -/
def State.signalled (s : State) (region layer : Nat) : State :=
  let t := s.emit (.sealSignal region layer)
  { t with col := { t.col with seals := s.signals region } }

section
variable {s : State} {region layer : Nat}

theorem State.sealSignal_of_gate (hsealed : s.sealedLayer region = some layer) (hgate : region = s.gateRegion 0 ∨ region = s.gateRegion 1) :
    s.sealSignal region = State.startGates 2 (s.signalled region layer) := by
  have hseals : (tblSet region (s.signalCame region) s.col.seals).isEmpty = false := by
    cases h : tblSet region (s.signalCame region) s.col.seals with
    | nil =>
      have hfound := tblFind_tblSet_self region (s.signalCame region) s.col.seals
      rw [h] at hfound
      exact nomatch hfound
    | cons => rfl
  have hother : (region != s.gateRegion 0 && region != s.gateRegion 1) = false := by
    obtain h | h := hgate
    · rw [← h, bne_self_eq_false, Bool.false_and]
    · rw [← h, bne_self_eq_false, Bool.and_false]
  rw [State.sealSignal, hsealed]
  refine (if_neg (Bool.eq_false_iff.mp hother)).trans ?_
  unfold State.startHeld
  exact if_neg (Bool.eq_false_iff.mp hseals)

theorem State.sealSignal_of_other (hsealed : s.sealedLayer region = some layer) (hgate : ¬(region = s.gateRegion 0 ∨ region = s.gateRegion 1)) :
    s.sealSignal region = s.emit (.sealSignal region layer) := by
  have hother : (region != s.gateRegion 0 && region != s.gateRegion 1) = true := by
    rw [Bool.and_eq_true, bne_iff_ne, bne_iff_ne]
    exact not_or.mp hgate
  rw [State.sealSignal, hsealed]
  exact if_pos hother

theorem State.signalled_came (hsealed : s.sealedLayer region = some layer) :
    tblFind region (s.signalled region layer).col.seals = some (s.signalCame region) := by
  refine (tblFind_filter_of (keep := fun k => (s.sealedLayer k).isSome) ?_ _).trans (tblFind_tblSet_self _ _ _)
  rw [hsealed]
  rfl

end

/-- R55, R59, R375. -/
theorem sealSignalReachesTheEngines : Claims.SealSignalReachesTheEngines := by
  intro s region hlive gate came ready
  have hexec : exec (.sealSignal region) s = .next (s.keep (scopePort ++ [.col]) (s.sealSignal region)) :=
    exec_act (f := fun s => s.sealSignal region) rfl hlive
  refine ⟨fun hnone => ?_, fun layer hsealed => ⟨fun hgate => ⟨_, hexec, ?_⟩, fun hgate hheld => ⟨_, hexec, ?_⟩,
    fun hgate hheld hready => ⟨_, hexec, ?_⟩, fun hgate hheld hready hseals => ⟨_, hexec, ?_⟩⟩⟩
  · rw [hexec, show s.sealSignal region = s by rw [State.sealSignal, hnone], State.keep_self]
  · rw [State.sealSignal_of_other hsealed hgate]
    exact ⟨rfl, rfl, rfl⟩
  · have hstop : State.startGates 2 (s.signalled region layer) = s.signalled region layer := by
      refine State.startGates_of_held ?_
      rw [show (s.signalled region layer).hgHeld = true from hheld, Bool.true_or, Bool.true_or]
    rw [State.sealSignal_of_gate hsealed hgate, hstop]
    exact ⟨rfl, rfl, State.signalled_came hsealed⟩
  · obtain ⟨hregion, hfaulted, hsteps⟩ := hready
    have hcame : tblFind region (s.signalled region layer).col.seals = some (s.signalCame region) := State.signalled_came hsealed
    have hfree : ((s.signalled region layer).hgHeld || (s.signalled region layer).hg.faulted || (s.signalled region layer).hg.steps.any fun q =>
        q.parity == (s.signalled region layer).hg.nextStep % 2 && (q.stage = .selecting || q.stage = .selected)) = false := by
      rw [show (s.signalled region layer).hgHeld = false from hheld, show (s.signalled region layer).hg.faulted = false from hfaulted,
        Bool.false_or, Bool.false_or, HgStep.any_selecting_eq_false]
      exact hsteps
    rw [State.sealSignal_of_gate hsealed hgate]
    have hturn : (s.signalled region layer).gateRegion ((s.signalled region layer).hg.nextStep % 2) = region := hregion.symm
    rw [State.startGates_of_ready (layer := layer) (by rw [hturn]; exact hsealed) (by rw [hturn]; exact hcame) hfree, hturn]
    exact State.started_signal (s.signalled region layer) region _ _ _
  · rw [State.sealSignal_of_gate hsealed hgate]
    have hstop : State.startGates 2 (s.signalled region layer) = s.signalled region layer := by
      by_cases hturn : region = s.gateRegion (s.hg.nextStep % 2)
      · refine State.startGates_of_held ?_
        by_contra hfree
        rw [Bool.not_eq_true, Bool.or_eq_false_iff, Bool.or_eq_false_iff, HgStep.any_selecting_eq_false] at hfree
        obtain ⟨⟨-, hfaulted⟩, hsteps⟩ := hfree
        exact hready ⟨hturn, hfaulted, hsteps⟩
      · refine State.startGates_of_none (tblFind_filter_none (t := tblSet region (s.signalCame region) s.col.seals) _ ?_)
        exact (tblFind_tblSet_ne (Ne.symm hturn) _ _).trans (by rw [hseals, tblFind_nil])
    rw [hstop]
    exact ⟨rfl, rfl, State.signalled_came hsealed⟩

/-- Settles O11: a seal counts or is late by the tests of `State.sealOnDie`, and a gate region's signal starts the step whose turn it is,
since starting a step keeps the frame of `State.PortOnly`. -/
theorem sealsAreCountedAndReleased : Obligations.SealsAreCountedAndReleased :=
  ⟨sealIsCounted, lateSealIsDiscarded, releaseUnsealsTheRegion, sealSignalReachesTheEngines⟩

end Sys2Proof.Machine
end

section
namespace Sys2Proof.Machine

-- A command on its way to its channel (R117, R119, R255) --------------------------------------------------------------------

/-- The command as the table gives it: only a PUSH carries an end mark, a fence and data (R114). -/
def plainCmd (q : SluiceCmd) : SluiceCmd :=
  match q.op with
  | .push => q
  | op => ⟨q.who, op, q.channel, false, false, []⟩

@[simp] theorem plainCmd_who (q : SluiceCmd) : (plainCmd q).who = q.who := by
  unfold plainCmd
  split <;> rfl

@[simp] theorem plainCmd_op (q : SluiceCmd) : (plainCmd q).op = q.op := by
  unfold plainCmd
  split
  · rfl
  · rfl

@[simp] theorem plainCmd_channel (q : SluiceCmd) : (plainCmd q).channel = q.channel := by
  unfold plainCmd
  split <;> rfl

theorem plainCmd_eq {q : SluiceCmd} (h : q.op ≠ .push → q.fence = false ∧ q.pktEnd = false ∧ q.data = []) : (plainCmd q) = q := by
  obtain ⟨who, op, channel, pktEnd, fence, data⟩ := q
  cases op with
  | push => rfl
  | pop | peek | drop | count =>
    obtain ⟨hfence, hend, hdata⟩ := h nofun
    dsimp only at hfence hend hdata
    subst hfence hend hdata
    rfl

theorem State.exec_sluiceInstr {s : State} (hlive : s.live = true) (q : SluiceCmd) :
    exec (sluiceInstr q) s = .next (s.keep scopePort (s.sluiceCommand (plainCmd q) ⟨0, 0, 0, 0⟩ [])) := by
  obtain ⟨who, op, channel, pktEnd, fence, data⟩ := q
  cases op with
  | push | pop | peek | drop | count => exact exec_act (f := fun s => s.sluiceCommand _ ⟨0, 0, 0, 0⟩ []) rfl hlive

-- Ports of cores (R255) ---------------------------------------------------------------------------------------------------

@[simp] theorem State.core_setCore_self (s : State) (i : Nat) (c : CoreState) : (s.setCore i c).core i = c := tblGetD_tblPut_self _ _ _ _

theorem State.core_setCore_ne {i j : Nat} (h : j ≠ i) (s : State) (c : CoreState) : (s.setCore i c).core j = s.core j :=
  tblGetD_tblPut_ne h _ _ _ _

theorem CoreState.writeX_slcWait (c : CoreState) (r v : Nat) : (c.writeX r v).slcWait = c.slcWait := by
  unfold CoreState.writeX
  split <;> rfl

theorem CoreState.advance_slcWait (c : CoreState) (n : Nat) : (c.advance n).slcWait = c.slcWait := rfl

theorem CoreState.loadsReturn_slcWait (c : CoreState) (val : Nat → Option Nat) : (c.loadsReturn val).slcWait = c.slcWait := by
  unfold CoreState.loadsReturn
  refine List.foldlRecOn (motive := fun d : CoreState => d.slcWait = c.slcWait) _ _ rfl fun d hd e _ => ?_
  split
  · rw [CoreState.advance_slcWait, CoreState.writeX_slcWait, hd]
  · exact hd

/-- From `s` to `t` the request words that wait at the ports of the cores are the same. -/
def State.SameWaits (s t : State) : Prop := ∀ i, (t.core i).slcWait = (s.core i).slcWait

theorem State.SameWaits.queue {s t : State} (h : s.SameWaits t) (who : Requester) : t.slcPortQueue who = s.slcPortQueue who := by
  unfold State.slcPortQueue
  split
  · exact h _
  · rfl

namespace State.SameWaits
variable {s₀ s : State}

theorem refl (s : State) : s.SameWaits s := fun _ => rfl

theorem of_cores {t : State} (h : s₀.SameWaits s) (hcores : t.cores = s.cores) : s₀.SameWaits t := by
  intro i
  rw [State.core, hcores]
  exact h i

theorem onCore {i f} (h : s₀.SameWaits s) (hf : ∀ c : CoreState, (f c).slcWait = c.slcWait) : s₀.SameWaits (s.onCore i f) := by
  intro j
  by_cases hj : j = i
  · subst hj
    rw [State.onCore, State.core_setCore_self, hf, h j]
  · rw [State.onCore, State.core_setCore_ne hj, h j]

theorem onSlcPort {who f} (h : s₀.SameWaits s) (hf : ∀ c : CoreState, (f c).slcWait = c.slcWait) : s₀.SameWaits (s.onSlcPort who f) := by
  unfold State.onSlcPort
  split
  · exact h.onCore hf
  · exact h

theorem sluiceAnswer {a item} (h : s₀.SameWaits s) : s₀.SameWaits (s.sluiceAnswer a item) := by
  have hport := (h.of_cores (t := s.emit (.sluice a.who a.tag a.data)) rfl).onSlcPort (who := a.who)
    (f := fun c => { c with slcBusy := false, slcTag := some a.tag, slcData := if item then a.data else c.slcData }) fun _ => rfl
  unfold State.sluiceAnswer
  dsimp only
  split
  · exact List.foldlRecOn _ _ hport fun _ h _ _ => h.onCore fun c => c.loadsReturn_slcWait _
  · exact hport

theorem sluiceTake {q} (h : s₀.SameWaits s) : s₀.SameWaits (s.sluiceTake q) := by
  have happly : s₀.SameWaits (s.sluiceApply q).2.2 := h.of_cores (State.StoreOnly.refl s).sluiceApply.cores
  unfold State.sluiceTake
  dsimp only
  split
  · exact h.of_cores rfl
  · split
    · exact happly.of_cores rfl
    · exact happly.sluiceAnswer

end State.SameWaits

/-- An answer is sent, and beside it only the ports of the cores change. -/
theorem State.sluiceAnswer_eq (s : State) (a : SluiceAnswer) (item : Bool) :
    ∃ cores, s.sluiceAnswer a item = { s with out := s.out ++ [Output.sluice a.who a.tag a.data], cores := cores } := by
  have hport : ∃ cores, (s.emit (.sluice a.who a.tag a.data)).onSlcPort a.who
      (fun c => { c with slcBusy := false, slcTag := some a.tag, slcData := if item then a.data else c.slcData }) =
      { s with out := s.out ++ [Output.sluice a.who a.tag a.data], cores := cores } := by
    unfold State.onSlcPort
    split
    · exact ⟨_, rfl⟩
    · exact ⟨_, rfl⟩
  unfold State.sluiceAnswer
  dsimp only
  split
  · refine List.foldlRecOn (motive := fun t => ∃ cores, t = { s with out := s.out ++ [Output.sluice a.who a.tag a.data], cores := cores })
      _ _ hport fun t h _ _ => ?_
    obtain ⟨_, rfl⟩ := h
    exact ⟨_, rfl⟩
  · exact hport

theorem State.slcPortNext_of_empty {s : State} {who : Requester} (h : s.slcPortQueue who = []) (fuel : Nat) : s.slcPortNext who fuel = s := by
  cases fuel with
  | zero => rfl
  | succ fuel =>
    unfold State.slcPortNext
    rw [h]
    cases slcPortCore who <;> rfl

theorem State.slcPortNext_of_busy {s : State} {who : Requester} (h : ∀ i, slcPortCore who = some i → (s.core i).slcBusy = true) (fuel : Nat) :
    s.slcPortNext who fuel = s := by
  cases fuel with
  | zero => rfl
  | succ fuel =>
    unfold State.slcPortNext
    split
    next i _ _ hcore _ => exact if_pos (h i hcore)
    next => rfl

-- Commands that nothing holds ----------------------------------------------------------------------------------------------

/-- The state in which a command has reached its channel: its port, if it has one, waits for the answer (R255). -/
def State.reached (s : State) (q : SluiceCmd) : State :=
  (s.pointerUpset q.channel ⟨0, 0, 0, 0⟩).onSlcPort q.who fun c => { c with slcBusy := true, slcTag := none }

/-- What a command finds at its channel. -/
theorem State.reached_eq (s : State) (q : SluiceCmd) : ∃ chans cores, s.reached q = { s with chans := chans, cores := cores } := by
  unfold State.reached State.onSlcPort
  split
  · exact ⟨_, _, rfl⟩
  · exact ⟨_, _, rfl⟩

theorem State.sameWaits_reached (s : State) (q : SluiceCmd) : s.SameWaits (s.reached q) :=
  ((State.SameWaits.refl s).of_cores (t := s.pointerUpset q.channel ⟨0, 0, 0, 0⟩) rfl).onSlcPort
    (f := fun c => { c with slcBusy := true, slcTag := none }) fun _ => rfl

/-- The pointers of a channel and its copies as their 17 bits give them. -/
def Channel.struck (x : Channel) : Channel :=
  { x with head := x.head % 2 ^ 17, headInv := x.headInv % 2 ^ 17, tail := x.tail % 2 ^ 17, tailInv := x.tailInv % 2 ^ 17 }

theorem State.chan_onSlcPort (s : State) (who : Requester) (f : CoreState → CoreState) (c : Nat) : (s.onSlcPort who f).chan c = s.chan c := by
  unfold State.onSlcPort
  split <;> rfl

theorem State.chan_reached (s : State) (q : SluiceCmd) : (s.reached q).chan q.channel = (s.chan q.channel).struck := by
  rw [State.reached, State.chan_onSlcPort, State.pointerUpset, State.chan_setChan_self]
  simp only [Nat.xor_zero]
  rfl

theorem Channel.struck_eq {x : Channel} (hhead : x.head < 2 ^ 17) (hheadInv : x.headInv < 2 ^ 17) (htail : x.tail < 2 ^ 17)
    (htailInv : x.tailInv < 2 ^ 17) : x.struck = x := by
  unfold Channel.struck
  rw [Nat.mod_eq_of_lt hhead, Nat.mod_eq_of_lt hheadInv, Nat.mod_eq_of_lt htail, Nat.mod_eq_of_lt htailInv]

/-- The port of a core whose command has reached its channel is busy. -/
theorem State.busy_reached (s : State) (q : SluiceCmd) {i : Nat} (hi : slcPortCore q.who = some i) : ((s.reached q).core i).slcBusy = true := by
  unfold State.reached State.onSlcPort
  rw [hi]
  dsimp only
  rw [State.onCore, State.core_setCore_self]

section
variable {s : State} {q : SluiceCmd}

theorem State.sluiceCommand_eq :
    s.sluiceCommand q ⟨0, 0, 0, 0⟩ [] =
      let x := (s.chan q.channel).struck
      let t := if x.waiting.isSome || !x.held.isEmpty then (s.reached q).setChan q.channel { x with held := x.held ++ [q] }
        else (s.reached q).sluiceTake q
      t.slcPortNext q.who (t.slcPortQueue q.who).length := by
  rw [← State.chan_reached]
  rfl

/-- A command that its channel holds back waits behind the others (R119). -/
theorem State.sluiceCommand_of_held (h : (s.chan q.channel).waiting.isSome = true) :
    s.sluiceCommand q ⟨0, 0, 0, 0⟩ [] =
      (s.reached q).setChan q.channel { (s.chan q.channel).struck with held := (s.chan q.channel).held ++ [q] } := by
  rw [State.sluiceCommand_eq]
  dsimp only
  rw [if_pos (by rw [Bool.or_eq_true]; exact .inl h)]
  refine State.slcPortNext_of_busy (fun i hi => ?_) _
  exact State.busy_reached s q hi

section
variable (hwaiting : (s.chan q.channel).waiting = none) (hheld : (s.chan q.channel).held = [])
include hwaiting hheld

theorem State.sluiceCommand_of_free :
    s.sluiceCommand q ⟨0, 0, 0, 0⟩ [] =
      ((s.reached q).sluiceTake q).slcPortNext q.who (((s.reached q).sluiceTake q).slcPortQueue q.who).length := by
  have hfree : ((s.chan q.channel).struck.waiting.isSome || !(s.chan q.channel).struck.held.isEmpty) = false := by
    rw [show (s.chan q.channel).struck.waiting = none from hwaiting, show (s.chan q.channel).struck.held = [] from hheld]
    rfl
  rw [State.sluiceCommand_eq]
  dsimp only
  rw [hfree, if_neg Bool.false_ne_true]

/-- A command that nothing holds is taken; where no request word waits at its port, nothing follows (R117, R255). -/
theorem State.sluiceCommand_of_idle (hqueue : s.slcPortQueue q.who = []) :
    s.sluiceCommand q ⟨0, 0, 0, 0⟩ [] = (s.reached q).sluiceTake q := by
  rw [State.sluiceCommand_of_free hwaiting hheld]
  refine State.slcPortNext_of_empty ?_ _
  rw [(State.sameWaits_reached s q).sluiceTake.queue, hqueue]

/-- A command whose answer waits for storage keeps its port busy (R119). -/
theorem State.sluiceCommand_of_waits {a : SluiceAnswer} {u : State} (hfence : (q.op == .push && q.fence) = false)
    (hfenced : (s.chan q.channel).fenced.any (fun e => e.who == q.who) = false)
    (happly : (s.reached q).sluiceApply q = (a, true, u)) :
    s.sluiceCommand q ⟨0, 0, 0, 0⟩ [] = u.setChan q.channel { u.chan q.channel with waiting := some a } := by
  have htake : (s.reached q).sluiceTake q = u.setChan q.channel { u.chan q.channel with waiting := some a } := by
    unfold State.sluiceTake
    dsimp only
    rw [State.chan_reached, hfence, show (s.chan q.channel).struck.fenced = (s.chan q.channel).fenced from rfl, hfenced, happly]
    rfl
  have hcores : u.cores = (s.reached q).cores := by
    have h := (State.StoreOnly.refl (s.reached q)).sluiceApply (q := q)
    rw [happly] at h
    exact h.cores
  rw [State.sluiceCommand_of_free hwaiting hheld, htake]
  refine State.slcPortNext_of_busy (fun i hi => ?_) _
  have hcore : (u.setChan q.channel { u.chan q.channel with waiting := some a }).core i = (s.reached q).core i := by
    rw [State.core, State.core]
    exact congrArg (tblGetD i CoreState.reset) hcores
  rw [hcore]
  exact State.busy_reached s q hi

end

/-- A command that is answered at once (R117). -/
theorem State.sluiceTake_of_answer {v u : State} {a : SluiceAnswer} (hfence : (q.op == .push && q.fence) = false)
    (hfenced : (v.chan q.channel).fenced.any (fun e => e.who == q.who) = false) (happly : v.sluiceApply q = (a, false, u)) :
    v.sluiceTake q = u.sluiceAnswer a (q.op == .pop || q.op == .peek) := by
  unfold State.sluiceTake
  dsimp only
  rw [hfence, hfenced, happly]
  rfl

end

end Sys2Proof.Machine
end

section
namespace Sys2Proof.Machine

-- Places of a channel's storage (R104, R113) --------------------------------------------------------------------------------

/-- From `s` to `t` no register has changed but the counts of the banks, so that every region and channel keeps its place. -/
def State.SamePlaces (s t : State) : Prop := ∀ a, (∀ d, d < 4 → a ≠ Reg.RSV_BANK_STAT d) → t.reg a = s.reg a

theorem State.BankOnly.samePlaces {s t : State} (h : s.BankOnly t) : s.SamePlaces t := by
  obtain ⟨_, _, rfl, hreg⟩ := h
  exact hreg

theorem State.BankOnly.trans {s t u : State} (h : s.BankOnly t) (h' : t.BankOnly u) : s.BankOnly u := by
  obtain ⟨_, _, rfl, hreg⟩ := h
  obtain ⟨_, _, rfl, hreg'⟩ := h'
  exact ⟨_, _, rfl, fun a ha => (hreg' a ha).trans (hreg a ha)⟩

section
variable {s t : State} (h : s.SamePlaces t) (c : Nat)
include h

theorem State.SamePlaces.descriptor (f : BitField) : t.fld (Reg.SLC_CHAN0 c) f = s.fld (Reg.SLC_CHAN0 c) f := by
  rw [State.fld, State.fld, h]
  intro d hd
  unfold Reg.SLC_CHAN0 Reg.RSV_BANK_STAT
  omega

theorem State.SamePlaces.region {n : Nat} (hn : n < 256) : t.region n = s.region n := by
  rw [State.region, State.region, h]
  intro d hd
  unfold Reg.RSV_REGION Reg.RSV_BANK_STAT
  omega

theorem State.SamePlaces.chanRegion : t.chanRegion c = s.chanRegion c := h.descriptor c _

theorem State.SamePlaces.chanDepth : t.chanDepth c = s.chanDepth c := congrArg (2 ^ ·) (h.descriptor c _)

theorem State.SamePlaces.chanStart : t.chanStart c = s.chanStart c := congrArg (· * 4096) (h.descriptor c _)

theorem State.SamePlaces.slotOffset (p : Nat) : t.slotOffset c p = s.slotOffset c p := by
  rw [State.slotOffset, State.slotOffset, h.chanStart, h.chanDepth]

theorem State.SamePlaces.markOffset (p : Nat) : t.markOffset c p = s.markOffset c p := by
  rw [State.markOffset, State.markOffset, h.chanStart, h.chanDepth]

theorem State.SamePlaces.chanPlace (o : Nat) : t.chanPlace c o = s.chanPlace c o := by
  rw [State.chanPlace, State.chanPlace, h.chanRegion, h.region (bitsOf_lt _ _ _)]

theorem State.SamePlaces.markKey (p : Nat) : t.markKey c p = s.markKey c p := by
  rw [State.markKey, State.markKey, h.markOffset, h.chanPlace]

theorem State.SamePlaces.endMark (hmem : t.mem = s.mem) (p : Nat) : t.endMark c p = s.endMark c p := by
  rw [State.endMark, State.endMark, h.markKey, h.chanDepth, hmem]

end

theorem State.slotOffset_le (s : State) (c p : Nat) : s.slotOffset c p + 64 ≤ s.chanStart c + 64 * s.chanDepth c := by
  have hmod := Nat.mod_lt p (show 0 < s.chanDepth c from Nat.two_pow_pos _)
  unfold State.slotOffset
  omega

theorem State.slotOffset_mod (s : State) (c p : Nat) : s.slotOffset c p % 64 = 0 := by
  unfold State.slotOffset State.chanStart
  omega

theorem State.le_markOffset (s : State) (c p : Nat) : s.chanStart c + 64 * s.chanDepth c ≤ s.markOffset c p := Nat.le_add_right _ _

theorem State.markOffset_mod (s : State) (c p : Nat) : s.markOffset c p % 8 = 0 := by
  unfold State.markOffset State.chanStart
  omega

/-- The byte of the Reservoir at an offset of a channel's region. -/
def State.chanByte (s : State) (c o : Nat) : Nat := canonRsv (s.chanPlace c o)

section
variable (s : State) (c : Nat)

theorem State.chanPlace_die_lt (o : Nat) : (s.chanPlace c o).1 < 4 := by
  have hpin : (s.region (s.chanRegion c)).pinDie < 4 := bitsOf_lt _ _ _
  rw [State.chanPlace, Region.place_eq, Region.dieOf]
  dsimp only
  split
  · exact hpin
  · omega

theorem State.chanPlace_lt {o : Nat} (ho : o < 2 ^ 31) : (s.chanPlace c o).2 < 2 ^ 32 := by
  have hbase : (s.region (s.chanRegion c)).base < 2 ^ 16 := bitsOf_lt _ _ _
  rw [State.chanPlace, Region.place_eq, Region.granule]
  dsimp only
  split <;> omega

theorem State.chanPlace_mod (o : Nat) : (s.chanPlace c o).2 % 4096 = o % 4096 := by
  rw [State.chanPlace, Region.place_eq]
  dsimp only
  omega

theorem State.rsvBase_le_chanByte (o : Nat) : rsvBase ≤ s.chanByte c o := by
  unfold State.chanByte canonRsv
  omega

theorem State.chanByte_mod_eight (o : Nat) : s.chanByte c o % 8 = o % 8 := by
  have hmod := s.chanPlace_mod c o
  unfold State.chanByte canonRsv rsvBase
  omega

/-- Bytes of one granule lie side by side (R104). -/
theorem State.chanByte_add {o j : Nat} (hj : o % 4096 + j < 4096) : s.chanByte c (o + j) = s.chanByte c o + j := by
  have hgranule : (o + j) / 4096 = o / 4096 := by omega
  have hbyte : (o + j) % 4096 = o % 4096 + j := by omega
  unfold State.chanByte canonRsv
  rw [State.chanPlace, State.chanPlace, Region.place_eq, Region.place_eq, Region.dieOf, Region.dieOf, Region.granule, Region.granule, hgranule,
    hbyte]
  dsimp only
  omega

/-- Offsets of a region have bytes of their own (R107). -/
theorem State.chanByte_injective {o o' : Nat} (ho : o < 2 ^ 31) (ho' : o' < 2 ^ 31) (h : s.chanByte c o = s.chanByte c o') : o = o' := by
  have hlt := s.chanPlace_lt c ho
  have hlt' := s.chanPlace_lt c ho'
  have hn : s.chanRegion c < 256 := bitsOf_lt _ _ _
  unfold State.chanByte canonRsv at h
  have hdie : (s.chanPlace c o).1 = (s.chanPlace c o').1 := by omega
  have hbyte : (s.chanPlace c o).2 = (s.chanPlace c o').2 := by omega
  calc o = (s.region (s.chanRegion c)).offsetOf (s.chanRegion c) (s.chanPlace c o).1 (s.chanPlace c o).2 :=
        ((s.region (s.chanRegion c)).offsetOf_place hn o).symm
    _ = (s.region (s.chanRegion c)).offsetOf (s.chanRegion c) (s.chanPlace c o').1 (s.chanPlace c o').2 := by rw [hdie, hbyte]
    _ = o' := (s.region (s.chanRegion c)).offsetOf_place hn o'

theorem State.markKey_eq (p : Nat) : s.markKey c p = s.chanByte c (s.markOffset c p) := by
  have haligned : s.chanByte c (s.markOffset c p) % 8 = 0 := by
    rw [State.chanByte_mod_eight, State.markOffset_mod]
  exact wordKey_of_aligned (s.rsvBase_le_chanByte c _) haligned

end

section
variable {s : State} {c : Nat} (hmapped : s.storageMapped (s.chanRegion c) (s.chanStart c) (s.chanDepth c) = true)
include hmapped

/-- The storage of a mapped channel stays within its region (R105 kind 5). -/
theorem State.storage_within : s.chanStart c + 64 * s.chanDepth c + s.chanDepth c / 8 ≤ 2 ^ 30 := by
  have hsize : (s.region (s.chanRegion c)).size ≤ 2 ^ 18 := Nat.succ_le_of_lt (bitsOf_lt _ _ _)
  unfold State.storageMapped at hmapped
  rw [Bool.and_eq_true, decide_eq_true_eq] at hmapped
  omega

theorem State.markOffset_le (p : Nat) : s.markOffset c p ≤ 2 ^ 30 := by
  have hmod := Nat.mod_lt p (show 0 < s.chanDepth c from Nat.two_pow_pos _)
  have hwithin := State.storage_within hmapped
  unfold State.markOffset
  omega

/-- No byte of an item's slot is a byte of a word of end marks (R113). -/
theorem State.slot_apart_mark (p r : Nat) {j i : Nat} (hj : j < 64) (hi : i < 8) :
    s.chanByte c (s.slotOffset c p) + j ≠ s.chanByte c (s.markOffset c r) + i := by
  have hslot := s.slotOffset_mod c p
  have hmark := s.markOffset_mod c r
  have hend := s.slotOffset_le c p
  have hstart := s.le_markOffset c r
  have hlast := State.markOffset_le hmapped r
  intro h
  rw [← s.chanByte_add c (show s.slotOffset c p % 4096 + j < 4096 by omega),
    ← s.chanByte_add c (show s.markOffset c r % 4096 + i < 4096 by omega)] at h
  have heq := s.chanByte_injective c (by omega) (by omega) h
  omega

end

end Sys2Proof.Machine
end

section
namespace Sys2Proof.Machine

-- End marks and items (R113, R116) ------------------------------------------------------------------------------------------

/-- The bitmap word of a pointer, when it holds no mark, gives its end mark and takes its bank (R113, R121). -/
theorem State.readMark_of_unmarked {s : State} {c p : Nat} (h : tblFind (s.markKey c p) s.marks = none) :
    s.readMark c p = (some (s.endMark c p), s.bankRead (s.markKey c p) 8 s.clock.cycles) := by
  have hbanks : s.BankOnly (s.bankRead (s.markKey c p) 8 s.clock.cycles) := (State.BankOnly.refl s).bankRead
  have hcheck : (s.bankRead (s.markKey c p) 8 s.clock.cycles).checkWord (s.markKey c p) 0 =
      (0, s.bankRead (s.markKey c p) 8 s.clock.cycles) :=
    State.checkWord_of_unmarked (by rw [hbanks.marks, h]) 0 _
  have hdepth : (s.bankRead (s.markKey c p) 8 s.clock.cycles).chanDepth c = s.chanDepth c := hbanks.samePlaces.chanDepth c
  refine State.Canonical.of_def (f := @State.readMark) (fun f => f s c p = _) (by delta State.readMark; exact rfl) ?_
  extract_lets k
  rw [show k = s.markKey c p from rfl, hcheck]
  dsimp only
  rw [if_pos rfl, hdepth, hbanks.mem, State.endMark]

/-- The scan of the end marks of `n` pointers finds the first that is set (R120). -/
theorem State.scanMarks_of_unmarked {c : Nat} (n : Nat) : ∀ {s : State} {p seen : Nat}, p < 2 ^ 17 →
    (∀ j, j < n → tblFind (s.markKey c ((p + j) % 2 ^ 17)) s.marks = none) →
    ∃ u, s.BankOnly u ∧ s.scanMarks c n p seen =
      (some (match (List.range n).find? fun j => s.endMark c ((p + j) % 2 ^ 17) with
        | some j => (seen + (j + 1), true)
        | none => (seen + n, false)), u) := by
  induction n with
  | zero => exact fun _ _ => ⟨_, .refl _, rfl⟩
  | succ n ih =>
    intro s p seen hp hmarks
    have hp0 : (p + 0) % 2 ^ 17 = p := Nat.mod_eq_of_lt hp
    have hfirst := hmarks 0 (Nat.succ_pos n)
    rw [hp0] at hfirst
    have hbanks : s.BankOnly (s.bankRead (s.markKey c p) 8 s.clock.cycles) := (State.BankOnly.refl s).bankRead
    have hshift (j : Nat) : ((p + 1) % 2 ^ 17 + j) % 2 ^ 17 = (p + (j + 1)) % 2 ^ 17 := by omega
    rw [State.Canonical.scanMarks_succ, State.readMark_of_unmarked hfirst, List.range_succ_eq_map, List.find?_cons, hp0]
    cases hmark : s.endMark c p with
    | true => exact ⟨_, hbanks, rfl⟩
    | false =>
      obtain ⟨u, hu, hscan⟩ := ih (s := s.bankRead (s.markKey c p) 8 s.clock.cycles) (p := (p + 1) % 2 ^ 17) (seen := seen + 1) (by omega)
        (fun j hj => by rw [hbanks.samePlaces.markKey, hbanks.marks, hshift]; exact hmarks _ (by omega))
      refine ⟨u, hbanks.trans hu, ?_⟩
      dsimp only
      rw [hscan, List.find?_map]
      simp only [hshift, hbanks.samePlaces.endMark c hbanks.mem, Function.comp_def, Nat.succ_eq_add_one]
      cases (List.range n).find? fun j => s.endMark c ((p + (j + 1)) % 2 ^ 17) with
      | none => simp only [Option.map_none]; congr 3; omega
      | some j => simp only [Option.map_some]; congr 3; omega

/-- From `s` to `t` nothing has changed but what the Reservoir dies keep beside their bytes. -/
def State.RsvOnly (s t : State) : Prop := ∃ rsv, t = { s with rsv := rsv }

theorem State.RsvOnly.foldTerm {s₀ s : State} {region die o be data poison} (h : s₀.RsvOnly s) :
    s₀.RsvOnly (s.foldTerm region die o be data poison) := by
  obtain ⟨_, rfl⟩ := h
  unfold State.foldTerm
  exact ⟨_, rfl⟩

theorem State.RsvOnly.ite {s₀ a b : State} {c : Prop} [Decidable c] (ha : s₀.RsvOnly a) (hb : s₀.RsvOnly b) : s₀.RsvOnly (if c then a else b) := by
  split
  · exact ha
  · exact hb

/-- Folding the terms of a write changes the varve accumulators alone (R126). -/
theorem State.RsvOnly.foldTerms : ∀ {fuel region die o be data poison} {s₀ s : State}, s₀.RsvOnly s →
    s₀.RsvOnly (s.foldTerms fuel region die o be data poison)
  | 0, _, _, _, _, _, _, _, _, h => h
  | _ + 1, _, _, _, _, _, _, _, _, h => ite h (foldTerms (ite h h.foldTerm))

/-- A write of one item's 64 bytes by the Sluice control to a region that is not sealed (R56, R108, R116). -/
theorem State.rsvStore_item {s : State} {age node seen die x n o : Nat} {who : Requester} {item : List Byte} (hdie : die < 4) (hx : x % 8 = 0)
    (hsealed : s.sealedLayer n = none) (hitem : item.length = 64) :
    ∃ u marks rsv, { s with mem := memPutBytes s.mem (canonRsv (die, x)) item, marks := marks, rsv := rsv }.BankOnly u ∧
      (∀ k, tblFind k s.marks = none → tblFind k marks = none) ∧
      s.rsvStore age who node true seen die x (some (n, o)) (2 ^ 64 - 1) item false = (0, u) := by
  obtain ⟨marks, hstore, hmarks⟩ := State.writeStoreBe_words 8 (s := s) (fuel := 10) (c := canonRsv (die, x)) (data := item)
    (by unfold canonRsv; omega) (by unfold canonRsv rsvBase; omega) hitem (by decide)
  obtain ⟨rsv, hwrite⟩ : ∃ rsv, s.rsvWrite who node true seen die x (some (n, o)) (2 ^ 64 - 1) item false =
      (0, { s with mem := memPutBytes s.mem (canonRsv (die, x)) item, marks := marks, rsv := rsv }) := by
    obtain ⟨rsv, hfold⟩ := State.RsvOnly.foldTerms (fuel := 10) (region := n) (die := die) (o := o) (be := 2 ^ 64 - 1) (data := item)
      (poison := false) (⟨s.rsv, rfl⟩ : State.RsvOnly { s with mem := memPutBytes s.mem (canonRsv (die, x)) item, marks := marks } _)
    unfold State.rsvWrite
    dsimp only
    rw [if_neg (by rw [Bool.not_true, Bool.and_false]; decide), hsealed, hitem]
    dsimp only
    rw [show (64 : Nat) / 8 + 2 = 10 from rfl]
    unfold canonRsv at hstore hfold
    dsimp only at hstore hfold
    rw [show (2 : Nat) ^ 64 - 1 = 2 ^ (8 * 8) - 1 from rfl, hstore]
    by_cases hvarve : (s.region n).varve = true
    · rw [if_pos hvarve]
      exact ⟨rsv, congrArg (Prod.mk 0) hfold⟩
    · rw [if_neg hvarve]
      exact ⟨s.rsv, rfl⟩
  refine ⟨_, marks, rsv, (State.BankOnly.refl _).bankWrite hdie (x := x) (n := 64) (be := 2 ^ 64 - 1) (age := age), hmarks, ?_⟩
  rw [State.rsvStore, hwrite]
  dsimp only
  rw [if_pos rfl, hitem]

end Sys2Proof.Machine
end

section
namespace Sys2Proof.Machine

-- What a PUSH leaves in storage (R113, R116) --------------------------------------------------------------------------------

theorem noItem_length : noItem.length = 64 := List.length_replicate

theorem item_length (data : List Byte) : ((data ++ noItem).take 64).length = 64 := by
  rw [List.length_take, List.length_append, noItem_length]
  omega

/-- The bitmap word of pointer `p` with its bit put. -/
def State.markedWord (s : State) (c p : Nat) (fin : Bool) : Nat := putBits (memNat s.mem (s.markKey c p) 8) (p % s.chanDepth c % 64) 1 (b2n fin)

/-- A bitmap word that has been written with the bit of a pointer gives that pointer's end mark (R113). -/
theorem bitAt_memNat_put {m : Memory} {k i : Nat} (hi : i < 64) (w : Nat) (fin : Bool) :
    bitAt (memNat (memPutBytes m k (leBytes 8 (putBits w i 1 (b2n fin)))) k 8) i = fin := by
  have hbytes : memBytes (memPutBytes m k (leBytes 8 (putBits w i 1 (b2n fin)))) k 8 = leBytes 8 (putBits w i 1 (b2n fin)) :=
    memBytes_memPutBytes (leBytes 8 (putBits w i 1 (b2n fin))) m k
  rw [memNat, hbytes, leNat_leBytes, bitAt, Nat.testBit_mod_two_pow, testBit_putBits, decide_eq_true (show i < 8 * 8 from hi), Bool.true_and,
    if_pos ⟨Nat.le_refl i, Nat.lt_succ_self i⟩, Nat.sub_self]
  cases fin <;> rfl

/-- The slot of an item keeps its bytes when a bitmap word is written after it (R113). -/
theorem State.memBytes_slot {s : State} {c p r : Nat} (hmapped : s.storageMapped (s.chanRegion c) (s.chanStart c) (s.chanDepth c) = true)
    (m : Memory) {item : List Byte} (hitem : item.length = 64) {word : List Byte} (hword : word.length = 8) :
    memBytes (memPutBytes (memPutBytes m (s.chanByte c (s.slotOffset c p)) item) (s.markKey c r) word) (s.chanByte c (s.slotOffset c p)) 64 =
      item := by
  refine Eq.trans (memBytes_congr fun b hlo hhi => memByte_memPutBytes_out word _ _ _ ?_)
    (hitem ▸ memBytes_memPutBytes item m (s.chanByte c (s.slotOffset c p)))
  rw [State.markKey_eq, hword]
  by_contra hin
  have hapart := State.slot_apart_mark hmapped p r (j := b - s.chanByte c (s.slotOffset c p)) (i := b - s.chanByte c (s.markOffset c r))
    (by omega) (by omega)
  omega

-- Commands at a channel in order (R115 to R120) -----------------------------------------------------------------------------

theorem State.channelReady_iff {s : State} {c : Nat} :
    s.channelReady c = true ↔ s.chanOn c = true ∧ s.storageMapped (s.chanRegion c) (s.chanStart c) (s.chanDepth c) = true ∧
      (s.chan c).head < 2 ^ 17 ∧ (s.chan c).tail < 2 ^ 17 ∧ (s.chan c).fails (s.chanDepth c) = none := by
  unfold State.channelReady
  rw [Bool.and_eq_true, Bool.and_eq_true, Bool.and_eq_true, Bool.and_eq_true, decide_eq_true_eq, decide_eq_true_eq, Option.isNone_iff_eq_none,
    and_assoc, and_assoc, and_assoc]

theorem flip17_lt (p : Nat) : flip17 p < 2 ^ 17 := Nat.xor_lt_two_pow (by decide) (Nat.mod_lt _ (by decide))

/-- The pointer copies of a channel that passes the check of R121. -/
theorem Channel.copies_of_fails_none {x : Channel} {depth : Nat} (h : x.fails depth = none) :
    x.headInv = flip17 x.head ∧ x.tailInv = flip17 x.tail := by
  unfold Channel.fails at h
  split at h
  · exact nomatch h
  next hhead =>
    split at h
    · exact nomatch h
    next htail =>
      rw [bne_iff_ne, not_not] at hhead htail
      exact ⟨hhead, htail⟩

/-- A channel that passes the check of R121 has pointers of 17 bits. -/
theorem Channel.struck_of_fails_none {x : Channel} {depth : Nat} (hhead : x.head < 2 ^ 17) (htail : x.tail < 2 ^ 17)
    (h : x.fails depth = none) : x.struck = x := by
  obtain ⟨hheadInv, htailInv⟩ := x.copies_of_fails_none h
  exact Channel.struck_eq hhead (hheadInv ▸ flip17_lt _) htail (htailInv ▸ flip17_lt _)

theorem Channel.count_moveHead {x : Channel} (htail : x.tail < 2 ^ 17) (hcount : 0 < x.count) :
    (x.moveHead 1).count = x.count - 1 := by
  unfold Channel.count at hcount ⊢
  unfold Channel.moveHead
  dsimp only
  omega

section
open State.Canonical (of_def)
variable {s : State} {c : Nat} (hready : s.channelReady c = true) (who : Requester)
include hready

/-- COUNT (R116). -/
theorem State.sluiceApply_count :
    s.sluiceApply ⟨who, .count, c, false, false, []⟩ =
      (⟨who, sluiceTag false false false ((s.chan c).resetProd || (s.chan c).resetCons) false false false c (s.chan c).count 0, noItem⟩,
        false, s) := by
  obtain ⟨hon, hmapped, -, -, hfails⟩ := State.channelReady_iff.mp hready
  refine of_def (f := @State.sluiceApply) (fun f => f s _ = _) (by delta State.sluiceApply; exact rfl) ?_
  refine (if_neg (by rw [hon]; decide)).trans ((if_neg (by rw [hmapped]; decide)).trans ?_)
  rw [hfails]
  rfl

/-- A PUSH while DROPPING is set (R120). -/
theorem State.sluiceApply_push_dropping (fin fence : Bool) (data : List Byte) (hdrop : (s.chan c).dropping = true) :
    s.sluiceApply ⟨who, .push, c, fin, fence, data⟩ =
      (⟨who, sluiceTag false false true (s.chan c).resetProd false true false c (s.chan c).count 0, noItem⟩, false,
        s.setChan c (if fin then { s.chan c with resetProd := false, dropping := false, inPacket := false }
          else { s.chan c with resetProd := false })) := by
  obtain ⟨hon, hmapped, -, -, hfails⟩ := State.channelReady_iff.mp hready
  refine of_def (f := @State.sluiceApply) (fun f => f s _ = _) (by delta State.sluiceApply; exact rfl) ?_
  refine (if_neg (by rw [hon]; decide)).trans ((if_neg (by rw [hmapped]; decide)).trans ?_)
  rw [hfails]
  exact if_pos hdrop

/-- A PUSH to a full channel (R116). -/
theorem State.sluiceApply_push_full (fin fence : Bool) (data : List Byte) (hdrop : (s.chan c).dropping = false)
    (hfull : s.chanDepth c ≤ (s.chan c).count) :
    s.sluiceApply ⟨who, .push, c, fin, fence, data⟩ =
      (⟨who, sluiceTag false false false (s.chan c).resetProd false false false c (s.chan c).count 0, noItem⟩, false,
        s.setChan c { s.chan c with resetProd := false, fullRefs := satAdd 32 (s.chan c).fullRefs 1 }) := by
  obtain ⟨hon, hmapped, -, -, hfails⟩ := State.channelReady_iff.mp hready
  refine of_def (f := @State.sluiceApply) (fun f => f s _ = _) (by delta State.sluiceApply; exact rfl) ?_
  refine (if_neg (by rw [hon]; decide)).trans ((if_neg (by rw [hmapped]; decide)).trans ?_)
  rw [hfails]
  exact (if_neg (Bool.eq_false_iff.mp hdrop)).trans (if_pos hfull)

/-- A POP or PEEK of an empty channel (R116). -/
theorem State.sluiceApply_read_empty {op : SluiceOp} (hop : op = .pop ∨ op = .peek) (hcount : (s.chan c).count = 0) :
    s.sluiceApply ⟨who, op, c, false, false, []⟩ =
      (⟨who, sluiceTag false false false (s.chan c).resetCons false false false c 0 0, noItem⟩, false,
        s.setChan c { s.chan c with resetCons := false, emptyReads := satAdd 32 (s.chan c).emptyReads 1 }) := by
  obtain ⟨hon, hmapped, -, -, hfails⟩ := State.channelReady_iff.mp hready
  refine of_def (f := @State.sluiceApply) (fun f => f s _ = _) (by delta State.sluiceApply; exact rfl) ?_
  refine (if_neg (by rw [hon]; decide)).trans ((if_neg (by rw [hmapped]; decide)).trans ?_)
  rw [hfails]
  obtain rfl | rfl := hop
  · exact if_pos hcount
  · exact if_pos hcount

/-- What a channel is after a POP or PEEK of an item with this end mark (R116, R119). -/
def Channel.afterRead (x : Channel) (op : SluiceOp) (mark : Bool) : Channel :=
  if op = .pop then { ({ x with resetCons := false } : Channel).moveHead 1 with inPacket := !mark } else { x with resetCons := false }

/-- A POP or PEEK of an item (R116, R119). -/
theorem State.sluiceApply_read_item {op : SluiceOp} (hop : op = .pop ∨ op = .peek) (hcount : 0 < (s.chan c).count)
    (hmark : tblFind (s.markKey c (s.chan c).head) s.marks = none)
    (hwords : ∀ k ∈ wordKeys (s.chanByte c (s.slotOffset c (s.chan c).head)) 64, tblFind k s.marks = none) :
    ∃ u, s.BankOnly u ∧ s.sluiceApply ⟨who, op, c, false, false, []⟩ =
      (⟨who, sluiceTag true (s.endMark c (s.chan c).head) false (s.chan c).resetCons false false false c
          ((s.chan c).afterRead op (s.endMark c (s.chan c).head)).count 0,
        memBytes s.mem (s.chanByte c (s.slotOffset c (s.chan c).head)) 64⟩, true,
        u.setChan c ((s.chan c).afterRead op (s.endMark c (s.chan c).head))) := by
  obtain ⟨hon, hmapped, -, -, hfails⟩ := State.channelReady_iff.mp hready
  obtain ⟨read, hread⟩ : ∃ f, f = @State.readMark := ⟨_, rfl⟩
  obtain ⟨fetch, hfetch⟩ : ∃ f, f = @State.fetch := ⟨_, rfl⟩
  have hbanks : s.BankOnly (s.bankRead (s.markKey c (s.chan c).head) 8 s.clock.cycles) := (State.BankOnly.refl s).bankRead
  have hreads : read s c (s.chan c).head = _ := hread ▸ State.readMark_of_unmarked hmark
  revert hbanks hreads
  generalize s.bankRead (s.markKey c (s.chan c).head) 8 s.clock.cycles = v
  intro hbanks hreads
  have hplace : canonRsv (v.chanPlace c (v.slotOffset c (s.chan c).head)) = s.chanByte c (s.slotOffset c (s.chan c).head) := by
    rw [hbanks.samePlaces.slotOffset, hbanks.samePlaces.chanPlace, State.chanByte]
  have hfetches : fetch v (canonRsv (v.chanPlace c (v.slotOffset c (s.chan c).head))) 64 0 v.clock.cycles = _ :=
    hfetch ▸ State.fetch_of_unmarked 0 v.clock.cycles (by rw [hplace, hbanks.marks]; exact hwords)
  refine ⟨v.bankRead (canonRsv (v.chanPlace c (v.slotOffset c (s.chan c).head))) 64 v.clock.cycles, hbanks.bankRead, ?_⟩
  refine of_def (f := @State.sluiceApply) (fun f => f s _ = _) (by delta State.sluiceApply; exact rfl) ?_
  rw [← hread, ← hfetch]
  refine (if_neg (by rw [hon]; decide)).trans ((if_neg (by rw [hmapped]; decide)).trans ?_)
  rw [hfails]
  rw [hbanks.mem, hplace] at hfetches
  obtain rfl | rfl := hop
  · refine (if_neg (Nat.pos_iff_ne_zero.mp hcount)).trans ?_
    rw [hreads]
    dsimp only
    rw [hplace, hfetches]
    rfl
  · refine (if_neg (Nat.pos_iff_ne_zero.mp hcount)).trans ?_
    rw [hreads]
    dsimp only
    rw [hplace, hfetches]
    rfl

/-- A DROP_PACKET of an empty channel (R120). -/
theorem State.sluiceApply_drop_empty (hcount : (s.chan c).count = 0) :
    s.sluiceApply ⟨who, .drop, c, false, false, []⟩ =
      (⟨who, sluiceTag false false false (s.chan c).resetCons false false false c 0 0, noItem⟩, true,
        s.setChan c (if (s.chan c).inPacket then { s.chan c with resetCons := false, dropping := true }
          else { s.chan c with resetCons := false })) := by
  obtain ⟨hon, hmapped, -, -, hfails⟩ := State.channelReady_iff.mp hready
  refine of_def (f := @State.sluiceApply) (fun f => f s _ = _) (by delta State.sluiceApply; exact rfl) ?_
  refine (if_neg (by rw [hon]; decide)).trans ((if_neg (by rw [hmapped]; decide)).trans ?_)
  rw [hfails]
  exact if_pos hcount

/-- What a channel is after a DROP_PACKET that removes `n` items, with an end mark among them or not (R120). -/
def Channel.afterDrop (x : Channel) (n : Nat) (found : Bool) : Channel :=
  let y := ({ x with resetCons := false } : Channel).moveHead n
  if found then { y with inPacket := false } else if x.inPacket then { y with dropping := true } else y

/-- A DROP_PACKET of a channel that holds items, given what the scan of the end marks finds (R120). -/
theorem State.sluiceApply_drop_items {n : Nat} {found : Bool} {u : State} (hcount : (s.chan c).count ≠ 0)
    (hscan : s.scanMarks c (s.chan c).count (s.chan c).head 0 = (some (n, found), u)) :
    s.sluiceApply ⟨who, .drop, c, false, false, []⟩ =
      (⟨who, sluiceTag false false false (s.chan c).resetCons false false false c ((s.chan c).count - n) n, noItem⟩, true,
        u.setChan c ((s.chan c).afterDrop n found)) := by
  obtain ⟨hon, hmapped, -, -, hfails⟩ := State.channelReady_iff.mp hready
  obtain ⟨scan, hdef⟩ : ∃ f, f = @State.scanMarks := ⟨_, rfl⟩
  refine of_def (f := @State.sluiceApply) (fun f => f s _ = _) (by delta State.sluiceApply; exact rfl) ?_
  rw [← hdef] at hscan ⊢
  refine (if_neg (by rw [hon]; decide)).trans ((if_neg (by rw [hmapped]; decide)).trans ?_)
  rw [hfails]
  refine (if_neg hcount).trans ?_
  rw [hscan]
  rfl

/-- What the Sluice control's two writes of a PUSH leave (R113, R116). -/
theorem State.item_stored {p : Nat} {v u : State} {item : List Byte} {marks : List (Nat × Mark)} {rsv : RsvState} (hitem : item.length = 64)
    (fin : Bool) (hv : s.BankOnly v)
    (hu : ({ v with mem := memPutBytes v.mem (s.chanByte c (s.slotOffset c p)) item, marks := marks, rsv := rsv } : State).BankOnly u) :
    let k := canonRsv (u.chanPlace c (u.markOffset c p))
    let t := u.writeStore k (leBytes 8 (putBits (memNat u.mem k 8) (p % u.chanDepth c % 64) 1 (b2n fin))) false
    t.out = s.out ∧ s.SamePlaces t ∧ memBytes t.mem (s.chanByte c (s.slotOffset c p)) 64 = item ∧ t.endMark c p = fin := by
  obtain ⟨-, hmapped, -, -, -⟩ := State.channelReady_iff.mp hready
  have hplaces : s.SamePlaces u := fun a ha => (hu.samePlaces a ha).trans (hv.samePlaces a ha)
  have hkey : canonRsv (u.chanPlace c (u.markOffset c p)) = s.markKey c p := by
    rw [hplaces.markOffset, hplaces.chanPlace, s.markKey_eq, State.chanByte]
  have hout : u.out = s.out := by
    obtain ⟨_, _, rfl, -⟩ := hu
    obtain ⟨_, _, rfl, -⟩ := hv
    rfl
  intro k t
  obtain ⟨marks, heq, -⟩ := State.writeStoreBe_words 1 (s := u) (fuel := 3) (c := s.markKey c p)
    (data := leBytes 8 (putBits (memNat u.mem k 8) (p % u.chanDepth c % 64) 1 (b2n fin))) (by rw [s.markKey_eq]; exact s.rsvBase_le_chanByte c _)
    (by rw [s.markKey_eq, s.chanByte_mod_eight, s.markOffset_mod]) (leBytes_length _ _) (by decide)
  have ht : t = { u with
      mem := memPutBytes u.mem (s.markKey c p) (leBytes 8 (putBits (memNat u.mem k 8) (p % u.chanDepth c % 64) 1 (b2n fin))), marks := marks } := by
    unfold t State.writeStore
    rw [leBytes_length, show k = s.markKey c p from hkey]
    rw [show k = s.markKey c p from hkey] at heq
    exact heq
  have htplaces : s.SamePlaces t := by
    rw [ht]
    exact hplaces
  refine ⟨?_, htplaces, ?_, ?_⟩
  · rw [ht]
    exact hout
  · rw [ht]
    dsimp only
    rw [hu.mem]
    exact State.memBytes_slot hmapped v.mem hitem (leBytes_length _ _)
  · rw [State.endMark, htplaces.markKey, htplaces.chanDepth, ht]
    dsimp only
    rw [hplaces.chanDepth]
    exact bitAt_memNat_put (Nat.mod_lt _ (by decide)) _ fin

/-- A PUSH that stores its item (R116): the slot at TAIL holds the 64 bytes, the bitmap the end mark. -/
theorem State.sluiceApply_push_store (fin fence : Bool) (data : List Byte) (hdrop : (s.chan c).dropping = false)
    (hroom : (s.chan c).count < s.chanDepth c) (hsealed : s.sealedLayer (s.chanRegion c) = none)
    (hmark : tblFind (s.markKey c (s.chan c).tail) s.marks = none) :
    ∃ u, u.out = s.out ∧ s.SamePlaces u ∧
      memBytes u.mem (s.chanByte c (s.slotOffset c (s.chan c).tail)) 64 = (data ++ noItem).take 64 ∧ u.endMark c (s.chan c).tail = fin ∧
      s.sluiceApply ⟨who, .push, c, fin, fence, data⟩ =
        (⟨who, sluiceTag false false true (s.chan c).resetProd false false false c ((s.chan c).count + 1) 0, noItem⟩, false,
          u.setChan c (({ s.chan c with resetProd := false } : Channel).moveTail 1)) := by
  obtain ⟨hon, hmapped, -, -, hfails⟩ := State.channelReady_iff.mp hready
  obtain ⟨read, hread⟩ : ∃ f, f = @State.readMark := ⟨_, rfl⟩
  obtain ⟨store, hstore⟩ : ∃ f, f = @State.rsvStore := ⟨_, rfl⟩
  have hbanks : s.BankOnly (s.bankRead (s.markKey c (s.chan c).tail) 8 s.clock.cycles) := (State.BankOnly.refl s).bankRead
  have hreads : read s c (s.chan c).tail = _ := hread ▸ State.readMark_of_unmarked hmark
  revert hbanks hreads
  generalize s.bankRead (s.markKey c (s.chan c).tail) 8 s.clock.cycles = v
  intro hbanks hreads
  have hslot : canonRsv ((v.chanPlace c (v.slotOffset c (s.chan c).tail)).1, (v.chanPlace c (v.slotOffset c (s.chan c).tail)).2) =
      s.chanByte c (s.slotOffset c (s.chan c).tail) := by
    rw [hbanks.samePlaces.slotOffset, hbanks.samePlaces.chanPlace, State.chanByte]
  have halign : (v.chanPlace c (v.slotOffset c (s.chan c).tail)).2 % 8 = 0 := by
    have hmod := v.chanPlace_mod c (v.slotOffset c (s.chan c).tail)
    have hoffset := v.slotOffset_mod c (s.chan c).tail
    omega
  have hunsealed : v.sealedLayer (v.chanRegion c) = none := by
    rw [hbanks.samePlaces.chanRegion]
    obtain ⟨_, _, rfl, -⟩ := hbanks
    exact hsealed
  obtain ⟨u, marks, rsv, hu, -, hstored⟩ := State.rsvStore_item (s := v) (age := v.clock.cycles) (node := v.node) (seen := 0) (who := who)
    (n := v.chanRegion c) (o := v.slotOffset c (s.chan c).tail) (v.chanPlace_die_lt c _) halign hunsealed (item_length data)
  rw [hslot] at hu
  obtain ⟨hout, hplaces, hbytes, hend⟩ := State.item_stored hready (item_length data) fin hbanks hu
  refine ⟨_, hout, hplaces, hbytes, hend, ?_⟩
  refine of_def (f := @State.sluiceApply) (fun f => f s _ = _) (by delta State.sluiceApply; exact rfl) ?_
  rw [← hstore] at hstored
  rw [← hread, ← hstore]
  refine (if_neg (by rw [hon]; decide)).trans ((if_neg (by rw [hmapped]; decide)).trans ?_)
  rw [hfails]
  refine (if_neg (Bool.eq_false_iff.mp hdrop)).trans ((if_neg (Nat.not_le.mpr hroom)).trans ?_)
  rw [hreads]
  dsimp only
  rw [hstored]

end

end Sys2Proof.Machine
end

section
namespace Sys2Proof.Machine

-- PUSH (R116, R118, R120, R353) -----------------------------------------------------------------------------------------------

/-- The state in which a command has been sent from its port, if it has one (R255). -/
def State.sent (s : State) (who : Requester) : State := s.onSlcPort who fun c => { c with slcBusy := true, slcTag := none }

theorem State.sent_eq (s : State) (who : Requester) : ∃ cores, s.sent who = { s with cores := cores } := by
  unfold State.sent State.onSlcPort
  split
  · exact ⟨_, rfl⟩
  · exact ⟨_, rfl⟩

/-- A command that nothing holds is taken; where no request word waits at its port, nothing follows (R117, R255). -/
theorem State.sluiceSubmit_of_idle {s : State} {q : SluiceCmd} (hwaiting : (s.chan q.channel).waiting = none)
    (hheld : (s.chan q.channel).held = []) (hqueue : s.slcPortQueue q.who = []) : s.sluiceSubmit q = (s.sent q.who).sluiceTake q := by
  have hsent : s.sluiceSend q = (s.sent q.who).sluiceTake q := by
    have hchan : (s.sent q.who).chan q.channel = s.chan q.channel := State.chan_onSlcPort _ _ _ _
    unfold State.sluiceSend
    refine if_neg ?_
    rw [show ((s.onSlcPort q.who fun c => { c with slcBusy := true, slcTag := none }).chan q.channel) = s.chan q.channel from hchan, hwaiting, hheld]
    decide
  have hwaits : s.SameWaits (s.sent q.who) := (State.SameWaits.refl s).onSlcPort fun _ => rfl
  unfold State.sluiceSubmit
  dsimp only
  rw [hsent]
  refine State.slcPortNext_of_empty ?_ _
  rw [hwaits.sluiceTake.queue, hqueue]

/-- The state `v` differs from `s` in channels and cores alone, and in channel `c` only by the pushes that wait there for a fence. -/
def State.SameFor (c : Nat) (s v : State) : Prop :=
  ∃ chans cores fenced, v = { s with chans := chans, cores := cores } ∧ v.chan c = { s.chan c with fenced := fenced }

section
variable {s v t : State} {c : Nat}

theorem State.SameFor.channelReady (h : State.SameFor c s v) (hready : s.channelReady c = true) : v.channelReady c = true := by
  obtain ⟨_, _, _, rfl, hchan⟩ := h
  rw [State.channelReady_iff] at hready ⊢
  rw [hchan]
  exact hready

theorem State.SameFor.pushOutcome (h : State.SameFor c s v) {who : Requester} {fin : Bool} {data : List Byte}
    (hout : PushOutcome v t who c fin data) : PushOutcome s t who c fin data := by
  obtain ⟨_, _, _, rfl, hchan⟩ := h
  unfold PushOutcome at hout
  rw [hchan] at hout
  exact hout

theorem State.endMark_congr (hregs : t.regs = s.regs) (hmem : t.mem = s.mem) (p : Nat) : t.endMark c p = s.endMark c p :=
  State.SamePlaces.endMark (fun a _ => State.reg_congr hregs a) c hmem p

/-- What a PUSH does is seen in the registers, the memory, the channels and the outputs. -/
theorem PushOutcome.keep {who : Requester} {fin : Bool} {data : List Byte} (h : PushOutcome s t who c fin data) :
    PushOutcome s (s.keep scopePort t) who c fin data := h

/-- A command that is answered at once leaves its channel, the memory and the registers as it was applied (R117). -/
theorem State.sluiceTake_answered {q : SluiceCmd} {a : SluiceAnswer} {u : State} {y : Channel} (hfence : (q.op == .push && q.fence) = false)
    (hfenced : (v.chan q.channel).fenced.any (fun e => e.who == q.who) = false)
    (happly : v.sluiceApply q = (a, false, u.setChan q.channel y)) :
    (v.sluiceTake q).chan q.channel = y ∧ (v.sluiceTake q).out = u.out ++ [.sluice a.who a.tag a.data] ∧ (v.sluiceTake q).mem = u.mem ∧
      (v.sluiceTake q).regs = u.regs := by
  obtain ⟨cores, heq⟩ := (u.setChan q.channel y).sluiceAnswer_eq a (q.op == .pop || q.op == .peek)
  rw [State.sluiceTake_of_answer hfence hfenced happly, heq]
  exact ⟨State.chan_setChan_self u q.channel y, rfl, rfl, rfl⟩

/-- A PUSH without FENCE that finds its channel in order (R116, R120). -/
theorem State.pushOutcome_sluiceTake (hready : v.channelReady c = true) (hsealed : v.sealedLayer (v.chanRegion c) = none)
    (hmark : tblFind (v.markKey c (v.chan c).tail) v.marks = none) (who : Requester) (fin : Bool) (data : List Byte)
    (hfenced : (v.chan c).fenced.any (fun e => e.who == who) = false) :
    PushOutcome v (v.sluiceTake ⟨who, .push, c, fin, false, data⟩) who c fin data := by
  unfold PushOutcome
  dsimp only
  by_cases hdrop : (v.chan c).dropping = true
  · obtain ⟨hchan, hout, hmem, -⟩ := State.sluiceTake_answered (q := ⟨who, .push, c, fin, false, data⟩) rfl hfenced
      (State.sluiceApply_push_dropping hready who fin false data hdrop)
    dsimp only at hchan
    rw [hchan, hout, hmem, if_pos hdrop]
    cases fin with
    | true => exact ⟨rfl, rfl, rfl, rfl, rfl, rfl, (Bool.and_false _).symm⟩
    | false => exact ⟨rfl, rfl, rfl, rfl, rfl, hdrop, (Bool.and_true _).symm⟩
  · rw [Bool.not_eq_true] at hdrop
    rw [hdrop, if_neg Bool.false_ne_true]
    by_cases hfull : v.chanDepth c ≤ (v.chan c).count
    · obtain ⟨hchan, hout, hmem, -⟩ := State.sluiceTake_answered (q := ⟨who, .push, c, fin, false, data⟩) rfl hfenced
        (State.sluiceApply_push_full hready who fin false data hdrop hfull)
      dsimp only at hchan
      rw [hchan, hout, hmem, if_pos hfull]
      exact ⟨rfl, rfl, rfl, rfl, rfl, rfl⟩
    · obtain ⟨u, hsame, -, hbytes, hend, happly⟩ :=
        State.sluiceApply_push_store hready who fin false data hdrop (Nat.lt_of_not_le hfull) hsealed hmark
      obtain ⟨hchan, hout, hmem, hregs⟩ := State.sluiceTake_answered (q := ⟨who, .push, c, fin, false, data⟩) rfl hfenced happly
      dsimp only at hchan
      rw [hchan, hout, hmem, if_neg hfull, hsame]
      refine ⟨rfl, rfl, rfl, rfl, hbytes, ?_⟩
      rw [State.endMark_congr hregs hmem]
      exact hend

/-- The same, for a channel in order as it stood before the command came. -/
theorem State.SameFor.push_taken (h : State.SameFor c s v) (hready : s.channelReady c = true) (hsealed : s.sealedLayer (s.chanRegion c) = none)
    (hmark : tblFind (s.markKey c (s.chan c).tail) s.marks = none) (who : Requester) (fin : Bool) (data : List Byte)
    (hfenced : (v.chan c).fenced.any (fun e => e.who == who) = false) :
    PushOutcome s (v.sluiceTake ⟨who, .push, c, fin, false, data⟩) who c fin data := by
  refine h.pushOutcome (State.pushOutcome_sluiceTake (h.channelReady hready) ?_ ?_ who fin data hfenced)
  · obtain ⟨_, _, _, rfl, -⟩ := h
    exact hsealed
  · obtain ⟨_, _, _, rfl, hchan⟩ := h
    rw [hchan]
    exact hmark

/-- The pushes of other issuers that wait for a fence do not hold this one's. -/
theorem any_filter_who_ne {l : List SluiceCmd} (who : Requester) : (l.filter fun e => e.who != who).any (fun e => e.who == who) = false := by
  rw [List.any_eq_false]
  intro e he
  rw [List.mem_filter, bne_iff_ne] at he
  rw [beq_iff_eq]
  exact he.2

theorem any_who_of_filter_nil {l : List SluiceCmd} {who : Requester} (h : (l.filter fun e => e.who == who) = []) :
    l.any (fun e => e.who == who) = false := by
  rw [List.any_eq_false]
  intro e he hwho
  exact absurd (h ▸ List.mem_filter.mpr ⟨he, hwho⟩) List.not_mem_nil

end

theorem State.exec_fenceMarkersAcked {s : State} (hlive : s.live = true) (who : Requester) (c : Nat) :
    exec (.fenceMarkersAcked who c) s = .next (s.keep scopePort (s.fenceAcked who c)) :=
  exec_act (f := fun s => s.fenceAcked who c) rfl hlive

/-- Settles O15: a PUSH that nothing holds is applied to a channel in order, in one of the three ways of `State.sluiceApply_push_…`; one with
FENCE is applied the same way once its fence has passed. -/
theorem pushStoresRefusesOrDiscards : Obligations.PushStoresRefusesOrDiscards := by
  intro s who c fin fence data hlive hready hsealed hmark hqueue x fenced
  obtain ⟨-, -, hhead, htail, hfails⟩ := State.channelReady_iff.mp hready
  have hstruck : (s.chan c).struck = s.chan c := Channel.struck_of_fails_none hhead htail hfails
  have hexec := State.exec_sluiceInstr hlive ⟨who, .push, c, fin, fence, data⟩
  have hreached := State.chan_reached s ⟨who, .push, c, fin, fence, data⟩
  dsimp only at hreached
  rw [hstruck] at hreached
  refine ⟨fun hwaiting hheld hnone hfence => ⟨_, hexec, ?_⟩, fun hwaiting hheld hfence => ⟨_, hexec, ?_⟩, fun hopen => ?_,
    fun hwaiting hheld hclosed hfenced => ⟨_, State.exec_fenceMarkersAcked hlive who c, ?_⟩⟩
  · subst hfence
    have hcommand : s.sluiceCommand (plainCmd ⟨who, .push, c, fin, false, data⟩) ⟨0, 0, 0, 0⟩ [] = _ :=
      State.sluiceCommand_of_idle (q := ⟨who, .push, c, fin, false, data⟩) hwaiting hheld hqueue
    obtain ⟨chans, cores, heq⟩ := State.reached_eq s ⟨who, .push, c, fin, false, data⟩
    rw [hcommand]
    refine PushOutcome.keep (State.SameFor.push_taken ⟨chans, cores, (s.chan c).fenced, heq, hreached⟩ hready hsealed hmark who fin data ?_)
    rw [hreached]
    exact any_who_of_filter_nil hnone
  · subst hfence
    have hcommand : s.sluiceCommand (plainCmd ⟨who, .push, c, fin, true, data⟩) ⟨0, 0, 0, 0⟩ [] = _ :=
      State.sluiceCommand_of_idle (q := ⟨who, .push, c, fin, true, data⟩) hwaiting hheld hqueue
    have htake (v : State) : v.sluiceTake ⟨who, .push, c, fin, true, data⟩ =
        v.setChan c { v.chan c with fenced := (v.chan c).fenced ++ [⟨who, .push, c, fin, true, data⟩] } := by
      unfold State.sluiceTake
      exact if_pos rfl
    obtain ⟨chans, cores, heq⟩ := State.reached_eq s ⟨who, .push, c, fin, true, data⟩
    rw [hcommand, htake, hreached, State.chan_keep (by decide), State.chan_setChan_self, heq]
    exact ⟨rfl, rfl, rfl, rfl⟩
  · rw [State.exec_fenceMarkersAcked hlive]
    have hsame : s.fenceAcked who c = s := by
      unfold State.fenceAcked
      dsimp only
      split
      · rfl
      · exact if_pos hopen
    rw [hsame, State.keep_self]
  · let u := s.setChan c { s.chan c with fenced := (s.chan c).fenced.filter fun e => e.who != who }
    have hu : u.chan c = { s.chan c with fenced := (s.chan c).fenced.filter fun e => e.who != who } := State.chan_setChan_self _ _ _
    have hsubmit : s.fenceAcked who c = u.sluiceSubmit ⟨who, .push, c, fin, false, data⟩ := by
      unfold State.fenceAcked
      dsimp only
      rw [show ((s.chan c).fenced.filter fun e => e.who == who) = _ from hfenced]
      exact if_neg (by rw [hclosed]; decide)
    rw [hsubmit, State.sluiceSubmit_of_idle (by rw [hu]; exact hwaiting) (by rw [hu]; exact hheld) hqueue]
    obtain ⟨cores, heq⟩ := u.sent_eq who
    have hsent : (u.sent who).chan c = u.chan c := State.chan_onSlcPort _ _ _ _
    rw [hu] at hsent
    refine PushOutcome.keep (State.SameFor.push_taken (s := s) ⟨u.chans, cores, _, heq, hsent⟩ hready hsealed hmark who fin data ?_)
    rw [hsent]
    exact any_filter_who_ne who

end Sys2Proof.Machine
end

section
namespace Sys2Proof.Machine

-- POP, PEEK, COUNT and DROP_PACKET (R116, R119, R120) -------------------------------------------------------------------------

/-- Dropping nothing leaves the pointers of a channel that passes the check of R121. -/
theorem Channel.afterDrop_zero {x : Channel} (hhead : x.head < 2 ^ 17) (hheadInv : x.headInv = flip17 x.head) :
    x.afterDrop 0 false = if x.inPacket then { x with resetCons := false, dropping := true } else { x with resetCons := false } := by
  unfold Channel.afterDrop Channel.moveHead
  simp only [Nat.add_zero, Nat.mod_eq_of_lt hhead, ← hheadInv, Bool.false_eq_true, if_false]

/-- What a DROP_PACKET does to HEAD, IN_PACKET and DROPPING (R120). -/
theorem Channel.afterDrop_fields (x : Channel) (n : Nat) (found : Bool) :
    (x.afterDrop n found).head = (x.head + n) % 2 ^ 17 ∧ (x.afterDrop n found).tail = x.tail ∧
      (x.afterDrop n found).inPacket = (!found && x.inPacket) ∧
      (x.afterDrop n found).dropping = (x.dropping || !found && x.inPacket) := by
  unfold Channel.afterDrop
  cases found with
  | true => exact ⟨rfl, rfl, rfl, (Bool.or_false _).symm⟩
  | false =>
    dsimp only
    rw [if_neg Bool.false_ne_true]
    split
    next hpacket => exact ⟨rfl, rfl, rfl, by rw [hpacket]; exact (Bool.or_true _).symm⟩
    next hpacket =>
      rw [Bool.not_eq_true] at hpacket
      exact ⟨rfl, rfl, rfl, by rw [hpacket]; exact (Bool.or_false _).symm⟩

/-- A channel whose answer waits for storage is otherwise as it was (R119). -/
theorem Channel.fields_of_waits {x y : Channel} {a : SluiceAnswer} (h : y = { x with waiting := some a }) :
    y.head = x.head ∧ y.tail = x.tail ∧ y.inPacket = x.inPacket ∧ y.dropping = x.dropping ∧ y.waiting = some a := by
  subst h
  exact ⟨rfl, rfl, rfl, rfl, rfl⟩

section
variable {s v : State} {c : Nat}

/-- The channel of a command that reaches it in order stands as it stood. -/
theorem State.sameFor_reached {q : SluiceCmd} (hready : s.channelReady q.channel = true) :
    (s.reached q).chan q.channel = s.chan q.channel ∧ State.SameFor q.channel s (s.reached q) := by
  obtain ⟨-, -, hhead, htail, hfails⟩ := State.channelReady_iff.mp hready
  have hchan : (s.reached q).chan q.channel = s.chan q.channel :=
    (State.chan_reached s q).trans (Channel.struck_of_fails_none hhead htail hfails)
  obtain ⟨chans, cores, heq⟩ := State.reached_eq s q
  exact ⟨hchan, chans, cores, (s.chan q.channel).fenced, heq, hchan⟩

/-- A command that is answered at once, from the state before it came: nothing but its channel, the ports and the output change. -/
theorem State.exec_answered {q : SluiceCmd} {a : SluiceAnswer} {u : State} {y : Channel} (hlive : s.live = true)
    (hready : s.channelReady q.channel = true) (hwaiting : (s.chan q.channel).waiting = none) (hheld : (s.chan q.channel).held = [])
    (hfenced : (s.chan q.channel).fenced.any (fun e => e.who == q.who) = false) (hqueue : s.slcPortQueue q.who = [])
    (hplain : plainCmd q = q) (hfence : (q.op == .push && q.fence) = false)
    (happly : (s.reached q).sluiceApply q = (a, false, u)) (hmem : u.mem = s.mem) (hout : u.out = s.out) (hchan : u.chan q.channel = y) :
    ∃ t, exec (sluiceInstr q) s = .next t ∧ t.mem = s.mem ∧ t.chan q.channel = y ∧ t.out = s.out ++ [.sluice a.who a.tag a.data] := by
  obtain ⟨hreached, -⟩ := State.sameFor_reached hready
  obtain ⟨cores, heq⟩ := u.sluiceAnswer_eq a (q.op == .pop || q.op == .peek)
  refine ⟨_, State.exec_sluiceInstr hlive q, ?_⟩
  rw [hplain, State.sluiceCommand_of_idle hwaiting hheld hqueue, State.sluiceTake_of_answer hfence (by rw [hreached]; exact hfenced) happly, heq,
    State.chan_keep (by decide), ← hmem, ← hout]
  exact ⟨rfl, hchan, rfl⟩

/-- A command whose answer waits for storage, from the state before it came (R119). -/
theorem State.exec_waits {q : SluiceCmd} {a : SluiceAnswer} {u : State} {y : Channel} (hlive : s.live = true)
    (hwaiting : (s.chan q.channel).waiting = none) (hheld : (s.chan q.channel).held = [])
    (hfenced : (s.chan q.channel).fenced.any (fun e => e.who == q.who) = false)
    (hplain : plainCmd q = q) (hfence : (q.op == .push && q.fence) = false)
    (happly : (s.reached q).sluiceApply q = (a, true, u.setChan q.channel y)) (hmem : u.mem = s.mem) (hout : u.out = s.out) :
    ∃ t, exec (sluiceInstr q) s = .next t ∧ t.mem = s.mem ∧ t.out = s.out ∧ t.chan q.channel = { y with waiting := some a } := by
  refine ⟨_, State.exec_sluiceInstr hlive q, ?_⟩
  rw [hplain, State.sluiceCommand_of_waits hwaiting hheld hfence hfenced happly, State.chan_keep (by decide), State.chan_setChan_self,
    State.chan_setChan_self]
  exact ⟨hmem, hout, rfl⟩

section
variable (hlive : s.live = true) (hready : s.channelReady c = true) (hwaiting : (s.chan c).waiting = none) (hheld : (s.chan c).held = [])
  {who : Requester} (hfenced : (s.chan c).fenced.any (fun e => e.who == who) = false)
include hlive hready hwaiting hheld hfenced

/-- A POP or PEEK of an empty channel is answered at once (R116). -/
theorem State.exec_read_empty {op : SluiceOp} (hop : op = .pop ∨ op = .peek) (hqueue : s.slcPortQueue who = []) (hcount : (s.chan c).count = 0) :
    ∃ t, exec (sluiceInstr ⟨who, op, c, false, false, []⟩) s = .next t ∧ t.mem = s.mem ∧
      t.chan c = { s.chan c with resetCons := false, emptyReads := satAdd 32 (s.chan c).emptyReads 1 } ∧
      t.out = s.out ++ [.sluice who (sluiceTag false false false (s.chan c).resetCons false false false c 0 0) noItem] := by
  obtain ⟨hchan, hsame⟩ := State.sameFor_reached (q := ⟨who, op, c, false, false, []⟩) hready
  dsimp only at hchan
  have happly := State.sluiceApply_read_empty (hsame.channelReady hready) who hop (by rw [hchan]; exact hcount)
  rw [hchan] at happly
  obtain ⟨_, _, _, heq, -⟩ := hsame
  refine State.exec_answered (q := ⟨who, op, c, false, false, []⟩) hlive hready hwaiting hheld hfenced hqueue ?_ ?_ happly ?_ ?_
    (State.chan_setChan_self _ _ _)
  · obtain rfl | rfl := hop <;> rfl
  · obtain rfl | rfl := hop <;> rfl
  · rw [heq]
    rfl
  · rw [heq]
    rfl

/-- A POP or PEEK of an item is answered when the storage read is done (R116, R119). -/
theorem State.exec_read_item {op : SluiceOp} (hop : op = .pop ∨ op = .peek) (hcount : 0 < (s.chan c).count)
    (hmark : tblFind (s.markKey c (s.chan c).head) s.marks = none)
    (hwords : ∀ k ∈ wordKeys (s.chanByte c (s.slotOffset c (s.chan c).head)) 64, tblFind k s.marks = none) :
    let y := (s.chan c).afterRead op (s.endMark c (s.chan c).head)
    ∃ t, exec (sluiceInstr ⟨who, op, c, false, false, []⟩) s = .next t ∧ t.mem = s.mem ∧ t.out = s.out ∧
      t.chan c = { y with waiting := some ⟨who,
        sluiceTag true (s.endMark c (s.chan c).head) false (s.chan c).resetCons false false false c y.count 0,
        memBytes s.mem (s.chanByte c (s.slotOffset c (s.chan c).head)) 64⟩ } := by
  obtain ⟨hchan, hsame⟩ := State.sameFor_reached (q := ⟨who, op, c, false, false, []⟩) hready
  dsimp only at hchan
  have hready' := hsame.channelReady hready
  obtain ⟨chans, cores, fenced, heq, -⟩ := hsame
  obtain ⟨u, hu, happly⟩ := State.sluiceApply_read_item hready' who hop (by rw [hchan]; exact hcount) (by rw [hchan, heq]; exact hmark)
    (by rw [hchan, heq]; exact hwords)
  rw [hchan] at happly
  have hend : (s.reached ⟨who, op, c, false, false, []⟩).endMark c (s.chan c).head = s.endMark c (s.chan c).head := by rw [heq]; rfl
  have hbyte : (s.reached ⟨who, op, c, false, false, []⟩).chanByte c
      ((s.reached ⟨who, op, c, false, false, []⟩).slotOffset c (s.chan c).head) = s.chanByte c (s.slotOffset c (s.chan c).head) := by rw [heq]; rfl
  have hmem : (s.reached ⟨who, op, c, false, false, []⟩).mem = s.mem := by rw [heq]
  have hout : u.out = s.out := by
    obtain ⟨_, _, rfl, -⟩ := hu
    rw [heq]
  rw [hend, hbyte, hmem] at happly
  refine State.exec_waits (q := ⟨who, op, c, false, false, []⟩) hlive hwaiting hheld hfenced ?_ ?_ happly (hu.mem.trans hmem) hout
  · obtain rfl | rfl := hop <;> rfl
  · obtain rfl | rfl := hop <;> rfl

/-- A COUNT is answered at once (R116). -/
theorem State.exec_count (hqueue : s.slcPortQueue who = []) :
    ∃ t, exec (sluiceInstr ⟨who, .count, c, false, false, []⟩) s = .next t ∧ t.mem = s.mem ∧ t.chan c = s.chan c ∧
      t.out = s.out ++ [.sluice who
        (sluiceTag false false false ((s.chan c).resetProd || (s.chan c).resetCons) false false false c (s.chan c).count 0) noItem] := by
  obtain ⟨hchan, hsame⟩ := State.sameFor_reached (q := ⟨who, .count, c, false, false, []⟩) hready
  dsimp only at hchan
  have happly := State.sluiceApply_count (hsame.channelReady hready) who
  rw [hchan] at happly
  obtain ⟨_, _, _, heq, -⟩ := hsame
  refine State.exec_answered (q := ⟨who, .count, c, false, false, []⟩) hlive hready hwaiting hheld hfenced hqueue rfl rfl happly ?_ ?_ hchan
  · rw [heq]
  · rw [heq]

/-- How far from HEAD the first end mark stands (R120). -/
def State.ended (s : State) (c : Nat) : Option Nat :=
  (List.range (s.chan c).count).find? fun j => s.endMark c (((s.chan c).head + j) % 2 ^ 17)

/-- The items that a DROP_PACKET removes, given where the first end mark stands (R120). -/
def Channel.removed (x : Channel) (ended : Option Nat) : Nat :=
  match ended with
  | some j => j + 1
  | none => x.count

/-- A DROP_PACKET is answered when the storage access is done (R119, R120). -/
theorem State.exec_dropPacket {ended : Option Nat} (hended : s.ended c = ended)
    (hmarks : ∀ j, j < (s.chan c).count → tblFind (s.markKey c (((s.chan c).head + j) % 2 ^ 17)) s.marks = none) :
    let n := (s.chan c).removed ended
    ∃ t, exec (sluiceInstr ⟨who, .drop, c, false, false, []⟩) s = .next t ∧ t.mem = s.mem ∧ t.out = s.out ∧
      t.chan c = { (s.chan c).afterDrop n ended.isSome with
        waiting := some ⟨who, sluiceTag false false false (s.chan c).resetCons false false false c ((s.chan c).count - n) n, noItem⟩ } := by
  obtain ⟨-, -, hhead, -, hfails⟩ := State.channelReady_iff.mp hready
  obtain ⟨hchan, hsame⟩ := State.sameFor_reached (q := ⟨who, .drop, c, false, false, []⟩) hready
  dsimp only at hchan
  have hready' := hsame.channelReady hready
  obtain ⟨chans, cores, fenced, heq, -⟩ := hsame
  by_cases hcount : (s.chan c).count = 0
  · have happly := State.sluiceApply_drop_empty hready' who (by rw [hchan]; exact hcount)
    have hnone : ended = none := by
      rw [← hended, State.ended, hcount]
      rfl
    subst hnone
    rw [hchan, ← Channel.afterDrop_zero hhead (Channel.copies_of_fails_none hfails).1] at happly
    rw [Channel.removed, hcount]
    refine State.exec_waits (q := ⟨who, .drop, c, false, false, []⟩) hlive hwaiting hheld hfenced rfl rfl happly ?_ ?_
    · rw [heq]
    · rw [heq]
  · obtain ⟨u, hu, hscan⟩ := State.scanMarks_of_unmarked (c := c) (s.chan c).count (s := s.reached ⟨who, .drop, c, false, false, []⟩)
      (p := (s.chan c).head) (seen := 0) hhead (by rw [heq]; exact hmarks)
    have hfound : (s.reached ⟨who, .drop, c, false, false, []⟩).scanMarks c (s.chan c).count (s.chan c).head 0 =
        (some ((s.chan c).removed ended, ended.isSome), u) := by
      rw [hscan, show (s.reached ⟨who, .drop, c, false, false, []⟩).endMark = s.endMark by rw [heq]; rfl, ← State.ended, hended]
      cases ended with
      | none => simp only [Nat.zero_add, Channel.removed, Option.isSome_none]
      | some j => simp only [Nat.zero_add, Channel.removed, Option.isSome_some]
    have happly := State.sluiceApply_drop_items hready' who (by rw [hchan]; exact hcount) (by rw [hchan]; exact hfound)
    rw [hchan] at happly
    have hout : u.out = s.out := by
      obtain ⟨_, _, rfl, -⟩ := hu
      rw [heq]
    refine State.exec_waits (q := ⟨who, .drop, c, false, false, []⟩) hlive hwaiting hheld hfenced rfl rfl happly (hu.mem.trans ?_) hout
    rw [heq]

end

end

/-- R116, R119. -/
theorem popPeekAndCountAnswer : Claims.PopPeekAndCountAnswer := by
  intro s who c hlive hready hwaiting hheld hfenced hqueue x
  obtain ⟨-, -, -, htail, -⟩ := State.channelReady_iff.mp hready
  refine ⟨fun hcount i hi => ?_, State.exec_count hlive hready hwaiting hheld hfenced hqueue, fun hcount hmark hwords => ?_⟩
  · obtain rfl | hi := List.mem_cons.mp hi
    · exact State.exec_read_empty hlive hready hwaiting hheld hfenced (.inl rfl) hqueue hcount
    · obtain rfl := List.mem_singleton.mp hi
      exact State.exec_read_empty hlive hready hwaiting hheld hfenced (.inr rfl) hqueue hcount
  · intro item mark
    obtain ⟨t, hexec, hmem, hout, hchan⟩ := State.exec_read_item hlive hready hwaiting hheld hfenced (.inl rfl) hcount hmark hwords
    have hcounted : (x.afterRead .pop mark).count = x.count - 1 := Channel.count_moveHead htail hcount
    refine ⟨⟨t, hexec, hmem, hout, ?_⟩, State.exec_read_item hlive hready hwaiting hheld hfenced (.inr rfl) hcount hmark hwords⟩
    rw [← hcounted]
    exact hchan

/-- R120. -/
theorem dropPacketRemovesOnePacket : Claims.DropPacketRemovesOnePacket := by
  intro s who c hlive hready hwaiting hheld hfenced hmarks x ended n
  have hended : s.ended c = ended := rfl
  clear_value ended
  have hn : n = x.removed ended := by
    cases ended with
    | some j => rfl
    | none => rfl
  obtain ⟨t, hexec, hmem, hout, hchan⟩ := State.exec_dropPacket hlive hready hwaiting hheld hfenced hended hmarks
  rw [hn]
  obtain ⟨hhead, htail, hpacket, hdropping⟩ := x.afterDrop_fields (x.removed ended) ended.isSome
  rw [Option.not_isSome] at hpacket hdropping
  refine ⟨t, hexec, hmem, hout, ?_⟩
  obtain ⟨hhead', htail', hpacket', hdropping', hwaits⟩ := Channel.fields_of_waits hchan
  exact ⟨hhead'.trans hhead, htail'.trans htail, hpacket'.trans hpacket, hdropping'.trans hdropping, hwaits⟩

/-- Settles O16: a read or a drop finds its end marks in bitmap words that hold no error mark, so that only the banks change beside the
channel. -/
theorem popPeekCountAndDropAnswer : Obligations.PopPeekCountAndDropAnswer :=
  ⟨popPeekAndCountAnswer, dropPacketRemovesOnePacket⟩

end Sys2Proof.Machine
end

section
namespace Sys2Proof.Machine

-- Storage done (R119) -------------------------------------------------------------------------------------------------------

/-- What a command may change is as its meaning left it. -/
theorem State.same_keep {w : List Part} {p : Part} (h : p ∈ w) (s t : State) : t.same (s.keep w t) p := by
  cases p
  all_goals exact if_pos h

theorem State.sluiceRelease_of_nil {s : State} {c : Nat} (h : (s.chan c).held = []) (fuel : Nat) : State.sluiceRelease c fuel s = s := by
  cases fuel with
  | zero => rfl
  | succ fuel =>
    unfold State.sluiceRelease
    dsimp only
    rw [h]

theorem State.sluiceRelease_of_waits {s : State} {c : Nat} (h : (s.chan c).waiting.isSome = true) (fuel : Nat) :
    State.sluiceRelease c fuel s = s := by
  cases fuel with
  | zero => rfl
  | succ fuel =>
    unfold State.sluiceRelease
    dsimp only
    split
    · rfl
    · exact if_pos h

/-- The oldest held command is taken when no access waits (R119). -/
theorem State.sluiceRelease_cons {s : State} {c : Nat} {q : SluiceCmd} {rest : List SluiceCmd} (hheld : (s.chan c).held = q :: rest)
    (hwaiting : (s.chan c).waiting = none) (fuel : Nat) :
    State.sluiceRelease c (fuel + 1) s =
      State.sluiceRelease c fuel ((s.setChan c { s.chan c with held := rest }).sluiceTake q) := by
  conv_lhs => unfold State.sluiceRelease
  dsimp only
  rw [hheld]
  exact if_neg (by rw [hwaiting]; decide)

/-- Ports where no request word waits send nothing. -/
theorem State.slcPortNext_foldl_of_empty {s : State} {ws : List Requester} (h : ∀ w ∈ ws, s.slcPortQueue w = []) :
    ws.foldl (fun s w => s.slcPortNext w (s.slcPortQueue w).length) s = s := by
  induction ws with
  | nil => rfl
  | cons w ws ih =>
    rw [List.foldl_cons, State.slcPortNext_of_empty (h w List.mem_cons_self)]
    exact ih fun w hw => h w (List.mem_cons_of_mem _ hw)

section
variable {s : State} {c : Nat} {a : SluiceAnswer}

/-- The waiting answer leaves (R119). -/
def State.freed (s : State) (c : Nat) (a : SluiceAnswer) : State :=
  (s.setChan c { s.chan c with waiting := none }).sluiceAnswer a (bitAt a.tag 0)

theorem State.sameWaits_freed (s : State) (c : Nat) (a : SluiceAnswer) : s.SameWaits (s.freed c a) :=
  ((State.SameWaits.refl s).of_cores (t := s.setChan c { s.chan c with waiting := none }) rfl).sluiceAnswer

theorem State.freed_eq (s : State) (c : Nat) (a : SluiceAnswer) :
    (s.freed c a).chan c = { s.chan c with waiting := none } ∧ (s.freed c a).out = s.out ++ [.sluice a.who a.tag a.data] ∧
      (s.freed c a).mem = s.mem := by
  obtain ⟨cores, heq⟩ := (s.setChan c { s.chan c with waiting := none }).sluiceAnswer_eq a (bitAt a.tag 0)
  rw [State.freed, heq]
  exact ⟨State.chan_setChan_self s c _, rfl, rfl⟩

theorem State.storageDone_eq (h : (s.chan c).waiting = some a) :
    s.storageDone c = (a.who :: (s.chan c).held.map fun q => q.who).eraseDups.foldl (fun s w => s.slcPortNext w (s.slcPortQueue w).length)
      (State.sluiceRelease c (s.chan c).held.length (s.freed c a)) := by
  unfold State.storageDone
  dsimp only
  rw [h]
  rfl

/-- Where no request word waits at the ports of those answered, the commands released are all that follows. -/
theorem State.storageDone_of_idle (h : (s.chan c).waiting = some a) (hqueue : s.slcPortQueue a.who = [])
    (hqueues : ∀ q ∈ (s.chan c).held, s.slcPortQueue q.who = [])
    (hwaits : s.SameWaits (State.sluiceRelease c (s.chan c).held.length (s.freed c a))) :
    s.storageDone c = State.sluiceRelease c (s.chan c).held.length (s.freed c a) := by
  rw [State.storageDone_eq h]
  refine State.slcPortNext_foldl_of_empty fun w hw => ?_
  rw [hwaits.queue]
  obtain rfl | hw := List.mem_cons.mp (List.mem_eraseDups.mp hw)
  · exact hqueue
  · obtain ⟨q, hq, rfl⟩ := List.mem_map.mp hw
    exact hqueues q hq

/-- With no command held, the waiting answer leaves and nothing follows. -/
theorem State.storageDone_of_alone (h : (s.chan c).waiting = some a) (hheld : (s.chan c).held = []) (hqueue : s.slcPortQueue a.who = []) :
    s.storageDone c = s.freed c a := by
  have hrelease : State.sluiceRelease c (s.chan c).held.length (s.freed c a) = s.freed c a := by
    rw [hheld]
    rfl
  rw [State.storageDone_of_idle h hqueue (by rw [hheld]; exact fun _ h => absurd h List.not_mem_nil)
    (by rw [hrelease]; exact s.sameWaits_freed c a), hrelease]

end

theorem State.exec_sluiceStorageDone {s : State} (hlive : s.live = true) (c : Nat) :
    exec (.sluiceStorageDone c) s = .next (s.keep scopePort (s.storageDone c)) :=
  exec_act (f := fun s => s.storageDone c) rfl hlive

/-- R119, R255. -/
theorem storageDoneAnswersAndResumes : Claims.StorageDoneAnswersAndResumes := by
  intro s c hlive
  refine ⟨fun hnone => ?_, fun a hwaiting => ?_⟩
  · have hsame : s.storageDone c = s := by
      unfold State.storageDone
      dsimp only
      rw [hnone]
    rw [State.exec_sluiceStorageDone hlive, hsame, State.keep_self]
  intro x freed
  refine ⟨fun q hq hhead htail hplain => ⟨_, State.exec_sluiceInstr hlive q, ?_⟩,
    _, State.exec_sluiceStorageDone hlive c, fun hheld hqueue => ?_, fun q rest hheld hqueue hqueues => ?_, ?_⟩
  · subst hq
    obtain ⟨_, _, heq⟩ := s.reached_eq q
    rw [plainCmd_eq hplain, State.sluiceCommand_of_held (by rw [hwaiting]; rfl), State.chan_keep (by decide), State.chan_setChan_self, heq]
    exact ⟨rfl, rfl, rfl, Nat.mod_eq_of_lt hhead, Nat.mod_eq_of_lt htail⟩
  · obtain ⟨hchan, hout, hmem⟩ := s.freed_eq c a
    rw [State.storageDone_of_alone hwaiting hheld hqueue, State.chan_keep (by decide), hchan]
    exact ⟨rfl, hout, hmem⟩
  · intro u hstop p hp
    obtain ⟨hchan, -, -⟩ := s.freed_eq c a
    have hrelease : State.sluiceRelease c (s.chan c).held.length (s.freed c a) = u := by
      rw [show (s.chan c).held = q :: rest from hheld, List.length_cons, State.sluiceRelease_cons (by rw [hchan]; exact hheld) (by rw [hchan])]
      obtain hwaits | hnil := hstop
      · exact State.sluiceRelease_of_waits hwaits _
      · exact State.sluiceRelease_of_nil hnil _
    have hwaits : s.SameWaits u :=
      ((s.sameWaits_freed c a).of_cores (t := freed.setChan c { freed.chan c with held := rest }) rfl).sluiceTake
    rw [State.storageDone_of_idle hwaiting hqueue hqueues (by rw [hrelease]; exact hwaits), hrelease]
    exact State.same_keep hp s u
  · intro u v p hp
    rw [show s.storageDone c = v from State.storageDone_eq hwaiting]
    exact State.same_keep hp s v

-- Channels out of service (R116, R121, R122) ----------------------------------------------------------------------------------

theorem plainCmd_fence {q : SluiceCmd} (h : q.fence = false) : (plainCmd q).fence = false := by
  unfold plainCmd
  split
  · exact h
  · rfl

section
open State.Canonical (of_def)
variable {s : State} {q : SluiceCmd}

/-- A command that finds ENABLE clear (R116). -/
theorem State.sluiceApply_disabled (hoff : s.chanOn q.channel = false) :
    s.sluiceApply q =
      (⟨q.who, sluiceTag false false false false false false true q.channel (s.chan q.channel).count 0, noItem⟩, false, s) := by
  refine of_def (f := @State.sluiceApply) (fun f => f s q = _) (by delta State.sluiceApply; exact rfl) ?_
  exact if_pos (by rw [hoff]; rfl)

/-- A command that finds the pointer copies or COUNT wrong (R121, R122). -/
theorem State.sluiceApply_failed (hon : s.chanOn q.channel = true)
    (hmapped : s.storageMapped (s.chanRegion q.channel) (s.chanStart q.channel) (s.chanDepth q.channel) = true) {cause : Nat}
    (hfails : (s.chan q.channel).fails (s.chanDepth q.channel) = some cause) :
    s.sluiceApply q = ((s.sluiceReset q cause).1, false, (s.sluiceReset q cause).2) := by
  refine of_def (f := @State.sluiceApply) (fun f => f s q = _) (by delta State.sluiceApply; exact rfl) ?_
  refine (if_neg (by rw [hon]; decide)).trans ((if_neg (by rw [hmapped]; decide)).trans ?_)
  rw [hfails]

end

/-- A channel that has been reset and has told one side of it (R122). -/
theorem Channel.report_reset (x : Channel) (op : SluiceOp) :
    let y := (x.reset.report op).2
    y.count = 0 ∧ y.head = 0 ∧ y.resets = satAdd 8 x.resets 1 ∧ y.resetProd = (op != .push) ∧ y.resetCons = (op == .push || op == .count) := by
  cases op <;> exact ⟨Channel.count_of_zero rfl rfl, rfl, rfl, rfl, rfl⟩

theorem State.sluiceTake_eq {s u : State} {q : SluiceCmd} {a : SluiceAnswer} (hfence : (q.op == .push && q.fence) = false)
    (hfenced : (s.chan q.channel).fenced.any (fun e => e.who == q.who) = false) (happly : s.sluiceApply q = (a, false, u)) :
    ∃ cores, s.sluiceTake q = { u with out := u.out ++ [Output.sluice a.who a.tag a.data], cores := cores } := by
  obtain ⟨cores, heq⟩ := u.sluiceAnswer_eq a (q.op == .pop || q.op == .peek)
  exact ⟨cores, (State.sluiceTake_of_answer hfence hfenced happly).trans heq⟩

/-- The reset of a channel that a command finds wrong, with its record (R122). -/
theorem State.sluiceReset_eq (s : State) (q : SluiceCmd) (cause : Nat) :
    let x := s.chan q.channel
    let t := (s.sluiceReset q cause).2
    t.chan q.channel = (x.reset.report q.op).2 ∧ t.mem = s.mem ∧ t.out = s.out ∧
      Reports s t (0x1051 + q.channel % 4 * 0x100) Code.channelReset none (q.channel + cause * 2 ^ 12 + x.head * 2 ^ 16 + x.tail * 2 ^ 33) :=
  ⟨State.chan_setChan_self _ _ _, rfl, rfl, (s.fault_reports _ _ _ _).congr rfl rfl rfl rfl rfl⟩

section
variable {s : State} {q : SluiceCmd} (hfence : (q.op == .push && q.fence) = false)
  (hfenced : (s.chan q.channel).fenced.any (fun e => e.who == q.who) = false)
include hfence hfenced

/-- A command taken by a channel whose ENABLE is clear (R116). -/
theorem State.sluiceTake_disabled (hoff : s.chanOn q.channel = false) :
    let t := s.sluiceTake q
    t.chan q.channel = s.chan q.channel ∧ t.mem = s.mem ∧ t.flt = s.flt ∧
      t.out = s.out ++ [.sluice q.who (sluiceTag false false false false false false true q.channel (s.chan q.channel).count 0) noItem] := by
  obtain ⟨cores, heq⟩ := State.sluiceTake_eq hfence hfenced (State.sluiceApply_disabled hoff)
  rw [heq]
  exact ⟨rfl, rfl, rfl, rfl⟩

/-- A command taken by a channel that fails its check (R121, R122). -/
theorem State.sluiceTake_failed (hon : s.chanOn q.channel = true)
    (hmapped : s.storageMapped (s.chanRegion q.channel) (s.chanStart q.channel) (s.chanDepth q.channel) = true) {cause : Nat}
    (hfails : (s.chan q.channel).fails (s.chanDepth q.channel) = some cause) :
    let x := s.chan q.channel
    let t := s.sluiceTake q
    t.chan q.channel = (x.reset.report q.op).2 ∧ t.mem = s.mem ∧
      Reports s t (0x1051 + q.channel % 4 * 0x100) Code.channelReset none
        (q.channel + cause * 2 ^ 12 + x.head * 2 ^ 16 + x.tail * 2 ^ 33) ∧
      t.out = s.out ++ [.sluice q.who (sluiceTag false false false true false false false q.channel 0 0) noItem] := by
  obtain ⟨cores, heq⟩ := State.sluiceTake_eq hfence hfenced (State.sluiceApply_failed hon hmapped hfails)
  obtain ⟨hreset, hmem, hout, hreports⟩ := s.sluiceReset_eq q cause
  rw [heq]
  exact ⟨hreset, hmem, hreports.congr rfl rfl rfl rfl rfl, congrArg (· ++ _) hout⟩

end

/-- R116, R121, R122. -/
theorem disabledOrFailedChannelAppliesNothing : Claims.DisabledOrFailedChannelAppliesNothing := by
  intro s q hlive hfence hwaiting hheld hfenced hhead htail hheadInv htailInv hqueue x
  have hexec := State.exec_sluiceInstr hlive q
  have hplain := plainCmd_fence hfence
  rw [← plainCmd_who q] at hfenced hqueue ⊢
  rw [← plainCmd_op q]
  have hx : x = s.chan (plainCmd q).channel := by rw [plainCmd_channel]
  rw [← plainCmd_channel q] at hwaiting hheld hfenced hhead htail hheadInv htailInv ⊢
  clear_value x
  revert hexec hplain
  generalize plainCmd q = r at *
  intro hexec hplain
  have hfence : (r.op == .push && r.fence) = false := by rw [hplain, Bool.and_false]
  have hchan : (s.reached r).chan r.channel = x := by
    rw [State.chan_reached, Channel.struck_eq hhead hheadInv htail htailInv, hx]
  rw [State.sluiceCommand_of_idle hwaiting hheld hqueue] at hexec
  rw [← hx, ← hchan] at hfenced
  obtain ⟨chans, cores, hreached⟩ := s.reached_eq r
  have hmem : (s.reached r).mem = s.mem := by rw [hreached]
  have hout : (s.reached r).out = s.out := by rw [hreached]
  have hflt : (s.reached r).flt = s.flt := by rw [hreached]
  refine ⟨fun hoff => ⟨_, hexec, ?_⟩, fun hon hmapped cause hfails => ⟨_, hexec, ?_⟩⟩
  · obtain ⟨hkept, hmem', hflt', hanswer⟩ := State.sluiceTake_disabled hfence hfenced (by rw [hreached]; exact hoff)
    rw [hchan] at hkept hanswer
    rw [State.chan_keep (by decide)]
    exact ⟨hkept, hmem'.trans hmem, hflt'.trans hflt, hout ▸ hanswer⟩
  · obtain ⟨hreset, hmem', hreports, hanswer⟩ := State.sluiceTake_failed hfence hfenced (by rw [hreached]; exact hon)
      (by rw [hreached]; exact hmapped) (cause := cause) (by rw [hchan, hreached]; exact hfails)
    rw [hchan] at hreset hreports
    rw [State.chan_keep (by decide), hreset]
    obtain ⟨hcount, hhead, hresets, hprod, hcons⟩ := x.report_reset r.op
    exact ⟨hmem'.trans hmem, hcount, hhead, hresets, hprod, hcons,
      hreports.congr hflt (by rw [hreached]; rfl) (by rw [hreached]) (by rw [hreached]) rfl, hout ▸ hanswer⟩

end Sys2Proof.Machine
end

section
namespace Sys2Proof.Machine

-- The set-up offsets of the Sluice ports (R255) -----------------------------------------------------------------------------

/-- How many offsets the instances of these dimensions span. -/
def dimsExtent : List (Nat × Nat) → Nat
  | [] => 1
  | (count, stride) :: _ => count * stride

theorem onInstance_lt {ds : List (Nat × Nat)} {o : Nat} (hpos : ∀ e ∈ ds, 0 < e.2) (h : onInstance ds o = true) : o < dimsExtent ds := by
  cases ds with
  | nil =>
    rw [onInstance, beq_iff_eq] at h
    rw [h]
    exact Nat.one_pos
  | cons e ds =>
    rw [onInstance] at h
    split at h
    next hlt => exact (Nat.div_lt_iff_lt_mul (hpos e List.mem_cons_self)).mp hlt
    next => exact absurd h Bool.false_ne_true

/-- The rows of the clusters' block repeat for each of 32 clusters, and leave the window of the Sluice ports free. -/
theorem regRows4_leave_ports : ∀ d ∈ regRows 4, d.dims.head? = some (32, 65536) ∧ (∀ e ∈ d.dims, 0 < e.2) ∧ 0x4000000 ≤ d.base ∧
    (d.base + dimsExtent d.dims.tail ≤ 0x4000200 ∨ 0x4000600 ≤ d.base ∧ d.base + dimsExtent d.dims.tail ≤ 0x4010200) := by
  decide

/-- The set-up offset of word `o` of the Sluice port of core `k` of cluster `n`. -/
def slcPortAt (n k o : Nat) : Nat := 0x4000200 + n * 0x10000 + k * 0x100 + o

section
variable {n k o : Nat} (hn : n < 32) (hk : k < 4) (ho : o < 0x100)

theorem slcPortAt_eq (n k o : Nat) : slcPortAt n k o = 0x4000200 + n * 0x10000 + k * 0x100 + o := rfl

include hk ho

theorem slcPortAt_place : slcPortAt n k o % 0x10000 = 0x200 + k * 0x100 + o := by
  rw [slcPortAt_eq]
  omega

/-- The core and the word that an offset in the window of the Sluice ports names. -/
theorem slcPortAt_core : (slcPortAt n k o % 0x10000 - 0x200) / 0x100 = k ∧ slcPortAt n k o % 0x10000 % 0x100 = o := by
  rw [slcPortAt_place hk ho]
  omega

/-- A load from a Sluice port waits for no atomic. -/
theorem State.atomLoadWaits_slcPort (s : State) : s.atomLoadWaits (slcPortAt n k o) = false := by
  have hplace := slcPortAt_place (n := n) hk ho
  have hbelow : decide (0x600 ≤ slcPortAt n k o % 0x10000) = false := by
    rw [hplace, decide_eq_false_iff_not]
    omega
  unfold State.atomLoadWaits
  dsimp only
  rw [hbelow, Bool.and_false, Bool.false_and, Bool.false_and, Bool.false_and]

include hn

theorem slcPortAt_block : slcPortAt n k o / 0x1000000 = 4 := by
  rw [slcPortAt_eq]
  omega

theorem slcPortAt_instance : setupInstance (slcPortAt n k o) = n := by
  rw [setupInstance, slcPortAt_eq]
  omega

theorem slcPortAt_lt : slcPortAt n k o < 0x10000000 := by
  rw [slcPortAt_eq]
  omega

theorem coreSetup_slcPortAt : coreSetup n (slcPortAt n k o) = some (slcPortAt n k o) := by
  unfold coreSetup
  dsimp only
  rw [slcPortAt_block hn hk ho, slcPortAt_instance hn hk ho, if_pos (by rw [beq_self_eq_true n]; rfl)]
  rfl

theorem absentInstance_slcPortAt {s : State} (hpresent : s.clusterPresent n = true) : s.absentInstance (slcPortAt n k o) = false := by
  unfold State.absentInstance
  dsimp only
  rw [slcPortAt_instance hn hk ho, hpresent, Bool.not_true, Bool.and_false]

theorem regDescAt_slcPortAt : regDescAt (slcPortAt n k o) = none := by
  unfold regDescAt
  rw [slcPortAt_block hn hk ho, List.find?_eq_none]
  intro d hd hholds
  obtain ⟨hhead, hpos, hbase, hfree⟩ := regRows4_leave_ports d hd
  obtain ⟨ds, hds⟩ := List.head?_eq_some_iff.mp hhead
  rw [hds] at hholds hpos hfree
  rw [Bool.and_eq_true, decide_eq_true_eq, onInstance] at hholds
  obtain ⟨hle, hholds⟩ := hholds
  split at hholds
  next =>
    have hlt := onInstance_lt (fun e he => hpos e (List.mem_cons_of_mem _ he)) hholds
    rw [List.tail_cons] at hfree
    have hspan := slcPortAt_place (n := n) hk ho
    rw [slcPortAt_eq] at hle hlt hspan
    omega
  next => exact absurd hholds Bool.false_ne_true

/-- A core's write to a word of its Sluice port (R214, R255). -/
theorem State.setupWriteAt_slcPort {s : State} (hpresent : s.clusterPresent n = true) (v : Nat) :
    s.setupWriteAt (.core n k) (setupBase + slcPortAt n k o) v [] [] = s.slcPortWrite n k o v := by
  obtain ⟨hcore, hword⟩ := slcPortAt_core (n := n) hk ho
  have hplace := slcPortAt_place (n := n) hk ho
  rw [State.setupWriteAt_core s n k (slcPortAt_lt hn hk ho), coreSetup_slcPortAt hn hk ho]
  dsimp only
  rw [State.writeOffset, absentInstance_slcPortAt hn hk ho hpresent, regDescAt_slcPortAt hn hk ho, if_neg Bool.false_ne_true]
  rw [State.windowWrite, slcPortAt_block hn hk ho, slcPortAt_instance hn hk ho, hcore, hword]
  dsimp only
  rw [if_neg (by rw [hplace, Bool.and_eq_true, decide_eq_true_eq, decide_eq_true_eq]; omega),
    if_pos (by
      rw [hplace, isCore, Bool.and_true, Bool.and_eq_true, decide_eq_true_eq, decide_eq_true_eq]
      omega)]
  rfl

/-- What stands at a word of a Sluice port (R255). -/
theorem State.setupRead_slcPort {s : State} (hpresent : s.clusterPresent n = true) :
    s.setupRead (slcPortAt n k o) = s.slcPortRead n k o := by
  obtain ⟨hcore, hword⟩ := slcPortAt_core (n := n) hk ho
  have hplace := slcPortAt_place (n := n) hk ho
  have hblock := slcPortAt_block hn hk ho
  have hmirrored : mirrored (slcPortAt n k o) = slcPortAt n k o := by
    unfold mirrored
    dsimp only
    rw [hblock]
    rfl
  rw [State.setupRead, hmirrored, absentInstance_slcPortAt hn hk ho hpresent, regDescAt_slcPortAt hn hk ho, if_neg Bool.false_ne_true]
  unfold State.windowRead
  dsimp only
  rw [hblock, slcPortAt_instance hn hk ho, hcore, hword]
  refine if_pos ?_
  rw [hplace, Bool.and_eq_true, Bool.and_eq_true, decide_eq_true_eq, decide_eq_true_eq, decide_eq_true_eq]
  omega

end

/-- A load from TAG waits until the answer has arrived (R255). -/
theorem State.tagLoadWaits_slcPort {n k : Nat} (hn : n < 32) (hk : k < 4) (s : State) :
    s.tagLoadWaits (slcPortAt n k 8) = (s.core (4 * n + k)).slcTag.isNone := by
  obtain ⟨hcore, hword⟩ := slcPortAt_core (n := n) hk (o := 8) (by decide)
  have hplace := slcPortAt_place (n := n) hk (o := 8) (by decide)
  have hin : decide (0x200 ≤ slcPortAt n k 8 % 0x10000) = true ∧ decide (slcPortAt n k 8 % 0x10000 < 0x600) = true := by
    rw [hplace, decide_eq_true_eq, decide_eq_true_eq]
    omega
  unfold State.tagLoadWaits
  dsimp only
  rw [hcore, hword, slcPortAt_block hn hk (by decide), slcPortAt_instance hn hk (by decide), hin.1, hin.2]
  rfl

-- A request word at the port (R114, R255) -----------------------------------------------------------------------------------

/-- The code of a Sluice command (R114). -/
def requestCode : SluiceOp → Nat
  | .push => 1
  | .pop => 2
  | .peek => 3
  | .drop => 4
  | .count => 5

theorem slcRequest_eq (q : SluiceCmd) :
    slcRequest q = requestCode q.op + b2n q.pktEnd * 2 ^ 4 + b2n q.fence * 2 ^ 5 + q.channel * 2 ^ 8 := by
  unfold slcRequest
  cases q.op with
  | push | pop | peek | drop | count => rfl

theorem requestCode_lt (op : SluiceOp) : requestCode op < 16 := by
  cases op with
  | push | pop | peek | drop | count => decide

theorem b2n_lt_two (b : Bool) : b2n b < 2 := by
  cases b with
  | false | true => decide

/-- The fields of a request word. -/
theorem slcRequest_fields {q : SluiceCmd} (hchannel : q.channel < 4096) :
    slcRequest q % 16 = requestCode q.op ∧ bitsOf (slcRequest q) 8 12 = q.channel ∧ bitAt (slcRequest q) 4 = q.pktEnd ∧
      bitAt (slcRequest q) 5 = q.fence := by
  have hcode := requestCode_lt q.op
  have hend := b2n_lt_two q.pktEnd
  have hfence := b2n_lt_two q.fence
  rw [slcRequest_eq]
  simp only [bitsOf, bitAt, Nat.shiftRight_eq_div_pow, Nat.testBit_eq_decide_div_mod_eq]
  refine ⟨by omega, by omega, ?_, ?_⟩
  · rw [show (requestCode q.op + b2n q.pktEnd * 2 ^ 4 + b2n q.fence * 2 ^ 5 + q.channel * 2 ^ 8) / 2 ^ 4 % 2 = b2n q.pktEnd by omega]
    cases q.pktEnd with | false | true => rfl
  · rw [show (requestCode q.op + b2n q.pktEnd * 2 ^ 4 + b2n q.fence * 2 ^ 5 + q.channel * 2 ^ 8) / 2 ^ 5 % 2 = b2n q.fence by omega]
    cases q.fence with | false | true => rfl

theorem take_payload {data : List Byte} (h : data.length = 64) : (data ++ noItem).take 64 = data := by
  rw [List.take_append_of_le_length h.ge, List.take_of_length_le h.le]

section
variable {s : State} {n k : Nat} {q : SluiceCmd} (hwho : q.who = .core n k) (hchannel : q.channel < 4096)
  (hplain : q.op ≠ .push → q.pktEnd = false ∧ q.fence = false ∧ q.data = [])
  (hpush : q.op = .push → (s.core (4 * n + k)).slcData.length = 64 ∧ q.data = (s.core (4 * n + k)).slcData)
include hwho hchannel hplain hpush

/-- The port makes the command that a request word stands for. -/
theorem State.slcPortRequest_slcRequest :
    s.slcPortRequest n k (slcRequest q) =
      if (s.core (4 * n + k)).slcBusy then
        s.setCore (4 * n + k) { s.core (4 * n + k) with slcWait := (s.core (4 * n + k)).slcWait ++ [q] }
      else s.sluiceSubmit q := by
  obtain ⟨hcode, hch, hend, hfence⟩ := slcRequest_fields hchannel
  generalize slcRequest q = v at hcode hch hend hfence
  obtain ⟨who, op, channel, pktEnd, fence, data⟩ := q
  dsimp only at hwho hplain hpush hcode hch hend hfence
  subst hwho
  unfold State.slcPortRequest
  dsimp only
  cases op with
  | push =>
    obtain ⟨hlength, rfl⟩ := hpush rfl
    rw [hcode, hch, hend, hfence, take_payload hlength]
    rfl
  | pop | peek | drop | count =>
    obtain ⟨rfl, rfl, rfl⟩ := hplain nofun
    rw [hcode, hch]
    rfl

end

-- Loads from TAG (R255) ---------------------------------------------------------------------------------------------------

theorem State.core_onCore (s : State) (i j : Nat) (f : CoreState → CoreState) :
    (s.onCore i f).core j = if j = i then f (s.core j) else s.core j := by
  split
  next h =>
    subst h
    exact State.core_setCore_self _ _ _
  next h => exact State.core_setCore_ne h _ _

/-- The loads that waited return at every core of their cluster. -/
theorem State.core_loadsReturn (s : State) (n : Nat) {k : Nat} (hk : k < 4) (val : Nat → Option Nat) :
    (s.loadsReturn n val).core (4 * n + k) = (s.core (4 * n + k)).loadsReturn val := by
  have hrange : List.range 4 = [0, 1, 2, 3] := rfl
  simp only [State.loadsReturn, hrange, List.foldl_cons, List.foldl_nil, State.core_onCore]
  interval_cases k <;> simp

theorem CoreState.writeX_fencing (c : CoreState) (r v : Nat) : (c.writeX r v).fencing = c.fencing := by
  unfold CoreState.writeX
  split <;> rfl

theorem State.fenceCheck_of_not_fencing {s : State} {n k : Nat} (h : (s.core (4 * n + k)).fencing = false) :
    s.fenceCheck (.core n k) = s := by
  unfold State.fenceCheck coreKey
  dsimp only
  rw [h]
  rfl

/-- The value of a load arrives at its core (R350). -/
theorem State.deliver_load {s : State} {n k r il : Nat} (h : (s.core (4 * n + k)).fencing = false) (addr node v : Nat) :
    s.deliver ⟨.core n k, Op.load, false, addr, node, 8, .reg r il, true, 0, false⟩ 0 (leBytes 8 v) =
      s.onCore (4 * n + k) fun c => (c.writeX r (v % 2 ^ 64)).advance il := by
  have hbytes : leNat ((leBytes 8 v).take 8) = v % 2 ^ 64 := by
    rw [List.take_of_length_le (leBytes_length 8 v).le, leNat_leBytes]
  have hfencing : ((s.onCore (4 * n + k) fun c => (c.writeX r (v % 2 ^ 64)).advance il).core (4 * n + k)).fencing = false := by
    rw [State.core_onCore, if_pos rfl]
    exact (CoreState.writeX_fencing _ _ _).trans h
  rw [← State.fenceCheck_of_not_fencing hfencing, ← hbytes]
  rfl

theorem State.coreSteps_iff {s : State} {i : Nat} :
    s.coreSteps i = true ↔ s.coreRuns i = true ∧ (s.core i).fencing = false ∧ (s.core i).loads = [] ∧ s.storeHeld i = false := by
  unfold State.coreSteps
  rw [Bool.and_eq_true, Bool.and_eq_true, Bool.and_eq_true, Bool.not_eq_true', Bool.not_eq_true', List.isEmpty_iff, and_assoc, and_assoc]

theorem State.setupOffset_slcPort {n k o : Nat} (hn : n < 32) (hk : k < 4) (ho : o < 0x100) :
    setupOffset (.core n k) (setupBase + slcPortAt n k o) = some (slcPortAt n k o) := by
  unfold setupOffset
  rw [inSetup_base _ (slcPortAt_lt hn hk ho), Nat.add_sub_cancel_left]
  exact coreSetup_slcPortAt hn hk ho

theorem State.coreSteps_of_mayIssue {s : State} {n k : Nat} (h : s.mayIssue (.core n k) = true) : s.coreSteps (4 * n + k) = true :=
  ((Bool.and_eq_true _ _).mp h).2

/-- A core's load from the TAG of its own port: it waits for the answer, or returns the tag at once. -/
theorem State.engineLoad_tag {s : State} {n k : Nat} (hpresent : s.clusterPresent n = true) (hn : n < 32) (hk : k < 4)
    (hissue : s.mayIssue (.core n k) = true) (r il : Nat) :
    s.engineLoad (.core n k) false (setupBase + slcPortAt n k 8) 8 (.reg r il) =
      if (s.core (4 * n + k)).slcTag.isNone then
        s.onCore (4 * n + k) fun c => { c with loads := c.loads ++ [(slcPortAt n k 8, (8, .reg r il))] }
      else s.onCore (4 * n + k) fun c => (c.writeX r ((s.core (4 * n + k)).slcTag.getD 0 % 2 ^ 64)).advance il := by
  obtain ⟨-, hfencing, -, -⟩ := State.coreSteps_iff.mp (State.coreSteps_of_mayIssue hissue)
  have hread : s.slcPortRead n k 8 = (s.core (4 * n + k)).slcTag.getD 0 := by
    unfold State.slcPortRead
    exact if_pos rfl
  rw [← State.deliver_load hfencing (setupBase + slcPortAt n k 8) s.node, ← hread, ← State.setupRead_slcPort hn hk (by decide) hpresent,
    ← State.tagLoadWaits_slcPort hn hk, ← Bool.false_or (s.tagLoadWaits _), ← State.atomLoadWaits_slcPort (n := n) (o := 8) hk (by decide) s]
  unfold State.engineLoad
  rw [State.setupOffset_slcPort hn hk (by decide)]
  dsimp only
  rw [hissue]
  rfl

end Sys2Proof.Machine
end

section
namespace Sys2Proof.Machine

-- The Sluice port of a core (R255) -------------------------------------------------------------------------------------------

theorem scopePort_subset {p : Part} (h : p ∈ scopePort) : p ∈ scopeSetup := by
  revert p
  decide

theorem State.core_keep {w : List Part} (h : Part.cores ∈ w) (s t : State) (i : Nat) : (s.keep w t).core i = t.core i := by
  rw [State.core, State.keep_cores, if_pos h, State.core]

theorem CoreState.loadsReturn_nil {c : CoreState} (h : c.loads = []) (val : Nat → Option Nat) : c.loadsReturn val = c := by
  cases c
  subst h
  rfl

/-- The one load that waits returns when its address has a value (R255). -/
theorem CoreState.loadsReturn_single {c : CoreState} {a v r il : Nat} (h : c.loads = [(a, (8, .reg r il))]) (hv : v < 2 ^ 64)
    {val : Nat → Option Nat} (hval : val a = some v) : c.loadsReturn val = (({ c with loads := [] } : CoreState).writeX r v).advance il := by
  have hmod : v % 2 ^ (8 * 8) = v := Nat.mod_eq_of_lt hv
  unfold CoreState.loadsReturn
  rw [h]
  simp only [List.foldl_cons, List.foldl_nil, List.filter_cons, List.filter_nil, hval, hmod]
  rfl

/-- The answer of a command reaches the port of its core, with the item of a POP or PEEK, and the loads that waited (R255). -/
theorem State.core_freed {s : State} {c n k tag : Nat} {item : List Byte} (hk : k < 4) (hitem : bitAt tag 0 = true) :
    (s.freed c ⟨.core n k, tag, item⟩).core (4 * n + k) =
      ({ s.core (4 * n + k) with slcBusy := false, slcTag := some tag, slcData := item } : CoreState).loadsReturn
        fun off => if off = slcTagAt n k then some tag else none := by
  have hdiv : (4 * n + k) / 4 = n := by omega
  have hmod : (4 * n + k) % 4 = k := by omega
  unfold State.freed State.sluiceAnswer
  dsimp only
  rw [hitem]
  unfold slcPortCore
  dsimp only
  rw [hdiv, hmod, State.core_loadsReturn _ n hk]
  unfold State.onSlcPort slcPortCore
  dsimp only
  rw [State.core_onCore, if_pos rfl]
  rfl

theorem slcRequest_lt {q : SluiceCmd} (hchannel : q.channel < 4096) : slcRequest q < 2 ^ 64 := by
  have hcode := requestCode_lt q.op
  have hend := b2n_lt_two q.pktEnd
  have hfence := b2n_lt_two q.fence
  rw [slcRequest_eq]
  omega

theorem slcTagAt_eq (n k : Nat) : slcTagAt n k = slcPortAt n k 8 := by
  rw [slcTagAt, slcPortAt_eq]
  omega

theorem State.slcPortWrite_zero (s : State) (n k v : Nat) : s.slcPortWrite n k 0 v = s.slcPortRequest n k v := by
  unfold State.slcPortWrite
  exact if_pos rfl

/-- R255, R214. -/
theorem sluicePortCarriesCommands : Claims.SluicePortCarriesCommands := by
  intro s n k hlive hpresent hn hk port c tagLoad
  have hrequest : port = setupBase + slcPortAt n k 0 := by
    rw [slcPortAt_eq, Nat.add_zero, ← Nat.add_assoc, ← Nat.add_assoc]
  have htag : port + 8 = setupBase + slcPortAt n k 8 := by
    rw [hrequest]
    rfl
  have hload (r il : Nat) : tagLoad r il = (slcPortAt n k 8, (8, .reg r il)) := by
    rw [slcPortAt_eq, Nat.add_right_comm _ _ 8, Nat.add_right_comm _ _ 8]
  clear_value tagLoad port
  subst hrequest
  refine ⟨fun q hwho hchannel hplain hpush => ?_, fun r il _ _ hissue => ?_, fun ch tag item hwaiting hheld hwait hitem => ?_⟩
  · have hwrite := State.slcPortRequest_slcRequest hwho hchannel hplain hpush
    have hv : (BitVec.ofNat 64 (slcRequest q)).toNat = slcRequest q := by
      rw [BitVec.toNat_ofNat, Nat.mod_eq_of_lt (slcRequest_lt hchannel)]
    refine ⟨_, exec_act (f := fun s => s.setupWriteAt (.core n k) _ _ [] []) rfl hlive, ?_⟩
    rw [setupBase_toNat (slcPortAt_lt hn hk (by decide)), hv, State.setupWriteAt_slcPort hn hk (by decide) hpresent,
      State.slcPortWrite_zero, hwrite]
    refine ⟨fun hidle p hp => ?_, fun hbusy => ?_⟩
    · rw [if_neg (Bool.eq_false_iff.mp hidle)]
      exact State.same_keep (scopePort_subset hp) s _
    · rw [if_pos hbusy, State.core_keep (by decide), State.core_setCore_self]
      exact ⟨rfl, rfl, rfl, rfl⟩
  · refine ⟨_, exec_act (f := fun s => s.engineLoad (.core n k) false _ 8 (.reg r il)) rfl hlive, ?_⟩
    rw [htag, setupBase_toNat (slcPortAt_lt hn hk (by decide)), State.engineLoad_tag hpresent hn hk hissue, hload]
    obtain ⟨-, -, hloads, -⟩ := State.coreSteps_iff.mp (State.coreSteps_of_mayIssue hissue)
    refine ⟨?_, ?_, fun hnone => ?_, fun tag htag hlt => ?_⟩
    · split <;> rfl
    · split <;> rfl
    · have hcore : (s.onCore (4 * n + k) fun c => { c with loads := c.loads ++ [(slcPortAt n k 8, (8, .reg r il))] }).core (4 * n + k) =
          { c with loads := [(slcPortAt n k 8, (8, .reg r il))] } := by
        rw [State.core_onCore, if_pos rfl, hloads]
        rfl
      rw [if_pos (Option.isNone_iff_eq_none.mpr hnone), State.core_keep (by decide)]
      refine ⟨hcore, ?_⟩
      rw [Bool.eq_false_iff, Ne, State.coreSteps_iff, State.core_keep (by decide), hcore]
      exact fun ⟨_, _, hnil, _⟩ => List.cons_ne_nil _ _ hnil
    · have hsome : (s.core (4 * n + k)).slcTag = some tag := htag
      rw [if_neg (by rw [hsome]; exact Bool.false_ne_true), State.core_keep (by decide), State.core_onCore, if_pos rfl, hsome, Option.getD_some,
        Nat.mod_eq_of_lt hlt]
  · have hdone : s.storageDone ch = s.freed ch ⟨.core n k, tag, item⟩ := State.storageDone_of_alone hwaiting hheld hwait
    have hcore := State.core_freed (s := s) (c := ch) (n := n) (item := item) hk hitem
    refine ⟨_, State.exec_sluiceStorageDone hlive ch, ?_⟩
    intro d
    rw [hdone, State.core_keep (by decide), hcore]
    refine ⟨fun hloads => CoreState.loadsReturn_nil (c := d) hloads _, fun r il hloads hlt => ?_⟩
    rw [hload] at hloads
    exact CoreState.loadsReturn_single (c := d) hloads hlt (if_pos (slcTagAt_eq n k).symm)

/-- Settles O17: a storage access that is done sends the waiting answer and releases what was held; a channel out of service answers at once; a
core's port carries one command at a time, and a load from its TAG meets the answer. -/
theorem sluiceStorageAnswers : Obligations.SluiceStorageAnswers :=
  ⟨storageDoneAnswersAndResumes, disabledOrFailedChannelAppliesNothing, sluicePortCarriesCommands⟩

end Sys2Proof.Machine
end
